-- ==== Sys2Proof/Word.lean ====
section
/-! DEFINITION. The words of the part and their plainest arithmetic: bytes, 32-bit registers (R5),
64-bit counts, and the reading and writing of a bit range of a word. -/

namespace Sys2Proof

/-- One byte of a memory or store. -/
abbrev Byte := BitVec 8
/-- One 16-bit half word. -/
abbrev Half := BitVec 16
/-- One register (R5: registers are 32 bits wide). -/
abbrev Word := BitVec 32
/-- One 64-bit count or value. -/
abbrev Dword := BitVec 64

/-- Bits `lo` to `lo + len - 1` of a number. -/
def natBits (x lo len : Nat) : Nat := (x >>> lo) % 2 ^ len

/-- The field of `len` bits of a word that begins at bit `lo`. -/
def bits {n : Nat} (w : BitVec n) (lo len : Nat) : Nat := natBits w.toNat lo len

/-- One bit of a word. -/
def bit {n : Nat} (w : BitVec n) (i : Nat) : Bool := bits w i 1 == 1

/-- The mask of `len` ones that begins at bit `lo`. -/
def maskAt (lo len : Nat) : Nat := (2 ^ len - 1) <<< lo

/-- A word with the field of `len` bits at bit `lo` replaced by `v`. -/
def setBits {n : Nat} (w : BitVec n) (lo len v : Nat) : BitVec n :=
  let m := BitVec.ofNat n (maskAt lo len)
  (w &&& ~~~m) ||| (BitVec.ofNat n (v <<< lo) &&& m)

/-- A word with one bit set or cleared. -/
def setBit {n : Nat} (w : BitVec n) (i : Nat) (b : Bool) : BitVec n := setBits w i 1 (if b then 1 else 0)

/-- A truth value as a number. -/
def b2n (b : Bool) : Nat := if b then 1 else 0

/-- The least of a number and a saturation limit. -/
def satTo (limit x : Nat) : Nat := if x ≤ limit then x else limit

/-- Quotient rounded up. -/
def ceilDiv (a b : Nat) : Nat := (a + b - 1) / b

end Sys2Proof
end

