-- ==== Sys2Proof/Syntax.lean ====
section
/-! DEFINITION. The commands: one constructor per row of spec/opcode_table.json, and the data their operands carry. -/

namespace Sys2Proof

/-- Kinds of record (R223). -/
inductive RecKind where
  | set (flag : Bool) (count : Nat) | advance (flag : Bool) | flag
  deriving DecidableEq, Repr

/-- A forwarded record in flight (R227): its source device, its destination event and its kind. -/
structure Fwd where
  srcDev : Nat
  dst : Nat
  kind : RecKind
  deriving DecidableEq, Repr

/-- What a packet carries (Table NL-2). -/
inductive Pkt where
  | read (tag off len : Nat)
  | write (tag off : Nat) (data : List Byte)
  | atomic (tag off op : Nat) (data : List Byte)
  | response (tag status : Nat) (data : List Byte)
  | event (rec : Fwd)
  /-- Number of the enumeration, whether numbers are kept, and the sender's device number and port. -/
  | enum (seq : Nat) (rejoin : Bool) (dev port : Nat)
  /-- Role, number held plus 1, the ports it has passed on its way, and the links (own port, device, port of the device). -/
  | enumAnswer (role keep : Nat) (path : List Nat) (links : List (Nat × Nat × Nat))
  | number (dev role configured : Nat)
  /-- The idle bank, the masks of members and of lost devices, and the links of the domain. -/
  | routes (table : List (Nat × Nat)) (members lost configured : Nat) (topo : List (Nat × Nat × Nat × Nat))
  | switch
  | marker (flowDst vc : Nat)
  | echo (flowDst vc : Nat)
  | switchDone
  | switched
  | heartbeat
  | loss (mask : Nat)
  | probe (cand : Nat)
  | probeAnswer (cand : Nat)
  | mcRequest (words : List Word)
  | mcResponse (words : List Word)
  deriving DecidableEq, Repr

structure Packet where
  vc : Nat
  src : Nat
  dst : Nat
  hop : Nat := 0
  /-- Bit 0 of the epoch its source sent it in (R350). -/
  epoch : Nat := 0
  /-- The ports a packet of an enumeration still has to take, where the manager sends it by its answer's path. -/
  path : Option (List Nat) := none
  body : Pkt
  deriving DecidableEq, Repr


/-- One run of samples of an ST 2110-20 packet: its row, first pixel and data (the SRD segments). -/
structure Srd where
  row : Nat
  col : Nat
  data : List Byte
  deriving DecidableEq, Repr

/-- A frame received on a media port: the checks of its FCS, its tag, addresses and UDP ports, and its payload: an RTP
packet's timestamp, marker and runs, or a raw tile's datagram (Tables MT-2, MT-3). -/
structure MediaPkt where
  fcsBad : Bool
  vlan : Option Nat
  group : Nat
  src : Nat
  dport : Nat
  ts : Nat
  marker : Bool
  srds : List Srd
  raw : List Byte
  deriving DecidableEq, Repr

/-- The commands of the part. -/
inductive Instr where
  /-- ABSENT_UNIT_ACCESS (R2): A BAR0 access to the registers of an absent unit reads zero, discards a write, sets ABSENT_ACCESS and completes normally. -/
  | absentUnitAccess (write : Bool) (off : Nat) (val : Word)
  /-- UNMAPPED_ACCESS (R3): A BAR0 access to an offset that belongs to no block behaves as an absent-unit access and sets UNMAPPED_ACCESS. -/
  | unmappedAccess (write : Bool) (off : Nat) (val : Word)
  /-- BAD_WIDTH_WRITE (R6): A narrower or misaligned BAR0 write is discarded and sets BAD_WIDTH. -/
  | badWidthWrite (off : Nat) (bytes : Nat) (val : Dword)
  /-- REGISTER_WRITE (R7): A write to a register that has no row of its own acts as its access type defines. -/
  | registerWrite (off : Nat) (val : Word)
  /-- RC_REGISTER_READ (R8): A read of an RC counter returns its sampled value and clears only what it returned. -/
  | rcRegisterRead (off : Nat)
  /-- DOORBELL (R206): A DOORBELL write publishes the entries of a host-fed ring up to the new TAIL, or publishes one reserved entry of a shared ring. -/
  | doorbell (ring : Nat) (val : Word)
  /-- RESERVE (R207): A host read of RESERVE atomically reserves one entry of a shared ring and returns its index. -/
  | reserve (ring : Nat)
  /-- DESCRIPTOR_FETCH (R217): An Escapement fetches the published descriptor that became fetchable earliest, when a slot is free under every limit. -/
  | descriptorFetch (eng : Nat)
  /-- INDIRECT_READ (R212): Once the waits are met, indirect body values are read, with an acquire at device scope and no timeout on translation. -/
  | indirectRead (ring : Nat)
  /-- DESCRIPTOR_START (R211): A descriptor whose waits are met and whose indirect values are read starts in ring order. -/
  | descriptorStart (ring : Nat)
  /-- DESCRIPTOR_COMPLETE (R213): A completing descriptor writes its record, advances SIGNAL, sets its ring interrupt and pushes its continuation. -/
  | descriptorComplete (desc : Nat)
  /-- CONTINUATION_PUSH (R215): Continuation entries are reserved, copied and published in CHAIN_RING, waiting while that ring has no room. -/
  | continuationPush (ring : Nat)
  /-- NOP (R216): The NOP descriptor completes as soon as it starts. -/
  | nop (desc : Nat)
  /-- EVENT_WAIT (R216): The EVENT_WAIT descriptor starts when each valid event reaches its full 63-bit target, then completes. -/
  | eventWait (desc : Nat)
  /-- EVENT_RECORD (R216): The EVENT_RECORD descriptor records each valid value on its event at its start, in ascending index. -/
  | eventRecord (desc : Nat)
  /-- WHEEL_OP (R72): A WHEEL_OP descriptor reads its operation record, meets its waits, reads indirect values and runs the checks of Table WO-4. -/
  | wheelOp (desc : Nat)
  /-- OPERATION_PARAMETER_READ (R72): Per-column arrays and the activation table are read at operation start, waiting on pending translation, then checked. -/
  | operationParameterRead (op : Nat)
  /-- NETWORK_PASS_ISSUE (R57): A network pass presents one operation on one unit to the Great Wheel stream. -/
  | networkPassIssue (pass : Nat)
  /-- GW_SELECT (R241): At a selection point the Great Wheel chooses the next operation by weighted deficit round robin among context candidates. -/
  | gwSelect
  /-- SLICE_LOAD (R43): A weight slice, or template tile, is loaded into the shadow registers and swapped in with the first vector. -/
  | sliceLoad
  /-- WAVEFRONT (R47): One wavefront steps activation vectors through the array when feed, output path and load are ready. -/
  | wavefront (fault : Nat) (group : Nat)
  /-- GW_OPERATION_COMPLETE (R75): An operation ends, writes its completion record with status, W, stalls and counters, and records its signal event. -/
  | gwOperationComplete (op : Nat)
  /-- PATTERN_TEST (R49): On expiry of CHECK_INTERVAL the array runs a 1,024-wavefront pattern test on the next active logical group. -/
  | patternTest (pass : Bool)
  /-- SPARE_TEST_FAILURE (R49): A spare group that fails its background test is retired and GW_ERR.PATTERN is set. -/
  | spareTestFailure (phys : Nat)
  /-- GROUP_REPAIR (R51): Firmware replaces a faulty active group by the lowest healthy spare before the next operation's first vector enters. -/
  | groupRepair (pass : Bool)
  /-- FORGET (R53): A write of GW_REPAIR_CTRL.FORGET clears the Great Wheel's retained repair history when the array is idle. -/
  | forget (val : Word)
  /-- GW_RATE_SAMPLE (R55): Each completed 1 ms of the device timebase updates GW_RATE from the wavefronts stepped. -/
  | gwRateSample (stepNs : Nat)
  /-- MODEL_REGISTER (R83): MODEL_REGISTER reads an image header and operation list, copies the list into the operation store and assigns a MODEL_ID. -/
  | modelRegister (mb : Nat)
  /-- MODEL_LOAD (R95): The MODEL_LOAD command admits a model and completes when it is resident. -/
  | modelLoad (mb : Nat)
  /-- MODEL_PIN (R94): MODEL_PIN makes a model immune to eviction and admits it if not resident. -/
  | modelPin (mb : Nat)
  /-- MODEL_UNPIN (R94): MODEL_UNPIN returns a model to recency order. -/
  | modelUnpin (mb : Nat)
  /-- MODEL_EVICT (R95): MODEL_EVICT evicts an unpinned model once it is not held. -/
  | modelEvict (mb : Nat)
  /-- MODEL_UNLOAD (R95): MODEL_UNLOAD evicts a model, removes its list from the store and frees its MODEL_ID. -/
  | modelUnload (mb : Nat)
  /-- MODEL_STATUS (R86): MODEL_STATUS returns a model's state, count B, blocks resident, pin and failure. -/
  | modelStatus (mb : Nat)
  /-- BARREL_QUOTA (R90): BARREL_QUOTA changes a context's frame quota, evicting unpinned models when lowered below its resident blocks. -/
  | barrelQuota (mb : Nat)
  /-- MODEL_LOAD_DESCRIPTOR (R96): A MODEL_LOAD descriptor hands an admission to the fill path and completes when the model is resident or the admission fails. -/
  | modelLoadDescriptor (desc : Nat)
  /-- ADMISSION (R92): An admission requests frames for a model, evicting least-recent unheld models, waiting on holds or failing with QUOTA_EXCEEDED. -/
  | admission
  /-- HOLD_END_ADMISSION_RESUME (R92): When holds end, an admission waiting in fill order is judged again and its fill starts. -/
  | holdEndAdmissionResume
  /-- BLOCK_RESIDENT (R86): The fill path finishes writing a block, which becomes resident in order and records the residency event. -/
  | blockResident
  /-- LOAD_FAILURE (R97): A failed image read or Deflate stream fails the admission, frees frames, flags the event and marks the model failed. -/
  | loadFailure
  /-- BARREL_ECC_ERROR (R98): A Barrel bank-word error is corrected, or on a double-bit error fails the operation and leads to eviction, frame test and retirement. -/
  | barrelEccError (frame : Nat) (word : Nat) (double : Bool) (pass : Bool) (op : Nat)
  /-- BARREL_SHARE (R93): A render pass admits every model its network-pass entries name, all at once, before taking any Plate slot. -/
  | barrelShare (pass : Nat)
  /-- PLATE_PARTITION (R104): PLATE_PARTITION grows or shrinks a context's granule list, zeroing granules before giving them. -/
  | platePartition (mb : Nat)
  /-- GRANULE_RELEASE (R104): A granule waiting to be removed by a shrink is released when no claim covers it. -/
  | granuleRelease (ctx : Nat)
  /-- PLATE_ACCESS (R115): A Plate access is checked against ownership and partition range and served by the bank-group ports. -/
  | plateAccess (ctx : Nat) (slot : Nat) (off : Nat) (write : Bool) (data : List Byte)
  /-- PLATE_ECC_ERROR (R116): A Plate bank-word error is corrected, or on a double-bit error reads zero, fails the descriptor and tests the line. -/
  | plateEccError (phys : Nat) (word : Nat) (double : Bool) (pass : Bool) (desc : Nat)
  /-- GRANULE_REPLACEMENT (R116): A retired granule is replaced by a free healthy granule, or left unbacked, when no claim covers it. -/
  | granuleReplacement (ctx : Nat)
  /-- PLATE_CLAIM (R114): A render pass takes the union of its image ranges as its Plate claim after its Barrel share. -/
  | plateClaim (pass : Nat)
  /-- ROW_RELEASE (R110): When no reader needs a row of an EXTERNAL image, the pass records REL_EVENT with that row's count. -/
  | rowRelease (pass : Nat)
  /-- BIN_PASS (R124): A BIN_PASS is checked and opened on the Binner. -/
  | binPass (desc : Nat)
  /-- BIN_BATCH (R125): The Binner shades a batch's vertices on the Pinions and bins its primitives into tile lists. -/
  | binBatch
  /-- BINNER_UNPARK (R129): A parked BIN_PASS resumes when REL_EVENT reaches its target, empties the dynamic area and continues. -/
  | binnerUnpark (desc : Nat)
  /-- RENDER_PASS (R122): A RENDER_PASS is checked by its lead engine, which reads its tables and takes its shares. -/
  | renderPass (desc : Nat)
  /-- UNIT_HANDOUT (R120): An engine that finishes a unit takes the next unit of the oldest pass that names it and whose unit can start. -/
  | unitHandout (te : Nat)
  /-- TILE_PROCESS (R132): A tile engine runs load, depth pre-pass, shading, resolve, network and store or spill for one tile. -/
  | tileProcess (te : Nat)
  /-- SEGMENT_READ (R129): The render pass reads a segment when SEG_EVENT reaches it and releases it by REL_EVENT. -/
  | segmentRead (pass : Nat)
  /-- HEAP_DRAIN (R131): A failed pass records the release of each segment as it closes and renders nothing more. -/
  | heapDrain (pass : Nat)
  /-- RENDER_PASS_COMPLETE (R129): After releasing its final segment the pass advances SEG_BASE and REL_BASE and completes. -/
  | renderPassComplete (pass : Nat)
  /-- DISPATCH (R151): A DISPATCH descriptor is checked and its workgroups are expanded to train queues. -/
  | dispatch (desc : Nat)
  /-- WORKGROUP_EXPANSION (R152): The dispatch engine places the next workgroup in its affinity train's queue, pausing while that queue is full. -/
  | workgroupExpansion (desc : Nat)
  /-- WORKGROUP_ADMISSION (R145): A Pinion admits a waiting workgroup when slots, beat room and local store allow, in class and age order. -/
  | workgroupAdmission (train : Nat) (pos : Nat)
  /-- WORKGROUP_STEAL (R154): After STEAL_DELAY with its own queue empty, a Pinion takes the oldest admissible workgroup from another train. -/
  | workgroupSteal (train : Nat) (pos : Nat)
  /-- WORKGROUP_END (R157): A workgroup ends when all its beats have ended. -/
  | workgroupEnd (wg : Nat)
  /-- DISPATCH_COMPLETE (R153): A dispatch completes when every workgroup has ended and writes its completion record. -/
  | dispatchComplete (desc : Nat)
  /-- FADD (R34): FP32 add. -/
  | fadd (wg : Nat) (beat : Nat)
  /-- FMUL (R34): FP32 multiply. -/
  | fmul (wg : Nat) (beat : Nat)
  /-- FFMA (R34): FP32 fused multiply-add with one rounding. -/
  | ffma (wg : Nat) (beat : Nat)
  /-- FMIN (R34): FP32 minimumNumber. -/
  | fmin (wg : Nat) (beat : Nat)
  /-- FMAX (R34): FP32 maximumNumber. -/
  | fmax (wg : Nat) (beat : Nat)
  /-- FCMP (R158): FP32 compare writing a predicate. -/
  | fcmp (wg : Nat) (beat : Nat)
  /-- FRCP (R35): Approximate FP32 reciprocal. -/
  | frcp (wg : Nat) (beat : Nat)
  /-- FRSQ (R35): Approximate FP32 reciprocal square root. -/
  | frsq (wg : Nat) (beat : Nat)
  /-- FEXP2 (R35): Approximate FP32 base-2 exponential. -/
  | fexp2 (wg : Nat) (beat : Nat)
  /-- FLOG2 (R35): Approximate FP32 base-2 logarithm. -/
  | flog2 (wg : Nat) (beat : Nat)
  /-- FSIN (R35): Approximate FP32 sine. -/
  | fsin (wg : Nat) (beat : Nat)
  /-- FCOS (R35): Approximate FP32 cosine. -/
  | fcos (wg : Nat) (beat : Nat)
  /-- FDIV (R34): Correctly rounded FP32 divide. -/
  | fdiv (wg : Nat) (beat : Nat)
  /-- FSQRT (R34): Correctly rounded FP32 square root. -/
  | fsqrt (wg : Nat) (beat : Nat)
  /-- HADD2 (R34): Packed FP16 add. -/
  | hadd2 (wg : Nat) (beat : Nat)
  /-- HMUL2 (R34): Packed FP16 multiply. -/
  | hmul2 (wg : Nat) (beat : Nat)
  /-- HFMA2 (R34): Packed FP16 fused multiply-add. -/
  | hfma2 (wg : Nat) (beat : Nat)
  /-- HMIN2 (R34): Packed FP16 minimumNumber. -/
  | hmin2 (wg : Nat) (beat : Nat)
  /-- HMAX2 (R34): Packed FP16 maximumNumber. -/
  | hmax2 (wg : Nat) (beat : Nat)
  /-- HCMP2 (R158): Packed FP16 compare writing two predicates. -/
  | hcmp2 (wg : Nat) (beat : Nat)
  /-- IADD (R37): Integer add, wrapping. -/
  | iadd (wg : Nat) (beat : Nat)
  /-- ISUB (R37): Integer subtract, wrapping. -/
  | isub (wg : Nat) (beat : Nat)
  /-- IMUL (R37): Integer multiply, low half. -/
  | imul (wg : Nat) (beat : Nat)
  /-- IMULHI (R37): Integer multiply, high half. -/
  | imulhi (wg : Nat) (beat : Nat)
  /-- IMAD (R37): Integer multiply-add. -/
  | imad (wg : Nat) (beat : Nat)
  /-- IADDSAT (R37): Saturating integer add. -/
  | iaddsat (wg : Nat) (beat : Nat)
  /-- ISUBSAT (R37): Saturating integer subtract. -/
  | isubsat (wg : Nat) (beat : Nat)
  /-- IMIN (R37): Signed integer minimum. -/
  | imin (wg : Nat) (beat : Nat)
  /-- IMAX (R37): Signed integer maximum. -/
  | imax (wg : Nat) (beat : Nat)
  /-- UMIN (R37): Unsigned integer minimum. -/
  | umin (wg : Nat) (beat : Nat)
  /-- UMAX (R37): Unsigned integer maximum. -/
  | umax (wg : Nat) (beat : Nat)
  /-- ICMP (R158): Signed integer compare writing a predicate. -/
  | icmp (wg : Nat) (beat : Nat)
  /-- UCMP (R158): Unsigned integer compare writing a predicate. -/
  | ucmp (wg : Nat) (beat : Nat)
  /-- AND (R37): Bitwise and. -/
  | andBits (wg : Nat) (beat : Nat)
  /-- OR (R37): Bitwise or. -/
  | orBits (wg : Nat) (beat : Nat)
  /-- XOR (R37): Bitwise exclusive or. -/
  | xorBits (wg : Nat) (beat : Nat)
  /-- SHL (R37): Shift left. -/
  | shl (wg : Nat) (beat : Nat)
  /-- SHR (R37): Logical shift right. -/
  | shr (wg : Nat) (beat : Nat)
  /-- SAR (R37): Arithmetic shift right. -/
  | sar (wg : Nat) (beat : Nat)
  /-- POPC (R37): Population count. -/
  | popc (wg : Nat) (beat : Nat)
  /-- CLZ (R37): Count leading zeros. -/
  | clz (wg : Nat) (beat : Nat)
  /-- IADD2 (R37): Packed 16-bit integer add, wrapping modulo 2^16. -/
  | iadd2 (wg : Nat) (beat : Nat)
  /-- IADDI (R158): Integer add of a 32-bit immediate. -/
  | iaddi (wg : Nat) (beat : Nat)
  /-- BFE (R37): Bit-field extract. -/
  | bfe (wg : Nat) (beat : Nat)
  /-- CVT (R36): Format conversion applying steps 5 to 7 of R29 with the instruction's rounding and overflow mode. -/
  | cvt (wg : Nat) (beat : Nat)
  /-- MOV (R158): Register move. -/
  | mov (wg : Nat) (beat : Nat)
  /-- MOVI (R158): Move of a 32-bit immediate. -/
  | movi (wg : Nat) (beat : Nat)
  /-- SEL (R158): Select SRC0 where a predicate is set and SRC1 elsewhere. -/
  | sel (wg : Nat) (beat : Nat)
  /-- SHFL (R158): Each lane takes SRC0 of the lane SRC1 names in its beat. -/
  | shfl (wg : Nat) (beat : Nat)
  /-- VOTE (R158): Beat-wide ANY, ALL or BALLOT over a predicate. -/
  | vote (wg : Nat) (beat : Nat)
  /-- DDX (R158): Horizontal difference within a quad. -/
  | ddx (wg : Nat) (beat : Nat)
  /-- DDY (R158): Vertical difference within a quad. -/
  | ddy (wg : Nat) (beat : Nat)
  /-- PMOV (R156): Move between a predicate register and a vector register. -/
  | pmov (wg : Nat) (beat : Nat)
  /-- PLOP (R156): Predicate logic operation. -/
  | plop (wg : Nat) (beat : Nat)
  /-- LD (R162): Global load of any alignment through the L1. -/
  | ld (wg : Nat) (beat : Nat)
  /-- ST (R162): Global store of any alignment, write-through. -/
  | st (wg : Nat) (beat : Nat)
  /-- LDS (R162): Local store load. -/
  | lds (wg : Nat) (beat : Nat)
  /-- STS (R162): Local store write. -/
  | sts (wg : Nat) (beat : Nat)
  /-- LDC (R150): Constant load from VS_CONST, FS_CONST or CONST. -/
  | ldc (wg : Nat) (beat : Nat)
  /-- ATOM (R161): Atomic performed at the system cache, or as CXL.cache at system scope. -/
  | atom (wg : Nat) (beat : Nat)
  /-- ATOMS (R161): Atomic in local store, atomic within the workgroup. -/
  | atoms (wg : Nat) (beat : Nat)
  /-- FENCE (R160): Release or acquire ordering of the beat's accesses at a scope. -/
  | fence (wg : Nat) (beat : Nat)
  /-- PLD (R164): Load of 1 to 16 bytes per lane from the Plate. -/
  | pld (wg : Nat) (beat : Nat)
  /-- PST (R164): Store of 1 to 16 bytes per lane to the Plate. -/
  | pst (wg : Nat) (beat : Nat)
  /-- RSUB (R165): Reserve ring entries per lane, copy descriptors, publish them and ring the doorbell once. -/
  | rsub (wg : Nat) (beat : Nat)
  /-- EVREC (R166): Record a 64-bit value on an event per guard lane, with a release. -/
  | evrec (wg : Nat) (beat : Nat)
  /-- EVWAIT (R166): The beat waits until each lane's event reaches its target, then reports error flags in a predicate. -/
  | evwait (wg : Nat) (beat : Nat)
  /-- EVRD (R166): Read an event's 64-bit value. -/
  | evrd (wg : Nat) (beat : Nat)
  /-- MALLOC (R167): Allocate from the device-side allocator per guard lane. -/
  | malloc (wg : Nat) (beat : Nat)
  /-- MFREE (R167): Free an allocation per guard lane. -/
  | mfree (wg : Nat) (beat : Nat)
  /-- BRA (R157): Beat-wide branch tested on the guard lanes. -/
  | bra (wg : Nat) (beat : Nat)
  /-- CALL (R157): Push the return address on the beat stack and branch. -/
  | call (wg : Nat) (beat : Nat)
  /-- RET (R157): Pop the return address from the beat stack. -/
  | ret (wg : Nat) (beat : Nat)
  /-- BAR (R157): Wait until every beat of the workgroup reaches the barrier or ends. -/
  | bar (wg : Nat) (beat : Nat)
  /-- END (R157): End the guard lanes, taking output registers. -/
  | endLanes (wg : Nat) (beat : Nat)
  /-- DISCARD (R157): End the guard lanes of a fragment program with no output. -/
  | discard (wg : Nat) (beat : Nat)
  /-- S2R (R158): Read a system value such as lane, beat, train or calendar time. -/
  | s2r (wg : Nat) (beat : Nat)
  /-- PINION_NOP (R158): The NOP instruction does nothing. -/
  | pinionNop (wg : Nat) (beat : Nat)
  /-- PINION_ECC_ERROR (R168): A register-file or local-store error is corrected, or on a double-bit error abandons every resident workgroup and tests the Pinion. -/
  | pinionEccError (train : Nat) (pos : Nat) (double : Bool) (pass : Bool)
  /-- PINION_PATTERN_TEST (R169): On expiry of CHECK_INTERVAL one active Pinion drains, runs a pattern test and returns to service. -/
  | pinionPatternTest (pass : Bool)
  /-- PINION_RETIRE (R170): A retired Pinion is replaced by its train's hot spare, or the train runs with fewer Pinions. -/
  | pinionRetire (train : Nat)
  /-- GO (R173): A GO write moves an IDLE or DONE mailbox to PENDING, zeroes the response and raises the sequence number. -/
  | go (mb : Nat)
  /-- ACK (R173): An ACK write moves a DONE mailbox to IDLE. -/
  | ack (mb : Nat)
  /-- MAILBOX_TAKE (R176): The servicer takes a PENDING request, runs the checks of R175 and carries out or accepts the command. -/
  | mailboxTake (mb : Nat)
  /-- JOB_DONE (R177): A long command's job ends, its status and result are written and its completion is signalled. -/
  | jobDone (job : Nat)
  /-- RELEASE (R177): A write of RG_JOBj_CTRL.RELEASE frees a DONE job slot. -/
  | release (job : Nat)
  /-- GET_INFO (R181): GET_INFO returns variant, units, firmware version, counts and identity. -/
  | getInfo (mb : Nat)
  /-- CTX_CREATE (R190): CTX_CREATE assigns a free context, takes and zeroes granules, sets the quota and initial resources. -/
  | ctxCreate (mb : Nat)
  /-- CTX_DESTROY (R193): CTX_DESTROY fences, drains, releases the shares and zeroes the partition of a context. -/
  | ctxDestroy (mb : Nat)
  /-- DESTROY_DRAIN_END (R193): A destruction leaves stage 2 when every descriptor in flight has completed and every host request is answered. -/
  | destroyDrainEnd (ctx : Nat)
  /-- DESTROY_PARTITION_ZEROED (R193): A destruction zeroes and frees the partition once no claim covers it, and the context becomes FREE. -/
  | destroyPartitionZeroed (ctx : Nat)
  /-- CTX_QUERY (R187): CTX_QUERY returns a context's state, PASID, rings and fault-ring counts. -/
  | ctxQuery (mb : Nat)
  /-- CTX_UNFENCE (R189): CTX_UNFENCE returns a HALTED context to ACTIVE. -/
  | ctxUnfence (mb : Nat)
  /-- CTX_WEIGHT (R241): CTX_WEIGHT sets a context's Great Wheel weight from its next grant. -/
  | ctxWeight (mb : Nat)
  /-- EVENT_ALLOC (R222): EVENT_ALLOC allocates the lowest wholly free contiguous run of events at value 0. -/
  | eventAlloc (mb : Nat)
  /-- EVENT_FREE (R226): EVENT_FREE frees a run of events, ending waits on them with BAD_EVENT. -/
  | eventFree (mb : Nat)
  /-- HANG_POLICY (R233): HANG_POLICY sets a context's hang window and action. -/
  | hangPolicy (mb : Nat)
  /-- RING_CREATE (R203): RING_CREATE makes a ring for a context bound to one engine. -/
  | ringCreate (mb : Nat)
  /-- RING_DESTROY (R219): RING_DESTROY removes a ring that has nothing in flight. -/
  | ringDestroy (mb : Nat)
  /-- RING_QUERY (R427): RING_QUERY returns a ring's head, tail and state. -/
  | ringQuery (mb : Nat)
  /-- RESV_SET (R252): RESV_SET admits a bandwidth reservation for a client if the sum fits 70 % of the derated bandwidth. -/
  | resvSet (mb : Nat)
  /-- RESV_RELEASE (R251): RESV_RELEASE ends a reservation at once. -/
  | resvRelease (mb : Nat)
  /-- RESV_QUERY (R252): RESV_QUERY returns the reserved bandwidth per class and the derated bandwidth. -/
  | resvQuery (mb : Nat)
  /-- ACCT_BIND (R246): ACCT_BIND binds a context to an accounting client. -/
  | acctBind (mb : Nat)
  /-- ACCT_READ (R249): ACCT_READ returns a client's counts for the open and previous period and the period end. -/
  | acctRead (mb : Nat)
  /-- ACCT_PERIOD (R247): ACCT_PERIOD sets the period grid, closes the open period and opens the one holding the present time. -/
  | acctPeriod (mb : Nat)
  /-- FAB_ENUMERATE (R349): FAB_ENUMERATE numbers the domain breadth-first, computes up-down routes and installs them by an epoch switch. -/
  | fabEnumerate (mb : Nat)
  /-- FAB_ROUTE_WRITE (R350): FAB_ROUTE_WRITE writes one entry of the idle routing bank. -/
  | fabRouteWrite (mb : Nat)
  /-- FAB_EPOCH_SWITCH (R351): FAB_EPOCH_SWITCH drains every flow behind markers and makes the idle bank active on every member. -/
  | fabEpochSwitch (mb : Nat)
  /-- FAB_STATUS (R348): FAB_STATUS returns role, device number, epoch, ports up and manager reachability. -/
  | fabStatus (mb : Nat)
  /-- FAB_REJOIN (R357): FAB_REJOIN re-enumerates the domain keeping device numbers. -/
  | fabRejoin (mb : Nat)
  /-- CHRONO_EXPORT (R420): CHRONO_EXPORT writes the oldest selected records of a store into a context buffer. -/
  | chronoExport (mb : Nat)
  /-- CHRONO_CLEAR (R421): CHRONO_CLEAR empties the named stores and writes a CLEARED record. -/
  | chronoClear (mb : Nat)
  /-- CHRONO_INFO (R419): CHRONO_INFO returns the record counts and the oldest circulating index. -/
  | chronoInfo (mb : Nat)
  /-- CHRONO_LIMIT (R418): CHRONO_LIMIT sets the rate limit of one record code and refills its bucket. -/
  | chronoLimit (mb : Nat)
  /-- SCRUB (R401): SCRUB reads every word of a target range and writes back corrected words. -/
  | scrub (mb : Nat)
  /-- SELF_TEST (R385): SELF_TEST resets and tests each named function in ascending bit order as one job. -/
  | selfTest (mb : Nat)
  /-- STATUS (R180): STATUS returns RG_STATUS, GLOBAL_READY, fenced functions, fenced contexts and calendar time. -/
  | status (mb : Nat)
  /-- FENCE_CONTEXT (R188): FENCE_CONTEXT fences one context and completes when the fence is in force. -/
  | fenceContext (mb : Nat)
  /-- FENCE_ALL (R188): FENCE_ALL fences every context and completes when the fences are in force. -/
  | fenceAll (mb : Nat)
  /-- READ_COUNTERS (R410): READ_COUNTERS returns five 64-bit counters of a bank from an index. -/
  | readCounters (mb : Nat)
  /-- CHRONO_READ (R419): CHRONO_READ returns one record of a store and the store's count without touching memory. -/
  | chronoRead (mb : Nat)
  /-- RESET_FUNCTION (R384): RESET_FUNCTION fences, clears, tests and restores one function. -/
  | resetFunction (mb : Nat)
  /-- RESET_DEVICE (R180): RESET_DEVICE writes its response and starts a COMMAND reset of the device. -/
  | resetDevice (mb : Nat)
  /-- MANAGEMENT_COMMAND_ARRIVAL (R180): A management command from the acting manager reaches the Remontoire by its own slot and is served with mailbox 15. -/
  | managementCommandArrival (words : List Word)
  /-- ALLOC (R199): The ALLOC descriptor carves an allocation from the context's heap and writes its VA. -/
  | alloc (desc : Nat)
  /-- FREE (R199): The FREE descriptor frees the allocation that begins at the VA given. -/
  | free (desc : Nat)
  /-- ALLOCATOR_REQUEST (R197): The context's allocator serves one request at a time in arrival order. -/
  | allocatorRequest (ctx : Nat)
  /-- EV_RECORD_HI (R239): A write of EV_RECORD_HI stores the device-wide holding register. -/
  | evRecordHi (val : Word)
  /-- EV_RECORD_LO (R223): A write of EV_RECORD_LO performs a set of HI:LO on the selected event. -/
  | evRecordLo (val : Word)
  /-- EV_ADVANCE (R223): A write of EV_ADVANCE advances the selected event with the given flag. -/
  | evAdvance (val : Word)
  /-- LINKED_RECORD_ARRIVAL (R227): A forwarded record arriving at its destination is performed if accepted, otherwise discarded and counted. -/
  | linkedRecordArrival
  /-- TICK_SAMPLE (R232): Every 10 ms firmware classes each context and engine pair as TICKING, WAITING, STALLED or IDLE. -/
  | tickSample
  /-- PERIOD_CLOSE (R248): When calendar time reaches the open period's end, open banks become previous and the next period opens. -/
  | periodClose
  /-- SHORTFALL_WINDOW (R254): At each 100 µs window a reserved client's shortfall takes the next step of Table SA-4, or after 10 ms without one releases a step. -/
  | shortfallWindow (cls : Nat) (client : Nat) (received : Nat) (demand : Nat)
  /-- TRANSLATION_MISS (R258): An access missing the device TLB joins or opens a miss entry and sends an ATS Translation Request. -/
  | translationMiss (stream : Nat) (ctx : Nat) (va : Nat) (write : Bool) (atomic : Bool)
  /-- TRANSLATION_COMPLETION (R259): A Translation Completion received is installed and serves the entry's accesses, or leads to a page request or failure. -/
  | translationCompletion (stream : Nat) (pasid : Nat) (page : Nat) (ok : Bool) (hpa : Nat) (log2 : Nat) (r : Bool) (w : Bool) (n : Bool) (u : Bool)
  /-- PAGE_REQUEST (R260): A page request is sent when a page request credit is free, in the order misses opened. -/
  | pageRequest
  /-- PAGE_REQUEST_RESPONSE (R260): A PRG response received leads to a second translation request or to failure with its cause. -/
  | pageRequestResponse (stream : Nat) (pasid : Nat) (page : Nat) (code : Nat)
  /-- FAULT_RECORD_WRITE (R263): A fault record is written to the context's fault ring, or parks when the ring is full. -/
  | faultRecordWrite (ctx : Nat)
  /-- FAULT_RING_HEAD_WRITE (R263): A write of TU_FRING_HEAD consumes records and releases parked records in SEQ order. -/
  | faultRingHeadWrite (val : Word)
  /-- FAULT_RING_RESIZE (R262): A write of TU_FRING_CFG.LOG2 resizes and places an empty fault ring. -/
  | faultRingResize (val : Word)
  /-- INVALIDATE_REQUEST (R265): An ATS Invalidate Request removes overlapping TLB entries and is completed once affected requests are sent. -/
  | invalidateRequest (hasPasid : Bool) (pasid : Nat) (base : Nat) (size : Nat)
  /-- FLUSH_ALL (R265): A write of TU_CTRL.FLUSH_ALL removes every TLB entry. -/
  | flushAll
  /-- CACHE_ACCESS (R272): An access looks up the system cache and allocates by its class and way mask on a miss. -/
  | cacheAccess (addr : Nat) (host : Bool) (hc : Bool) (write : Bool) (data : List Byte)
  /-- VICTIM_EVICTION (R276): A line leaving the victim cache is written back, dropped or given up to the host. -/
  | victimEviction (slice : Nat)
  /-- EVICTION_ACKNOWLEDGE (R279): The host's answer to a CXL.cache eviction frees the EVICTING victim slot. -/
  | evictionAcknowledge (slice : Nat) (slot : Nat)
  /-- HOST_SNOOP (R278): A CXL.cache snoop is answered from the main array or victim cache after L1 invalidations. -/
  | hostSnoop (addr : Nat) (invalidate : Bool)
  /-- L1_EVICTION_NOTICE (R280): An L1 eviction notice reaches the directory and clears the train's bit once paired with any invalidation. -/
  | l1EvictionNotice (addr : Nat) (host : Bool) (train : Nat)
  /-- INVALIDATION_ACKNOWLEDGE (R277): A train's acknowledgement of a directory invalidation lets a held write proceed. -/
  | invalidationAcknowledge (addr : Nat) (host : Bool) (train : Nat) (crossed : Bool)
  /-- SD_EN_WRITE (R274): A write of CA_CLASS_EN.SD_EN enables or disables the shader-data class. -/
  | sdEnWrite (en : Bool)
  /-- HC_EN_WRITE (R275): A write of CA_CLASS_EN.HC_EN disables the host-coherent class with cleaning, or enables it if invalidated. -/
  | hcEnWrite (en : Bool)
  /-- CA_WAYS_WRITE (R273): A write of CA_WAYS sets class way masks, ignored if it empties an enabled class. -/
  | caWaysWrite (val : Word)
  /-- CLEAN (R281): Maintenance OP 1 writes back dirty lines of the target. -/
  | clean
  /-- INVALIDATE (R281): Maintenance OP 2 removes lines of the target. -/
  | invalidate
  /-- CLEAN_AND_INVALIDATE (R281): Maintenance OP 3 cleans and removes lines of the target. -/
  | cleanAndInvalidate
  /-- MAINTENANCE_COMPLETE (R282): A maintenance request completes, sets DONE and advances its event. -/
  | maintenanceComplete
  /-- CACHE_ECC_ERROR (R284): A system cache data or tag error is corrected, refetched, poisoned or loses the line. -/
  | cacheEccError (slice : Nat) (set : Nat) (way : Nat) (kind : Nat)
  /-- COMPRESS (R292): The COMPRESS descriptor codes input bytes of a stream into Deflate blocks. -/
  | compress (desc : Nat)
  /-- DECOMPRESS (R296): The DECOMPRESS descriptor decodes a Deflate stream within its framing. -/
  | decompress (desc : Nat)
  /-- FLUSH (R293): The FLUSH descriptor writes held input as a block and an empty stored block. -/
  | flush (desc : Nat)
  /-- STREAM_OPEN_WAIT_END (R288): An opening job waiting on the device-wide stream limit proceeds when a stream closes. -/
  | streamOpenWaitEnd
  /-- LANE_GRANT (R289): A job waiting for a free lane takes one in age order. -/
  | laneGrant
  /-- DEFLATE_JOB_COMPLETE (R297): A Deflate job writes its completion record and records its signal event. -/
  | deflateJobComplete (desc : Nat)
  /-- LANE_ECC_ERROR (R299): A lane memory error is corrected, or ends the job, tests the lane and may retire it. -/
  | laneEccError (lane : Nat) (double : Bool) (pass : Bool)
  /-- LAYER_UPDATE (R304): LAYER_UPDATE checks layer records and writes them into slot shadow state. -/
  | layerUpdate (desc : Nat)
  /-- COMMIT (R306): COMMIT arms an output for its next latch. -/
  | commit (desc : Nat)
  /-- LATCH (R307): At an output's latch with a commit armed, slots move and shadow states become active after a set check. -/
  | latch (output : Nat)
  /-- COMMIT_COMPLETE (R308): At the frame boundary after a latch, taken commits write their records and signal in arming order. -/
  | commitComplete (output : Nat)
  /-- BLOCK_UNDERFLOW (R313): A block whose data has not arrived when due is sent as background colour. -/
  | blockUnderflow (output : Nat) (block : Nat)
  /-- CR_SLOT_WRITE (R303): A write of CR_SLOTs assigns a layer slot to a context unless active or shadow-enabled. -/
  | crSlotWrite (slot : Nat) (val : Word)
  /-- CR_OUT_CFG_WRITE (R320): A write of CR_OUTo_CFG configures or enables an output under the port load and generator checks. -/
  | crOutCfgWrite (output : Nat) (val : Word)
  /-- STREAM_RECORD_WRITE (R318): A write to a stream record window is ignored while EN is 1 unless it clears EN. -/
  | streamRecordWrite (off : Nat) (val : Word)
  /-- MEDIA_PACKET_RECEIVE (R324): A received packet is filtered to its stream and placed by position into the ingest destination. -/
  | mediaPacketReceive (port : Nat) (pk : MediaPkt)
  /-- INGEST (R322): The INGEST descriptor is checked and takes the next frame of its receive stream. -/
  | ingest (desc : Nat)
  /-- INGEST_RELEASE (R324): Packets waiting for a release are written once REL_EVENT reaches the row's count. -/
  | ingestRelease (port : Nat)
  /-- INGEST_FRAME_END (R324): A frame ends at its marker, LAST packet or a later frame, zero-filling lost rows and completing the ingest. -/
  | ingestFrameEnd (port : Nat)
  /-- FRAME_DROP (R325): A buffer overflow, shortfall step 3 or link loss drops the frame and flags ROW_EVENT. -/
  | frameDrop (port : Nat)
  /-- PACKET_TRANSMIT (R319): An output sends the next evenly spaced ST 2110-20 packet of its frame. -/
  | packetTransmit (output : Nat)
  /-- PTP_MESSAGE (R326): A received PTP message advances the time block's state machine and disciplines calendar time. -/
  | ptpMessage (port : Nat) (domain : Nat) (kind : Nat) (accepted : Bool) (offset : Int) (utc : Nat)
  /-- ANNOUNCE_TIMEOUT (R326): Announce receipt timeout moves LOCKED time to HOLDOVER. -/
  | announceTimeout
  /-- HOLDOVER_EXPIRY (R326): After TM_CFG.HOLDOVER seconds in HOLDOVER, the time block returns to FREERUN. -/
  | holdoverExpiry
  /-- RTC_UPDATE (R326): Each second while LOCKED, firmware writes calendar time to the RTC. -/
  | rtcUpdate
  /-- FRAME_BOUNDARY (R327): A frame generator reaches boundary n and sets its event to n. -/
  | frameBoundary (gen : Nat)
  /-- GENERATOR_CTRL_WRITE (R327): A write of TM_GENk_CTRL enables a generator when its rate is legal and its output allows. -/
  | generatorCtrlWrite (gen : Nat) (val : Word)
  /-- HOT_RESET (R338): A hot reset ends outstanding host-link requests and clears host-link state. -/
  | hotReset
  /-- LINK_DOWN (R338): A link-down event ends every outstanding host-link request. -/
  | linkDown
  /-- FLR (R381): A function-level reset fences and destroys every context, ends host requests and restarts the Remontoire. -/
  | flr
  /-- D3HOT_ENTRY (R339): Entry to D3hot stops BAR decoding and moves the link to L1. -/
  | d3hotEntry
  /-- D0_RETURN (R339): Return to D0 resumes decoding with no state lost. -/
  | d0Return
  /-- LANE_FAIL (R339): A failed optical lane retrains the host link at x8. -/
  | laneFail (lane : Nat)
  /-- BAR4_ACCESS (R334): A BAR4 access reaches device memory through the slide and the system cache. -/
  | bar4Access (kind : Nat) (off : Nat) (len : Nat) (data : List Byte)
  /-- BAR4_SLIDE_WRITE (R334): A write of HL_BAR4_SLIDE moves the BAR4 window for later accesses. -/
  | bar4SlideWrite (val : Word)
  /-- HDM_DECODER_COMMIT (R335): An HDM decoder commit maps a host-physical range onto device memory if legal. -/
  | hdmDecoderCommit (dec : Nat) (base : Nat) (size : Nat)
  /-- CXL_MEM_ACCESS (R336): A host CXL.mem read is recorded in the snoop filter, back-invalidating the oldest line when full. -/
  | cxlMemAccess (hpa : Nat) (write : Bool) (modified : Bool) (data : List Byte)
  /-- BACK_INVALIDATION (R336): Before a write to a recorded line, a back-invalidation snoop is sent and its response awaited. -/
  | backInvalidation (line : Nat)
  /-- MSI_X_MESSAGE (R337): A rising vector level, or a source write leaving it at 1, sends an MSI-X message or sets its Pending Bit. -/
  | msiXMessage (vec : Nat)
  /-- VECTOR_UNMASK (R337): Unmasking a vector with its Pending Bit set sends the message. -/
  | vectorUnmask (vec : Nat)
  /-- FLIT_RECEIVE (R343): A received flit is checked, replayed on failure and forwarded or sunk. -/
  | flitReceive (port : Nat) (good : Bool) (pkt : Packet)
  /-- FABRIC_PORT_DOWN (R343): A port that cannot deliver a flit after 8 replays, or loses a wavelength, is declared down. -/
  | fabricPortDown (port : Nat) (wave : Bool)
  /-- PACKET_FORWARD (R347): A packet is forwarded by the bank of its epoch, or discarded at the hop limit. -/
  | packetForward (port : Nat)
  /-- CREDIT_RETURN (R344): Returned credits let a sender transmit packets waiting on a virtual channel. -/
  | creditReturn (port : Nat) (vc : Nat) (n : Nat)
  /-- ENUM (R349): A device receiving ENUM answers it, takes a number and floods ENUM on its other ports. -/
  | enum (port : Nat) (seq : Nat) (rejoin : Bool) (dev : Nat) (peerPort : Nat)
  /-- SWITCH (R351): A device receiving SWITCH places drain markers behind each flow and holds new packets. -/
  | switch
  /-- DRAIN_MARKER_ECHO (R351): An echoed drain marker releases the flow's held packets under the new epoch. -/
  | drainMarkerEcho (dst : Nat) (vc : Nat)
  /-- SWITCH_DONE_REPORT (R351): A member's done report reaches the manager, which completes the switch when all report. -/
  | switchDoneReport (dev : Nat)
  /-- REMOTE_REQUEST (R352): A request packet arriving for this device's memory is performed and answered. -/
  | remoteRequest
  /-- REMOTE_RESPONSE (R352): A response packet arriving completes the source's remote access. -/
  | remoteResponse
  /-- HEARTBEAT (R354): Every 100 µs an up port sends a heartbeat on the management channel. -/
  | heartbeat (port : Nat)
  /-- HEARTBEAT_TIMEOUT (R354): A port receiving nothing for 1 ms is declared down and its devices lost. -/
  | heartbeatTimeout (port : Nat)
  /-- LOSS_NOTICE (R354): A received loss notice marks the devices it names as lost. -/
  | lossNotice (port : Nat) (mask : Nat)
  /-- PROBE (R355): A received probe is answered if it is from the acting manager or the first after the loss. -/
  | probe (port : Nat) (cand : Nat)
  /-- QUORUM_VOTE (R355): 1 ms after its probe a candidate counts answers and acts as manager only above half of NL_CONFIGURED. -/
  | quorumVote
  /-- MC_GO (R353): A write of NL_MC_CTRL.GO sends a management command to a member device. -/
  | mcGo (val : Word)
  /-- MC_RESPONSE (R353): A management response arrives and is placed in NL_MC_RESP. -/
  | mcResponse (words : List Word)
  /-- NPWR_OK_ASSERT (R364): Assertion of nPWR_OK lets bring-up start. -/
  | npwrOkAssert
  /-- POWER_ON (R365): Release of nPWR_OK or a rail below its monitor threshold takes a power-on reset. -/
  | powerOn (rail : Nat) (mv : Nat)
  /-- PIN (R367): nRESET held low for 10 µs takes a pin reset. -/
  | pinReset
  /-- NRESET_RELEASE (R382): Release of nRESET lets bring-up start. -/
  | nresetRelease
  /-- NWAKE (R367): nWAKE low sets WAKE and returns the host link from L1 to L0. -/
  | nwake (level : Bool)
  /-- NVM_WP_CHANGE (R367): A change of NVM_WP allows or refuses writes to option bytes and images. -/
  | nvmWpChange (level : Bool)
  /-- POWER_MEASURE (R372): Every 10 µs the part measures rail power for the 1 ms average. -/
  | powerMeasure (core : Nat) (sram : Nat) (eighths : Nat)
  /-- PACING_STEP (R373): Every 100 µs the pacing fraction steps up or down against the cap. -/
  | pacingStep
  /-- THERMAL_EVALUATION (R375): Every 100 µs the thermal state is decided from the hottest die and stack sensors. -/
  | thermalEvaluation
  /-- THERMAL (R376): A trip takes a thermal-trip reset and holds every function in reset. -/
  | thermalTrip (sensor : Nat) (temp : Int)
  /-- TRIP_END (R376): When every sensor reads 90 °C or below, the part leaves TRIP and runs bring-up. -/
  | tripEnd
  /-- THERM_CFG_WRITE (R375): A write of GLOBAL_THERM_CFG sets WARN and HOT, ignored if out of range. -/
  | thermCfgWrite (val : Word)
  /-- REMONTOIRE (R405): The Remontoire resets the device when AUTO_RESET is set and the reload limit is exceeded. -/
  | remontoire
  /-- BRINGUP (R382): Bring-up runs option load, fuses, Remontoire, host link, memory, firmware and each function in order. -/
  | bringup
  /-- BRINGUP_STEP_COMPLETE (R382): A bring-up step finishes and sets its READY bits or records its function as failed. -/
  | bringupStepComplete (pass : Bool)
  /-- RS_FORGET (R386): A keyed write of RS_FORGET clears repair history of the named units. -/
  | rsForget (val : Word)
  /-- PROGRAM (R389): A keyed NVM PROGRAM writes a 256-byte page. -/
  | program
  /-- ERASE (R389): A keyed NVM ERASE clears a 64 KiB sector. -/
  | erase
  /-- NVM_WRITE_COMPLETE (R389): An NVM page or sector write completes and sets DONE. -/
  | nvmWriteComplete
  /-- CLEAR_COUNTS (R391): A keyed write of BK_CTRL.CLEAR_COUNTS zeroes the reset counters. -/
  | clearCounts (val : Word)
  /-- BK_RTC_SET (R393): A write of BK_RTC_SET_LO sets the RTC and steps calendar time while FREERUN. -/
  | bkRtcSet (val : Word)
  /-- RETAINED_BLOCK_WRITE (R390): Within 10 ms of a change firmware writes the older copy of the retained block with SEQ raised. -/
  | retainedBlockWrite
  /-- FUNCTION_FENCE (R397): A fence source fences a function, ending its work in flight at the points of Table ER-3. -/
  | functionFence (fn : Nat) (source : Nat)
  /-- FUNCTION_DRAIN_END (R396): When the last descriptor of a FENCING function completes, it becomes FENCED. -/
  | functionDrainEnd (fn : Nat)
  /-- CONTEXT_DRAIN_END (R187): When the last descriptor in flight of a FENCED context completes, it becomes HALTED. -/
  | contextDrainEnd (ctx : Nat)
  /-- DEVICE_CAUSE (R399): A fault that cannot be confined is raised as a device-wide cause. -/
  | deviceCause (cause : Nat)
  /-- MEMORY_ECC_ERROR (R400): An HBM3E word error is corrected, or on a double-bit error the line is poisoned. -/
  | memoryEccError (addr : Nat) (double : Bool)
  /-- LOCKSTEP_MISMATCH (R402): A comparator mismatch or disagreement starts recovery of the Regulator. -/
  | lockstepMismatch (a : Bool) (b : Bool)
  /-- CHECKER_SELF_TEST (R403): Every 50 ms the Remontoire injects a bit per comparator and checks its verdict. -/
  | checkerSelfTest (aOk : Bool) (bOk : Bool)
  /-- REGULATOR_STALL (R404): A Regulator that retires no instruction for 100 ms while RUNNING starts recovery. -/
  | regulatorStall
  /-- RECOVERY (R404): The Remontoire freezes the Regulator, fences affected contexts, reloads firmware and restarts it. -/
  | recovery
  /-- RELOAD_COMPLETE (R182): The reloaded Regulator becomes RUNNING and completes RUNNING mailboxes and jobs with REGULATOR_RESTART. -/
  | reloadComplete
  /-- RM_DISAGREE (R407): One sequencer disagreeing is outvoted and copied from the majority. -/
  | rmDisagree (seq : Nat)
  /-- RM_FAILED (R408): Failed Remontoire voting raises RM_FAILED and leaves only pin and host-link resets. -/
  | rmFailed
  /-- CHRONOGRAPH_RECORD (R413): A happening makes a record that enters the stores or is suppressed by its code's rate limit. -/
  | chronographRecord (code : Nat) (hasCtx : Bool) (ctx : Nat) (fn : Nat) (arg0 : Dword) (arg1 : Dword)
  /-- PERMANENT_PROGRAM (R414): Mirror records are programmed into NVM in index order and become durable. -/
  | permanentProgram
  /-- PERMANENT_ERASE_COMPLETE (R421): The erase of the permanent store completes and CHRONO_CLEAR responds. -/
  | permanentEraseComplete
  /-- CONFIGURATION_WRITE (R333): A host write to configuration space changes Bus Master Enable, Memory Space Enable, ATS, PASID or PRI Enable, and gates the part's requests, decoding and context creation. -/
  | configurationWrite (field : Nat) (val : Nat)
  /-- LINK_UP (R338): The host link finishes training and reaches L0, after which configuration space becomes ready and HL_LINK shows the link up. -/
  | linkUp (lanes : Nat) (width : Nat) (speed : Nat)
  /-- MEDIA_LINK_DOWN (R320): A media port's link goes down, clearing LINK_UP, so that transmit packets are discarded at the MAC while frames are still counted. -/
  | mediaLinkDown (port : Nat)
  /-- MEDIA_LINK_UP (R320): A media port's link comes up and RS-FEC aligns, setting LINK_UP and FEC_LOCK so packets flow again. -/
  | mediaLinkUp (port : Nat)
  /-- FABRIC_PORT_UP (R354): A Nauno fabric port trains, on all or fewer wavelengths, and comes up, after which heartbeats run on it. -/
  | fabricPortUp (port : Nat) (waves : Nat) (peer : Nat) (peerPort : Nat)
  /-- ENUM_ANSWER (R349): An answer to ENUM reaches the manager, which hands out the next device number in breadth-first order and counts the device toward job progress. -/
  | enumAnswer (port : Nat) (role : Nat) (keep : Nat) (path : List Nat) (links : List (Nat × Nat × Nat))
  /-- PROBE_ANSWER (R355): An answer to a candidate's probe arrives and is counted toward the quorum vote. -/
  | probeAnswer (dev : Nat) (cand : Nat)
  /-- DRAIN_MARKER (R351): A drain marker reaches the flow's destination behind its packets, and the destination echoes it to the source. -/
  | drainMarker (src : Nat) (vc : Nat)
  /-- BACK_INVALIDATION_RESPONSE (R336): The host's response to a back-invalidation snoop arrives, letting the held write or read of the recorded line proceed. -/
  | backInvalidationResponse (line : Nat)
  /-- FUNCTION_RESTORED (R396): The test of a function in RESTORING ends, after which the function either returns to UP with READY set or stays FENCED with its RS_FAILED bit set. -/
  | functionRestored (fn : Nat) (pass : Bool)
  deriving DecidableEq, Repr

end Sys2Proof
end

