-- ==== Sys2Proof/Decode.lean ====
section
/-! DEFINITION. Commands from words. The part is a block: spec/opcode_table.json gives its commands no bits, so no
word spells one. -/

namespace Sys2Proof

/-- The command that a word spells by the table's bits. No row of the table has bits: none. -/
def decodeTableWord (_nbits _w : Nat) : Option Instr := none

end Sys2Proof
end

