-- ==== Sys2Proof/Machine/Codes.lean ====
section
/-! DEFINITION. The numbers of the spec's code tables: status codes (Table ER-1), Chronograph codes (Table CH-4),
descriptor opcodes (Table RD-2), functions (GLOBAL_READY bits), fault causes (Table TU-2), command codes (Tables MB-5, MB-6). -/

namespace Sys2Proof.Machine

namespace St
def SUCCESS : Nat := 0x0000
def ACCEPTED : Nat := 0x0001
def BAD_COMMAND : Nat := 0x0100
def BAD_ARGUMENT : Nat := 0x0101
def ABSENT_UNIT : Nat := 0x0102
def JOBS_FULL : Nat := 0x0103
def OBJECT_BUSY : Nat := 0x0104
def REGULATOR_RESTART : Nat := 0x0105
def NOT_FOUND : Nat := 0x0106
def FUNCTION_FAILED : Nat := 0x0107
def NOT_READY : Nat := 0x0108
def CONTEXTS_FULL : Nat := 0x0109
def NO_PASID : Nat := 0x010A
def RINGS_FULL : Nat := 0x010B
def EVENTS_FULL : Nat := 0x010C
def RESV_FULL : Nat := 0x010D
def RESV_OVERCOMMIT : Nat := 0x010E
def NOT_MANAGER : Nat := 0x010F
def NO_QUORUM : Nat := 0x0110
def DOMAIN_SHORT : Nat := 0x0111
def BAD_IMAGE : Nat := 0x0112
def TOO_LARGE : Nat := 0x0113
def STORE_FULL : Nat := 0x0114
def NO_MODEL_ID : Nat := 0x0115
def QUOTA_OVERCOMMIT : Nat := 0x0116
def QUOTA_PINNED : Nat := 0x0117
def PINNED : Nat := 0x0118
def PLATE_OVERCOMMIT : Nat := 0x0119
def RM_UNAVAILABLE : Nat := 0x011A
def TARGET_LOST : Nat := 0x011B
def BAD_HEADER : Nat := 0x0200
def BAD_OPCODE : Nat := 0x0201
def WRONG_ENGINE : Nat := 0x0202
def BAD_RING : Nat := 0x0203
def BAD_EVENT : Nat := 0x0204
def DEPENDENCY_ERROR : Nat := 0x0205
def BAD_OPERAND : Nat := 0x0206
def IN_FAULT : Nat := 0x0207
def OUT_FAULT : Nat := 0x0208
def CTX_FENCED : Nat := 0x0300
def NO_ALLOCATOR : Nat := 0x0301
def HEAP_FULL : Nat := 0x0302
def BAD_FREE : Nat := 0x0303
def BAD_FORMAT : Nat := 0x0400
def BAD_PAIRING : Nat := 0x0401
def BAD_SHAPE : Nat := 0x0402
def BAD_BLOCKS : Nat := 0x0403
def BAD_MODEL : Nat := 0x0404
def BAD_OP_INDEX : Nat := 0x0405
def BAD_CONVERT : Nat := 0x0406
def BAD_ACT_TABLE : Nat := 0x0407
def BAD_CLIP : Nat := 0x0408
def MODEL_GONE : Nat := 0x0409
def LOAD_FAILED : Nat := 0x040A
def QUOTA_EXCEEDED : Nat := 0x040B
def GW_CELL_FAULT : Nat := 0x040C
def BARREL_ECC : Nat := 0x040D
def BAD_IMAGE_TABLE : Nat := 0x0500
def PLATE_RANGE : Nat := 0x0501
def PLATE_FOREIGN : Nat := 0x0502
def PLATE_ECC : Nat := 0x0503
def PLATE_UNBACKED : Nat := 0x0504
def BAD_RENDER_PASS : Nat := 0x0505
def BAD_BIN_PASS : Nat := 0x0506
def BAD_DRAW : Nat := 0x0507
def HEAP_TOO_SMALL : Nat := 0x0508
def SPILL_MISSING : Nat := 0x0509
def BAD_ATTACHMENT : Nat := 0x050A
def BAD_PROGRAM : Nat := 0x0600
def BAD_DISPATCH : Nat := 0x0601
def ILLEGAL_OP : Nat := 0x0602
def STACK_ERROR : Nat := 0x0603
def MISALIGNED : Nat := 0x0604
def LOCAL_RANGE : Nat := 0x0605
def PINION_FAULT : Nat := 0x0606
def CACHE_ECC : Nat := 0x0700
def MEMORY_ECC : Nat := 0x0701
def STREAMS_FULL : Nat := 0x0800
def NO_STREAM : Nat := 0x0801
def STREAM_OPEN : Nat := 0x0802
def BAD_LIST : Nat := 0x0803
def OUT_FULL : Nat := 0x0804
def BAD_FRAMING : Nat := 0x0805
def ILLEGAL_CODE : Nat := 0x0806
def LENGTH_OVERRUN : Nat := 0x0807
def DISTANCE_TOO_FAR : Nat := 0x0808
def STORED_LENGTH : Nat := 0x0809
def CHECK_MISMATCH : Nat := 0x080A
def TRUNCATED : Nat := 0x080B
def LANE_ECC : Nat := 0x080C
def NOT_OWNER : Nat := 0x0900
def BAD_LAYER : Nat := 0x0901
def OUTPUT_OFF : Nat := 0x0902
def BAD_LAYER_SET : Nat := 0x0903
def STREAM_OFF : Nat := 0x0904
def INGEST_LOSS : Nat := 0x0905
def INGEST_DROPPED : Nat := 0x0906
/-- Fence status of function `n` (class 0x0F). -/
def FN_FENCED (n : Nat) : Nat := 0x0F00 + n
end St

namespace Chr
def SUPPRESSED : Nat := 0x01
def CLEARED : Nat := 0x02
def BRINGUP : Nat := 0x03
def FW_FALLBACK : Nat := 0x04
def FN_FENCE : Nat := 0x10
def FN_RESTORED : Nat := 0x11
def CTX_FENCE : Nat := 0x12
def DEVICE_CAUSE : Nat := 0x13
def RECOVERY : Nat := 0x14
def RM_DISAGREE : Nat := 0x15
def CHECKER : Nat := 0x16
def HANG : Nat := 0x18
def WAIT_STUCK : Nat := 0x19
def EVENT_CYCLE : Nat := 0x1A
def GW_GROUP_RETIRED : Nat := 0x20
def GW_DEGRADED : Nat := 0x21
def BA_FRAME_RETIRED : Nat := 0x22
def PL_GRANULE_RETIRED : Nat := 0x23
def PN_RETIRED : Nat := 0x24
def CA_WAY_RETIRED : Nat := 0x25
def DF_LANE_RETIRED : Nat := 0x26
def CA_TAG_DIRTY_LOST : Nat := 0x27
def MEM_POISON : Nat := 0x28
def ACCT_SETBACK : Nat := 0x30
def ACCT_SKIP : Nat := 0x31
def RESV_OVER_DERATED : Nat := 0x32
def CR_UNDERFLOW : Nat := 0x38
def HL_LANE_FAIL : Nat := 0x40
def HL_LINK_DOWN : Nat := 0x41
def NL_WAVES : Nat := 0x42
def NL_DEVICE_LOST : Nat := 0x43
def NL_QUORUM_LOST : Nat := 0x44
def TIME_STEP : Nat := 0x45
def TM_STATE : Nat := 0x46
def THERMAL_TRIP : Nat := 0x48
def CAP_UNMET : Nat := 0x49
def BW_STEP (k : Nat) : Nat := 0x32 + k
end Chr

namespace Op
def NOP : Nat := 0x01
def EVENT_WAIT : Nat := 0x02
def EVENT_RECORD : Nat := 0x03
def WHEEL_OP : Nat := 0x10
def MODEL_LOAD : Nat := 0x11
def BIN_PASS : Nat := 0x20
def RENDER_PASS : Nat := 0x28
def DISPATCH : Nat := 0x30
def ALLOC : Nat := 0x31
def FREE : Nat := 0x32
def COMPRESS : Nat := 0x40
def DECOMPRESS : Nat := 0x41
def FLUSH : Nat := 0x42
def LAYER_UPDATE : Nat := 0x50
def COMMIT : Nat := 0x51
def INGEST : Nat := 0x60
end Op

namespace Fun
def REMONTOIRE : Nat := 0
def REGULATOR : Nat := 1
def HOST_LINK : Nat := 2
def MEMORY : Nat := 3
def SYSTEM_CACHE : Nat := 4
def TRANSLATION : Nat := 5
def ESCAPEMENTS : Nat := 6
def EVENTS : Nat := 7
def BARREL : Nat := 8
def PLATE : Nat := 9
def GREAT_WHEEL : Nat := 10
def BINNER : Nat := 11
def TILE_ENGINES : Nat := 12
def PINIONS : Nat := 13
def DEFLATE : Nat := 14
def CRYSTAL : Nat := 15
def MEDIA : Nat := 16
def FABRIC : Nat := 17
def CHRONOGRAPH : Nat := 18
end Fun

namespace Cause
def PERMISSION : Nat := 1
def PRI_INVALID : Nat := 2
def PRI_FAILURE : Nat := 3
def PRI_STOPPED : Nat := 4
def ATS_ERROR : Nat := 5
def RANGE : Nat := 6
def ATS_DISABLED : Nat := 7
def ROUTE_ABSENT : Nat := 8
def ROUTE_LOST : Nat := 9
def ROUTE_HOLE : Nat := 10
def LINK_ENDED : Nat := 11
end Cause

namespace Cmd
def STATUS : Nat := 0x00F0
def FENCE_CONTEXT : Nat := 0x00F1
def FENCE_ALL : Nat := 0x00F2
def READ_COUNTERS : Nat := 0x00F3
def CHRONO_READ : Nat := 0x00F4
def RESET_FUNCTION : Nat := 0x00F5
def RESET_DEVICE : Nat := 0x00F6
def GET_INFO : Nat := 0x0001
def CTX_CREATE : Nat := 0x0010
def CTX_DESTROY : Nat := 0x0011
def CTX_QUERY : Nat := 0x0012
def PLATE_PARTITION : Nat := 0x0013
def CTX_UNFENCE : Nat := 0x0014
def CTX_WEIGHT : Nat := 0x0015
def EVENT_ALLOC : Nat := 0x0016
def EVENT_FREE : Nat := 0x0017
def HANG_POLICY : Nat := 0x0018
def RING_CREATE : Nat := 0x0020
def RING_DESTROY : Nat := 0x0021
def RING_QUERY : Nat := 0x0022
def MODEL_REGISTER : Nat := 0x0030
def MODEL_STATUS : Nat := 0x0036
def BARREL_QUOTA : Nat := 0x0037
def RESV_SET : Nat := 0x0040
def RESV_RELEASE : Nat := 0x0041
def RESV_QUERY : Nat := 0x0042
def ACCT_BIND : Nat := 0x0050
def ACCT_READ : Nat := 0x0051
def ACCT_PERIOD : Nat := 0x0052
def FAB_ENUMERATE : Nat := 0x0060
def FAB_ROUTE_WRITE : Nat := 0x0061
def FAB_EPOCH_SWITCH : Nat := 0x0062
def FAB_STATUS : Nat := 0x0063
def FAB_REJOIN : Nat := 0x0064
def CHRONO_EXPORT : Nat := 0x0070
def CHRONO_CLEAR : Nat := 0x0071
def CHRONO_INFO : Nat := 0x0072
def CHRONO_LIMIT : Nat := 0x0073
def SCRUB : Nat := 0x00F8
def SELF_TEST : Nat := 0x00F9
def SUCCESS : Nat := 0x0000
def ACCEPTED : Nat := 0x0001
def MODEL_LOAD : Nat := 0x0031
def MODEL_PIN : Nat := 0x0032
def MODEL_UNPIN : Nat := 0x0033
def MODEL_EVICT : Nat := 0x0034
def MODEL_UNLOAD : Nat := 0x0035
end Cmd

end Sys2Proof.Machine
end

