-- ==== Sys2Proof/Config.lean ====
section
/-! DEFINITION. What the fuses of a part fix (Tables SC-1, GW-1, BA-1, PL-1, PN-1, CA-1, NL-1, RD-1)
and the free values: constants with no body, for every value the spec leaves open. -/

namespace Sys2Proof

/-- The three parts of Table SC-1. -/
inductive Variant where
  | dya7296 | dya7248 | dya7212
  deriving DecidableEq, Repr

namespace Config

/-- GLOBAL_VARIANT.PART. -/
def part : Variant → Nat
  | .dya7296 => 0x7296 | .dya7248 => 0x7248 | .dya7212 => 0x7212
/-- A column of Table SC-1 as a triple. -/
def per (a b c : Nat) : Variant → Nat
  | .dya7296 => a | .dya7248 => b | .dya7212 => c
/-- Groups enabled by fuse, Table GW-1. -/
def gwEnabled : Variant → Nat := per 19 9 4
/-- Active groups, Table GW-1. -/
def gwActive : Variant → Nat := per 16 8 4
/-- Physical groups on the die, Table GW-1. -/
def gwPhys : Nat := 19
/-- Rows of the array. -/
def gwRows : Nat := 512
/-- Tile engines, and Pinion trains. -/
def trains : Variant → Nat := per 12 6 3
/-- Active Pinions. -/
def pnActive : Variant → Nat := per 96 48 24
/-- Hot spare Pinions. -/
def pnSpares : Variant → Nat := per 8 3 1
/-- HBM3E stacks. -/
def hbmStacks : Variant → Nat := per 4 2 2
/-- Device memory in bytes. -/
def memBytes : Variant → Nat := per (96 * 2 ^ 30) (48 * 2 ^ 30) (32 * 2 ^ 30)
/-- Barrel frames of 128 KiB, Table BA-1. -/
def frames : Variant → Nat := per 1024 512 256
/-- Barrel banks. -/
def baBanks : Variant → Nat := per 64 32 16
/-- Plate granules of 16 slots, Table PL-1. -/
def granules : Variant → Nat := per 192 96 96
/-- Plate bank groups. -/
def plGroups : Variant → Nat := per 16 8 8
/-- System cache sets per slice, Table CA-1. -/
def caSets : Variant → Nat := per 1024 512 512
/-- Fabric ports, Table NL-1. -/
def nlPorts : Variant → Nat := per 8 4 2
/-- Crystal outputs. -/
def crOutputs : Variant → Nat := per 4 2 2
/-- Media ports. -/
def mpPorts : Nat := 4
/-- The Deflate engine is present. -/
def dfPresent : Variant → Bool
  | .dya7248 => false | _ => true
/-- Escapements, Table MV-2. -/
def escapements : Variant → Nat := per 21 14 12
/-- Peak memory bandwidth in MB/s, Table SA-3. -/
def peakMBs : Variant → Nat := per 4900000 2450000 2450000
/-- Package total of Table PK-7, watts. -/
def totalWatts : Variant → Nat := per 210 130 85

/-- Engine `n` of Table RD-1 exists on the variant; `none` where the table does not list it. -/
def engineOf (v : Variant) (n : Nat) : Option Bool :=
  if n = 3 then some (dfPresent v)
  else if n ≤ 8 then some true
  else if 16 ≤ n ∧ n ≤ 27 then some (decide (n - 16 < trains v))
  else none

/-! ### Free values: nothing constrains them (assumption log 3). -/

/-- A fresh value of `w` bits, for an output, a flag or a byte the spec calls undefined. The argument
is the counter `State.free`, which the step that draws a value advances. -/
opaque freeBits (w : Nat) (n : Nat) : BitVec w
/-- The approximate FP32 instructions of R35: result by instruction number and operand bits. -/
opaque approx (op : Nat) (x : BitVec 32) : BitVec 32
/-- What a register (32 × register + lane) or predicate (8,192 + number) of a beat holds before the beat first
writes it, by the draw made when the beat was formed. -/
opaque regInit (seed i : Nat) : BitVec 32
/-- A value that the spec leaves unstated for some operands, by the place in the spec and the operands. -/
opaque openVal (place : Nat) (args : List Nat) : Nat
/-- The SRGB transfer function of Table TR-9's SRGB formats: an encoded byte to a linear FP32 word. -/
opaque srgbDecode (x : BitVec 8) : BitVec 32
/-- Its inverse, rounded to a byte. -/
opaque srgbEncode (x : BitVec 32) : BitVec 8
/-- R257: the TLB set chosen from PASID and the VA bits above the range size. -/
opaque tlbSet (pasid va : Nat) : Nat
/-- R292: the Deflate blocks the engine chooses for held input (level, window, input). -/
opaque deflateBlocks (level : Nat) (window input : List (BitVec 8)) (final : Bool) : List Bool
/-- Firmware's version word (RG_FW_VERSION), by image length and CRC. -/
opaque fwVersion (len crc : Nat) : BitVec 32

end Config
end Sys2Proof
end

