-- ==== Sys2Proof/Machine/RegMap.lean ====
section
/-! DEFINITION. The register map of BAR0: one row per register of the spec's register maps (R5, R7, Table SC-5),
with its offset, its repetition, the bits of each access type and its reset value. -/

namespace Sys2Proof.Machine

/-- One register or one repeated register. `rw` to `wo` are the masks of its bits of that access type; every other bit is RO. -/
structure RegRow where
  base : Nat
  s1 : Nat := 0
  n1 : Nat := 1
  s2 : Nat := 0
  n2 : Nat := 1
  rw : Nat := 0
  w1c : Nat := 0
  w1s : Nat := 0
  rc : Nat := 0
  wo : Nat := 0
  reset : Nat := 0
  latch : Bool := false
  deriving DecidableEq, Repr

namespace Reg

/-! BAR0 offsets by register name. -/

def GLOBAL_ID : Nat := 0x00000000
def GLOBAL_VARIANT : Nat := 0x00000004
def GLOBAL_UNITS : Nat := 0x00000008
def GLOBAL_STATUS : Nat := 0x0000000C
def GLOBAL_FAULT_OFFSET : Nat := 0x00000014
def GLOBAL_FAULT_COUNT : Nat := 0x00000018
def GW_CAPS : Nat := 0x00600000
def GW_CONFIG : Nat := 0x00600004
def GW_SPARE_USE : Nat := 0x00600008
def GW_STATUS : Nat := 0x00600010
def GW_ERR : Nat := 0x00600014
def GW_GROUP_MAP0 : Nat := 0x00600020
def GW_GROUP_MAP1 : Nat := 0x00600024
def GW_GROUP_MAP2 : Nat := 0x00600028
def GW_TICKS_LO : Nat := 0x00600030
def GW_TICKS_HI : Nat := 0x00600034
def GW_STALL_FEED : Nat := 0x00600038
def GW_STALL_OUT : Nat := 0x0060003C
def GW_STALL_LOAD : Nat := 0x00600040
def GW_RATE : Nat := 0x00600044
def GW_REPAIR_CTRL : Nat := 0x00600048
def GW_GROUP_HEALTH : Nat := 0x0060004C
def GW_TOT_CORRECTED : Nat := 0x00600050
def GW_CURRENT : Nat := 0x00600054
def BA_CAPS : Nat := 0x00700000
def BA_HEALTHY : Nat := 0x00700004
def BA_STATUS : Nat := 0x00700008
def BA_FILL_CUR : Nat := 0x0070000C
def BA_FILL_POS : Nat := 0x00700010
def BA_FILL_QUEUE : Nat := 0x00700014
def BA_FILL_TICKS_LO : Nat := 0x00700018
def BA_FILL_TICKS_HI : Nat := 0x0070001C
def BA_ECC_CORRECTED : Nat := 0x00700020
def BA_ERR : Nat := 0x00700024
def BA_FILL_STALL : Nat := 0x00700028
def BA_CTX_SEL : Nat := 0x00700030
def BA_CTX_QUOTA : Nat := 0x00700034
def BA_CTX_PINNED : Nat := 0x00700038
def BA_CTX_EVICT : Nat := 0x0070003C
def PL_CAPS : Nat := 0x00800000
def PL_HEALTHY : Nat := 0x00800004
def PL_FREE : Nat := 0x00800008
def PL_STATUS : Nat := 0x0080000C
def PL_ERR : Nat := 0x00800010
def PL_ECC_CORRECTED : Nat := 0x00800014
def PL_VIOL_COUNT : Nat := 0x00800018
def PL_VIOL_INFO : Nat := 0x0080001C
def PL_PORT_WAIT : Nat := 0x00800020
def PL_CTX_SEL : Nat := 0x00800030
def PL_CTX_PART : Nat := 0x00800034
def PL_CTX_CLAIMS : Nat := 0x00800038
def BN_CAPS : Nat := 0x00900000
def BN_STATUS : Nat := 0x00900004
def BN_TICKS_LO : Nat := 0x00900008
def BN_TICKS_HI : Nat := 0x0090000C
def BN_SEGMENTS : Nat := 0x00900010
def BN_ERR : Nat := 0x00900014
def TE_STATUS (i : Nat) : Nat := 0x00901000 + 0x100 * i
def TE_TICKS_LO (i : Nat) : Nat := 0x00901004 + 0x100 * i
def TE_TICKS_HI (i : Nat) : Nat := 0x00901008 + 0x100 * i
def TE_HSR_CULLED (i : Nat) : Nat := 0x0090100C + 0x100 * i
def TE_SPILLS (i : Nat) : Nat := 0x00901010 + 0x100 * i
def PN_CAPS : Nat := 0x00A00000
def PN_CONFIG : Nat := 0x00A00004
def PN_STATUS : Nat := 0x00A00008
def PN_ACTIVE : Nat := 0x00A0000C
def PN_TICKS_LO : Nat := 0x00A00010
def PN_TICKS_HI : Nat := 0x00A00014
def PN_STEALS : Nat := 0x00A00018
def PN_ERR : Nat := 0x00A0001C
def PN_ECC_CORRECTED : Nat := 0x00A00020
def PN_HEALTH0 : Nat := 0x00A00024
def PN_HEALTH1 : Nat := 0x00A00028
def PN_HEALTH2 : Nat := 0x00A0002C
def PN_HEALTH3 : Nat := 0x00A00030
def PN_TRAIN_STATUS (i : Nat) : Nat := 0x00A00100 + 0x10 * i
def PN_TRAIN_TICKS_LO (i : Nat) : Nat := 0x00A00104 + 0x10 * i
def PN_TRAIN_TICKS_HI (i : Nat) : Nat := 0x00A00108 + 0x10 * i
def RG_CAPS : Nat := 0x00100000
def RG_STATUS : Nat := 0x00100004
def RG_FW_VERSION : Nat := 0x00100008
def RG_IRQ_MB : Nat := 0x0010000C
def RG_IRQ_JOBS : Nat := 0x00100010
def RG_IRQ_MB_EN : Nat := 0x00100014
def RG_IRQ_JOBS_EN : Nat := 0x00100018
def RG_RESTARTS : Nat := 0x0010001C
def RG_MB_REQ (i j : Nat) : Nat := 0x00101000 + 0x100 * i + 0x4 * j
def RG_MB_RESP (i j : Nat) : Nat := 0x00101040 + 0x100 * i + 0x4 * j
def RG_MB_CTRL (i : Nat) : Nat := 0x00101080 + 0x100 * i
def RG_MB_STATE (i : Nat) : Nat := 0x00101084 + 0x100 * i
def RG_MB_SEQ (i : Nat) : Nat := 0x00101088 + 0x100 * i
def RG_JOB_STATE (i : Nat) : Nat := 0x00102000 + 0x20 * i
def RG_JOB_STATUS (i : Nat) : Nat := 0x00102004 + 0x20 * i
def RG_JOB_PCT (i : Nat) : Nat := 0x00102008 + 0x20 * i
def RG_JOB_DONE (i : Nat) : Nat := 0x0010200C + 0x20 * i
def RG_JOB_TOTAL (i : Nat) : Nat := 0x00102010 + 0x20 * i
def RG_JOB_RESULT (i : Nat) : Nat := 0x00102014 + 0x20 * i
def RG_JOB_CTRL (i : Nat) : Nat := 0x00102018 + 0x20 * i
def ESC_CAPS : Nat := 0x00400000
def ESC_LIMITS : Nat := 0x00400004
def ESC_CONFIG : Nat := 0x00400008
def ESC_STATUS : Nat := 0x0040000C
def ESC_ERR : Nat := 0x00400010
def ESC_ERR_RING : Nat := 0x00400014
def ESC_IRQ_RING (i : Nat) : Nat := 0x00400100 + 0x4 * i
def ESC_IRQ_EN (i : Nat) : Nat := 0x00400180 + 0x4 * i
def ESC_ENG_STATUS (i : Nat) : Nat := 0x00400400 + 0x10 * i
def ESC_ENG_DONE_LO (i : Nat) : Nat := 0x00400404 + 0x10 * i
def ESC_ENG_DONE_HI (i : Nat) : Nat := 0x00400408 + 0x10 * i
def ESC_RING_CFG (i : Nat) : Nat := 0x00401000 + 0x10 * i
def ESC_RING_HEAD (i : Nat) : Nat := 0x00401004 + 0x10 * i
def ESC_RING_TAIL (i : Nat) : Nat := 0x00401008 + 0x10 * i
def ESC_RING_PUB (i : Nat) : Nat := 0x0040100C + 0x10 * i
def EV_CAPS : Nat := 0x00500000
def EV_SEL : Nat := 0x00500004
def EV_CFG : Nat := 0x00500008
def EV_LINK : Nat := 0x0050000C
def EV_VALUE_LO : Nat := 0x00500010
def EV_VALUE_HI : Nat := 0x00500014
def EV_RECORD_LO : Nat := 0x00500018
def EV_RECORD_HI : Nat := 0x0050001C
def EV_ADVANCE : Nat := 0x00500020
def EV_LOWER : Nat := 0x00500024
def EV_SATURATED : Nat := 0x00500028
def EV_REMOTE_DROP : Nat := 0x0050002C
def EV_ERR : Nat := 0x00500030
def EV_IRQ : Nat := 0x00500034
def EV_IRQ_EN : Nat := 0x00500038
def EV_CTX_SEL : Nat := 0x00500040
def EV_CTX_STATE : Nat := 0x00500044
def EV_CTX_ENGINES : Nat := 0x00500048
def EV_CTX_QUIET : Nat := 0x0050004C
def TU_CAPS : Nat := 0x00B00000
def TU_CTRL : Nat := 0x00B00004
def TU_STATUS : Nat := 0x00B00008
def TU_APERTURE : Nat := 0x00B0000C
def TU_TLB_HITS : Nat := 0x00B00010
def TU_TLB_MISSES : Nat := 0x00B00014
def TU_INVALIDATIONS : Nat := 0x00B00018
def TU_ERR : Nat := 0x00B0001C
def TU_IRQ : Nat := 0x00B00020
def TU_IRQ_EN : Nat := 0x00B00024
def TU_FAULT_CTX (i : Nat) : Nat := 0x00B00030 + 0x4 * i
def TU_STREAM_SEL : Nat := 0x00B00040
def TU_STREAM_STATUS : Nat := 0x00B00044
def TU_CTX_SEL : Nat := 0x00B00050
def TU_FRING_CFG : Nat := 0x00B00054
def TU_FRING_OFFSET : Nat := 0x00B00058
def TU_FRING_HEAD : Nat := 0x00B0005C
def TU_FRING_TAIL : Nat := 0x00B00060
def TU_FRING_STATUS : Nat := 0x00B00064
def TU_FRING_OVF : Nat := 0x00B00068
def CA_CAPS : Nat := 0x00C00000
def CA_CLASS_EN : Nat := 0x00C00004
def CA_WAYS : Nat := 0x00C00008
def CA_STATUS : Nat := 0x00C0000C
def CA_ERR : Nat := 0x00C00010
def CA_ECC_CORRECTED : Nat := 0x00C00014
def CA_ECC_REFETCH : Nat := 0x00C00018
def CA_TAG_PARITY : Nat := 0x00C0001C
def CA_HITS : Nat := 0x00C00020
def CA_MISSES : Nat := 0x00C00024
def CA_VICTIM_HITS : Nat := 0x00C00028
def CA_SNOOPS : Nat := 0x00C0002C
def CA_MAINT_CTRL : Nat := 0x00C00040
def CA_MAINT_ADDR_LO : Nat := 0x00C00044
def CA_MAINT_ADDR_HI : Nat := 0x00C00048
def CA_MAINT_SIZE_LO : Nat := 0x00C0004C
def CA_MAINT_SIZE_HI : Nat := 0x00C00050
def CA_MAINT_CTX : Nat := 0x00C00054
def CA_MAINT_EVENT : Nat := 0x00C00058
def CA_MAINT_STATUS : Nat := 0x00C0005C
def CA_WAY_HEALTH (i : Nat) : Nat := 0x00C00100 + 0x4 * i
def DF_CAPS : Nat := 0x00D00000
def DF_CONFIG : Nat := 0x00D00004
def DF_STATUS : Nat := 0x00D00008
def DF_TICKS_LO : Nat := 0x00D0000C
def DF_TICKS_HI : Nat := 0x00D00010
def DF_ERR : Nat := 0x00D00014
def DF_ECC_CORRECTED : Nat := 0x00D00018
def DF_BAD_INPUT : Nat := 0x00D0001C
def DF_LANE_STATUS (i : Nat) : Nat := 0x00D00100 + 0x4 * i
def CR_CAPS : Nat := 0x00E00000
def CR_ERR : Nat := 0x00E00004
def CR_TICKS_LO : Nat := 0x00E00008
def CR_TICKS_HI : Nat := 0x00E0000C
def CR_OUT_CFG (i : Nat) : Nat := 0x00E00100 + 0x40 * i
def CR_OUT_SIZE (i : Nat) : Nat := 0x00E00104 + 0x40 * i
def CR_OUT_BG0 (i : Nat) : Nat := 0x00E00108 + 0x40 * i
def CR_OUT_BG1 (i : Nat) : Nat := 0x00E0010C + 0x40 * i
def CR_OUT_STATUS (i : Nat) : Nat := 0x00E00110 + 0x40 * i
def CR_OUT_FRAME_LO (i : Nat) : Nat := 0x00E00114 + 0x40 * i
def CR_OUT_FRAME_HI (i : Nat) : Nat := 0x00E00118 + 0x40 * i
def CR_OUT_UNDERFLOW (i : Nat) : Nat := 0x00E0011C + 0x40 * i
def CR_OUT_MISSED (i : Nat) : Nat := 0x00E00120 + 0x40 * i
def CR_OUT_CULLED (i : Nat) : Nat := 0x00E00124 + 0x40 * i
def CR_SLOT (i : Nat) : Nat := 0x00E00400 + 0x4 * i
def MP_CAPS : Nat := 0x00F00000
def MP_ERR : Nat := 0x00F00004
def MP_P_CFG (i : Nat) : Nat := 0x00F00100 + 0x40 * i
def MP_P_STATUS (i : Nat) : Nat := 0x00F00104 + 0x40 * i
def MP_P_MAC_LO (i : Nat) : Nat := 0x00F00108 + 0x40 * i
def MP_P_MAC_HI (i : Nat) : Nat := 0x00F0010C + 0x40 * i
def MP_P_IP (i : Nat) : Nat := 0x00F00110 + 0x40 * i
def MP_P_TICKS_LO (i : Nat) : Nat := 0x00F00114 + 0x40 * i
def MP_P_TICKS_HI (i : Nat) : Nat := 0x00F00118 + 0x40 * i
def MP_P_DROPPED (i : Nat) : Nat := 0x00F0011C + 0x40 * i
def MP_P_LOST_ROWS (i : Nat) : Nat := 0x00F00120 + 0x40 * i
def MP_P_DISCARDED (i : Nat) : Nat := 0x00F00124 + 0x40 * i
def MP_P_FCS (i : Nat) : Nat := 0x00F00128 + 0x40 * i
def TM_CFG : Nat := 0x00F08000
def TM_STATUS : Nat := 0x00F08004
def TM_TIME_LO : Nat := 0x00F08008
def TM_TIME_HI : Nat := 0x00F0800C
def TM_OFFSET : Nat := 0x00F08010
def TM_UTC : Nat := 0x00F08014
def TM_GEN_NUM (i : Nat) : Nat := 0x00F08100 + 0x10 * i
def TM_GEN_DEN (i : Nat) : Nat := 0x00F08104 + 0x10 * i
def TM_GEN_PHASE (i : Nat) : Nat := 0x00F08108 + 0x10 * i
def TM_GEN_CTRL (i : Nat) : Nat := 0x00F0810C + 0x10 * i
def HL_LINK : Nat := 0x01100000
def HL_BAR4_SLIDE : Nat := 0x01100004
def HL_ERR : Nat := 0x01100008
def HL_IRQ_EN : Nat := 0x0110000C
def HL_SF_USED : Nat := 0x01100010
def HL_HDM_DPA (i : Nat) : Nat := 0x01100040 + 0x4 * i
def NL_CAPS : Nat := 0x01000000
def NL_ROLE : Nat := 0x01000004
def NL_STATUS : Nat := 0x01000008
def NL_EPOCH : Nat := 0x0100000C
def NL_CONFIGURED : Nat := 0x01000010
def NL_MEMBERS_LO : Nat := 0x01000014
def NL_MEMBERS_HI : Nat := 0x01000018
def NL_LOST_LO : Nat := 0x0100001C
def NL_LOST_HI : Nat := 0x01000020
def NL_ERR : Nat := 0x01000024
def NL_IRQ_EN : Nat := 0x01000028
def NL_HOP_DROP : Nat := 0x0100002C
def NL_TICKS_LO : Nat := 0x01000030
def NL_TICKS_HI : Nat := 0x01000034
def NL_ROUTE_SEL : Nat := 0x01000040
def NL_ROUTE : Nat := 0x01000044
def NL_P_STATUS (i : Nat) : Nat := 0x01000100 + 0x10 * i
def NL_P_REPLAYS (i : Nat) : Nat := 0x01000104 + 0x10 * i
def NL_MC_REQ (i : Nat) : Nat := 0x01001000 + 0x4 * i
def NL_MC_RESP (i : Nat) : Nat := 0x01001040 + 0x4 * i
def NL_MC_CTRL : Nat := 0x01001080
def NL_MC_STATE : Nat := 0x01001084
def GLOBAL_PINS : Nat := 0x00000100
def GLOBAL_PWR_CAP : Nat := 0x00000104
def GLOBAL_PWR_NOW : Nat := 0x00000108
def GLOBAL_PWR_STATUS : Nat := 0x0000010C
def GLOBAL_PWR_PACED_LO : Nat := 0x00000110
def GLOBAL_PWR_PACED_HI : Nat := 0x00000114
def GLOBAL_VCORE : Nat := 0x00000118
def GLOBAL_TEMP : Nat := 0x00000120
def GLOBAL_THERM_CFG : Nat := 0x00000124
def GLOBAL_THERM_STATUS : Nat := 0x00000128
def GLOBAL_PK_EVENTS : Nat := 0x0000012C
def GLOBAL_PK_IRQ_EN : Nat := 0x00000130
def GLOBAL_READY : Nat := 0x00000010
def RS_CAUSE : Nat := 0x00200000
def RS_STATUS : Nat := 0x00200004
def RS_FAILED : Nat := 0x00200008
def RS_BRINGUP_US : Nat := 0x0020000C
def RS_FORGET : Nat := 0x00200010
def RS_OPT (i : Nat) : Nat := 0x00200100 + 0x4 * i
def RS_NVM_ADDR : Nat := 0x00200200
def RS_NVM_CTRL : Nat := 0x00200204
def RS_NVM_STATUS : Nat := 0x00200208
def RS_NVM_DATA (i : Nat) : Nat := 0x00200300 + 0x4 * i
def BK_TOTAL : Nat := 0x00200800
def BK_CNT (i : Nat) : Nat := 0x00200804 + 0x4 * i
def BK_RTC_SEC_LO : Nat := 0x00200820
def BK_RTC_SEC_HI : Nat := 0x00200824
def BK_RTC_FRAC : Nat := 0x00200828
def BK_RTC_SET_LO : Nat := 0x0020082C
def BK_RTC_SET_HI : Nat := 0x00200830
def BK_STATUS : Nat := 0x00200834
def BK_SEQ : Nat := 0x00200838
def BK_TRIP : Nat := 0x0020083C
def BK_CTRL : Nat := 0x00200840
def ER_FN_FENCED : Nat := 0x01200000
def ER_TRAIN_FENCED : Nat := 0x01200004
def ER_DEVICE : Nat := 0x01200008
def ER_IRQ : Nat := 0x0120000C
def ER_IRQ_EN : Nat := 0x01200010
def ER_CTX_FENCED (i : Nat) : Nat := 0x01200020 + 0x4 * i
def ER_MEM_CORRECTED : Nat := 0x01200040
def ER_MEM_UNCORRECTED : Nat := 0x01200044
def ER_FN_STATE (i : Nat) : Nat := 0x01200100 + 0x4 * i
def RM_STATUS : Nat := 0x01300000
def RM_CFG : Nat := 0x01300004
def RM_RECOVERIES : Nat := 0x01300008
def RM_DISAGREE : Nat := 0x0130000C
def RM_LAST : Nat := 0x01300010
def CH_CAPS : Nat := 0x00300000
def CH_STATUS : Nat := 0x00300004
def CH_PERM_COUNT : Nat := 0x00300008
def CH_PERM_DURABLE : Nat := 0x0030000C
def CH_CIRC_COUNT : Nat := 0x00300010
def CH_CIRC_OLDEST : Nat := 0x00300014
def CH_CIRC_NEXT : Nat := 0x00300018
def CH_SUPPRESSED : Nat := 0x0030001C
def CH_IRQ : Nat := 0x00300020
def CH_IRQ_EN : Nat := 0x00300024
def CH_CODE_SEL : Nat := 0x00300030
def CH_CODE_RATE : Nat := 0x00300034
def CH_CODE_TOKENS : Nat := 0x00300038
def CH_CODE_PENDING : Nat := 0x0030003C
def MP_RXREC (i : Nat) : Nat := 0x00F01000 + 0x4 * i
def MP_TXREC (i : Nat) : Nat := 0x00F01800 + 0x4 * i
def HL_MSIX (i : Nat) : Nat := 0x01101000 + 0x4 * i
def HL_PBA (i : Nat) : Nat := 0x01102000 + 0x4 * i

end Reg

/-- Rows 0 of the register map. -/
def regRows0 : List RegRow := [
  { base := 0x00000000, reset := 0x37415944 },
  { base := 0x00000004 },
  { base := 0x00000008 },
  { base := 0x0000000C, w1c := 0x7 },
  { base := 0x00000010 },
  { base := 0x00000014 },
  { base := 0x00000018, rc := 0xFFFF },
  { base := 0x00000100, rw := 0xFF0000 },
  { base := 0x00000104, rw := 0x3FF },
  { base := 0x00000108 },
  { base := 0x0000010C },
  { base := 0x00000110, latch := true }]

/-- Rows 1 of the register map. -/
def regRows1 : List RegRow := [
  { base := 0x00000114 },
  { base := 0x00000118 },
  { base := 0x00000120 },
  { base := 0x00000124, rw := 0xFFFF, reset := 0x695F },
  { base := 0x00000128 },
  { base := 0x0000012C, w1c := 0x7F },
  { base := 0x00000130, rw := 0x7F },
  { base := 0x00100000, reset := 0x2010 },
  { base := 0x00100004 },
  { base := 0x00100008 },
  { base := 0x0010000C, w1c := 0xFFFFFFFF },
  { base := 0x00100010, w1c := 0xFFFFFFFF }]

/-- Rows 2 of the register map. -/
def regRows2 : List RegRow := [
  { base := 0x00100014, rw := 0xFFFF },
  { base := 0x00100018, rw := 0xFFFFFFFF },
  { base := 0x0010001C },
  { base := 0x00101000, s1 := 0x100, n1 := 16, s2 := 0x4, n2 := 16, rw := 0xFFFFFFFF },
  { base := 0x00101040, s1 := 0x100, n1 := 16, s2 := 0x4, n2 := 16 },
  { base := 0x00101080, s1 := 0x100, n1 := 16, wo := 0xFFFFFFFF },
  { base := 0x00101084, s1 := 0x100, n1 := 16, w1c := 0x80000000 },
  { base := 0x00101088, s1 := 0x100, n1 := 16 },
  { base := 0x00102000, s1 := 0x20, n1 := 32 },
  { base := 0x00102004, s1 := 0x20, n1 := 32 },
  { base := 0x00102008, s1 := 0x20, n1 := 32 },
  { base := 0x0010200C, s1 := 0x20, n1 := 32 }]

/-- Rows 3 of the register map. -/
def regRows3 : List RegRow := [
  { base := 0x00102010, s1 := 0x20, n1 := 32 },
  { base := 0x00102014, s1 := 0x20, n1 := 32 },
  { base := 0x00102018, s1 := 0x20, n1 := 32, wo := 0xFFFFFFFF },
  { base := 0x00200000, w1c := 0x1FF0000 },
  { base := 0x00200004 },
  { base := 0x00200008 },
  { base := 0x0020000C },
  { base := 0x00200010, w1s := 0x3F, wo := 0xFFFF0000 },
  { base := 0x00200100, s1 := 0x4, n1 := 64 },
  { base := 0x00200200, rw := 0xFFFF00 },
  { base := 0x00200204, wo := 0xFFFFFFFF },
  { base := 0x00200208, w1c := 0xE }]

/-- Rows 4 of the register map. -/
def regRows4 : List RegRow := [
  { base := 0x00200300, s1 := 0x4, n1 := 64, rw := 0xFFFFFFFF },
  { base := 0x00200800, reset := 0x1 },
  { base := 0x00200804, s1 := 0x4, n1 := 5 },
  { base := 0x00200820, latch := true },
  { base := 0x00200824 },
  { base := 0x00200828 },
  { base := 0x0020082C, wo := 0xFFFFFFFF },
  { base := 0x00200830, wo := 0xFFFFFFFF },
  { base := 0x00200834 },
  { base := 0x00200838 },
  { base := 0x0020083C },
  { base := 0x00200840, wo := 0xFFFFFFFF }]

/-- Rows 5 of the register map. -/
def regRows5 : List RegRow := [
  { base := 0x00300000, reset := 0x40001000 },
  { base := 0x00300004 },
  { base := 0x00300008 },
  { base := 0x0030000C },
  { base := 0x00300010 },
  { base := 0x00300014 },
  { base := 0x00300018 },
  { base := 0x0030001C, rc := 0xFFFFFFFF },
  { base := 0x00300020, w1c := 0x7 },
  { base := 0x00300024, rw := 0x7 },
  { base := 0x00300030, rw := 0xFF },
  { base := 0x00300034, reset := 0xA }]

/-- Rows 6 of the register map. -/
def regRows6 : List RegRow := [
  { base := 0x00300038, reset := 0x10 },
  { base := 0x0030003C },
  { base := 0x00400000, reset := 0x400 },
  { base := 0x00400004, reset := 0x40001000 },
  { base := 0x00400008, rw := 0xFFFFFFFF, reset := 0x20000400 },
  { base := 0x0040000C },
  { base := 0x00400010, w1c := 0xF },
  { base := 0x00400014 },
  { base := 0x00400100, s1 := 0x4, n1 := 32, w1c := 0xFFFFFFFF },
  { base := 0x00400180, s1 := 0x4, n1 := 32, rw := 0xFFFFFFFF },
  { base := 0x00400400, s1 := 0x10, n1 := 28 },
  { base := 0x00400404, s1 := 0x10, n1 := 28, latch := true }]

/-- Rows 7 of the register map. -/
def regRows7 : List RegRow := [
  { base := 0x00400408, s1 := 0x10, n1 := 28 },
  { base := 0x00401000, s1 := 0x10, n1 := 1024, reset := 0xF00 },
  { base := 0x00401004, s1 := 0x10, n1 := 1024 },
  { base := 0x00401008, s1 := 0x10, n1 := 1024 },
  { base := 0x0040100C, s1 := 0x10, n1 := 1024 },
  { base := 0x00500000, reset := 0x10000 },
  { base := 0x00500004, rw := 0xFFFF },
  { base := 0x00500008, rw := 0x1FF },
  { base := 0x0050000C, rw := 0x3FFFFF },
  { base := 0x00500010, latch := true },
  { base := 0x00500014 },
  { base := 0x00500018, wo := 0xFFFFFFFF }]

/-- Rows 8 of the register map. -/
def regRows8 : List RegRow := [
  { base := 0x0050001C, wo := 0xFFFFFFFF },
  { base := 0x00500020, wo := 0xFFFFFFFF },
  { base := 0x00500024, rc := 0xFFFFFFFF },
  { base := 0x00500028, rc := 0xFFFFFFFF },
  { base := 0x0050002C, rc := 0xFFFFFFFF },
  { base := 0x00500030, w1c := 0x7 },
  { base := 0x00500034, w1c := 0x7 },
  { base := 0x00500038, rw := 0x7 },
  { base := 0x00500040, rw := 0xFF },
  { base := 0x00500044 },
  { base := 0x00500048 },
  { base := 0x0050004C }]

/-- Rows 9 of the register map. -/
def regRows9 : List RegRow := [
  { base := 0x00600000, reset := 0x2000013 },
  { base := 0x00600004, rw := 0x1FFFF, reset := 0x1000A },
  { base := 0x00600008 },
  { base := 0x00600010, reset := 0x1 },
  { base := 0x00600014, w1c := 0xF },
  { base := 0x00600020 },
  { base := 0x00600024 },
  { base := 0x00600028 },
  { base := 0x00600030, latch := true },
  { base := 0x00600034 },
  { base := 0x00600038, rc := 0xFFFFFFFF },
  { base := 0x0060003C, rc := 0xFFFFFFFF }]

/-- Rows 10 of the register map. -/
def regRows10 : List RegRow := [
  { base := 0x00600040, rc := 0xFFFFFFFF },
  { base := 0x00600044 },
  { base := 0x00600048, wo := 0x1 },
  { base := 0x0060004C },
  { base := 0x00600050, rc := 0xFFFFFFFF },
  { base := 0x00600054 },
  { base := 0x00700000 },
  { base := 0x00700004 },
  { base := 0x00700008, reset := 0x1 },
  { base := 0x0070000C },
  { base := 0x00700010 },
  { base := 0x00700014 }]

/-- Rows 11 of the register map. -/
def regRows11 : List RegRow := [
  { base := 0x00700018, latch := true },
  { base := 0x0070001C },
  { base := 0x00700020, rc := 0xFFFFFFFF },
  { base := 0x00700024, w1c := 0x7 },
  { base := 0x00700028, rc := 0xFFFFFFFF },
  { base := 0x00700030, rw := 0xFF },
  { base := 0x00700034 },
  { base := 0x00700038 },
  { base := 0x0070003C },
  { base := 0x00800000 },
  { base := 0x00800004 },
  { base := 0x00800008 }]

/-- Rows 12 of the register map. -/
def regRows12 : List RegRow := [
  { base := 0x0080000C },
  { base := 0x00800010, w1c := 0x1F },
  { base := 0x00800014, rc := 0xFFFFFFFF },
  { base := 0x00800018, rc := 0xFFFFFFFF },
  { base := 0x0080001C },
  { base := 0x00800020, rc := 0xFFFFFFFF },
  { base := 0x00800030, rw := 0xFF },
  { base := 0x00800034 },
  { base := 0x00800038 },
  { base := 0x00900000, reset := 0x800 },
  { base := 0x00900004, reset := 0x1 },
  { base := 0x00900008, latch := true }]

/-- Rows 13 of the register map. -/
def regRows13 : List RegRow := [
  { base := 0x0090000C },
  { base := 0x00900010, rc := 0xFFFFFFFF },
  { base := 0x00900014, w1c := 0x7 },
  { base := 0x00901000, s1 := 0x100, n1 := 12 },
  { base := 0x00901004, s1 := 0x100, n1 := 12, latch := true },
  { base := 0x00901008, s1 := 0x100, n1 := 12 },
  { base := 0x0090100C, s1 := 0x100, n1 := 12, rc := 0xFFFFFFFF },
  { base := 0x00901010, s1 := 0x100, n1 := 12, rc := 0xFFFFFFFF },
  { base := 0x00A00000, reset := 0x9006C },
  { base := 0x00A00004, rw := 0x7FFFFF, reset := 0x807D0 },
  { base := 0x00A00008, reset := 0x1 },
  { base := 0x00A0000C }]

/-- Rows 14 of the register map. -/
def regRows14 : List RegRow := [
  { base := 0x00A00010, latch := true },
  { base := 0x00A00014 },
  { base := 0x00A00018, rc := 0xFFFFFFFF },
  { base := 0x00A0001C, w1c := 0x7 },
  { base := 0x00A00020, rc := 0xFFFFFFFF },
  { base := 0x00A00024 },
  { base := 0x00A00028 },
  { base := 0x00A0002C },
  { base := 0x00A00030 },
  { base := 0x00A00100, s1 := 0x10, n1 := 12, reset := 0x8 },
  { base := 0x00A00104, s1 := 0x10, n1 := 12, latch := true },
  { base := 0x00A00108, s1 := 0x10, n1 := 12 }]

/-- Rows 15 of the register map. -/
def regRows15 : List RegRow := [
  { base := 0x00B00000, reset := 0x200003F },
  { base := 0x00B00004, wo := 0xFFFFFFFF },
  { base := 0x00B00008 },
  { base := 0x00B0000C, rw := 0x800007FF },
  { base := 0x00B00010, rc := 0xFFFFFFFF },
  { base := 0x00B00014, rc := 0xFFFFFFFF },
  { base := 0x00B00018, rc := 0xFFFFFFFF },
  { base := 0x00B0001C, w1c := 0xF },
  { base := 0x00B00020, w1c := 0x1 },
  { base := 0x00B00024, rw := 0x1 },
  { base := 0x00B00030, s1 := 0x4, n1 := 8, w1c := 0xFFFFFFFF },
  { base := 0x00B00040, rw := 0x3F }]

/-- Rows 16 of the register map. -/
def regRows16 : List RegRow := [
  { base := 0x00B00044 },
  { base := 0x00B00050, rw := 0xFF },
  { base := 0x00B00054, rw := 0x1F, reset := 0xC },
  { base := 0x00B00058 },
  { base := 0x00B0005C, rw := 0xFFFFFFFF },
  { base := 0x00B00060 },
  { base := 0x00B00064, w1c := 0x80000000 },
  { base := 0x00B00068, rc := 0xFFFFFFFF },
  { base := 0x00C00000, reset := 0x101000 },
  { base := 0x00C00004, rw := 0x3, reset := 0x3 },
  { base := 0x00C00008, rw := 0xFFFFFFFF, reset := 0xF0000FFF },
  { base := 0x00C0000C, reset := 0x4 }]

/-- Rows 17 of the register map. -/
def regRows17 : List RegRow := [
  { base := 0x00C00010, w1c := 0x7F },
  { base := 0x00C00014, rc := 0xFFFFFFFF },
  { base := 0x00C00018, rc := 0xFFFFFFFF },
  { base := 0x00C0001C, rc := 0xFFFFFFFF },
  { base := 0x00C00020, rc := 0xFFFFFFFF },
  { base := 0x00C00024, rc := 0xFFFFFFFF },
  { base := 0x00C00028, rc := 0xFFFFFFFF },
  { base := 0x00C0002C, rc := 0xFFFFFFFF },
  { base := 0x00C00040, rw := 0x3F, wo := 0x100 },
  { base := 0x00C00044, rw := 0xFFFFFFFF },
  { base := 0x00C00048, rw := 0xFFFFFFFF },
  { base := 0x00C0004C, rw := 0xFFFFFFFF }]

/-- Rows 18 of the register map. -/
def regRows18 : List RegRow := [
  { base := 0x00C00050, rw := 0xFFFFFFFF },
  { base := 0x00C00054, rw := 0xFF },
  { base := 0x00C00058, rw := 0x8000FFFF },
  { base := 0x00C0005C, w1c := 0x40000000 },
  { base := 0x00C00100, s1 := 0x4, n1 := 16 },
  { base := 0x00D00000, reset := 0x2008 },
  { base := 0x00D00004, rw := 0xFFFF, reset := 0x206 },
  { base := 0x00D00008, reset := 0x1 },
  { base := 0x00D0000C, latch := true },
  { base := 0x00D00010 },
  { base := 0x00D00014, w1c := 0xF },
  { base := 0x00D00018, rc := 0xFFFFFFFF }]

/-- Rows 19 of the register map. -/
def regRows19 : List RegRow := [
  { base := 0x00D0001C, rc := 0xFFFFFFFF },
  { base := 0x00D00100, s1 := 0x4, n1 := 8 },
  { base := 0x00E00000, reset := 0x104000 },
  { base := 0x00E00004, w1c := 0xF },
  { base := 0x00E00008, latch := true },
  { base := 0x00E0000C },
  { base := 0x00E00100, s1 := 0x40, n1 := 4, rw := 0xFFFFFC00, reset := 0x50000 },
  { base := 0x00E00104, s1 := 0x40, n1 := 4, rw := 0x1FFF1FFF, reset := 0x10E01E00 },
  { base := 0x00E00108, s1 := 0x40, n1 := 4, rw := 0xFFFFFFFF },
  { base := 0x00E0010C, s1 := 0x40, n1 := 4, rw := 0xFFFF },
  { base := 0x00E00110, s1 := 0x40, n1 := 4 },
  { base := 0x00E00114, s1 := 0x40, n1 := 4, latch := true }]

/-- Rows 20 of the register map. -/
def regRows20 : List RegRow := [
  { base := 0x00E00118, s1 := 0x40, n1 := 4 },
  { base := 0x00E0011C, s1 := 0x40, n1 := 4, rc := 0xFFFFFFFF },
  { base := 0x00E00120, s1 := 0x40, n1 := 4, rc := 0xFFFFFFFF },
  { base := 0x00E00124, s1 := 0x40, n1 := 4, rc := 0xFFFFFFFF },
  { base := 0x00E00400, s1 := 0x4, n1 := 64, rw := 0x80FF0000 },
  { base := 0x00F00000, reset := 0x404 },
  { base := 0x00F00004, w1c := 0x3F },
  { base := 0x00F00100, s1 := 0x40, n1 := 4, rw := 0x8000FFFF },
  { base := 0x00F00104, s1 := 0x40, n1 := 4 },
  { base := 0x00F00108, s1 := 0x40, n1 := 4, rw := 0xFFFFFFFF },
  { base := 0x00F0010C, s1 := 0x40, n1 := 4, rw := 0xFFFF },
  { base := 0x00F00110, s1 := 0x40, n1 := 4, rw := 0xFFFFFFFF }]

/-- Rows 21 of the register map. -/
def regRows21 : List RegRow := [
  { base := 0x00F00114, s1 := 0x40, n1 := 4, latch := true },
  { base := 0x00F00118, s1 := 0x40, n1 := 4 },
  { base := 0x00F0011C, s1 := 0x40, n1 := 4, rc := 0xFFFFFFFF },
  { base := 0x00F00120, s1 := 0x40, n1 := 4, rc := 0xFFFFFFFF },
  { base := 0x00F00124, s1 := 0x40, n1 := 4, rc := 0xFFFFFFFF },
  { base := 0x00F00128, s1 := 0x40, n1 := 4, rc := 0xFFFFFFFF },
  { base := 0x00F01000, s1 := 0x4, n1 := 256, rw := 0xFFFFFFFF },
  { base := 0x00F01800, s1 := 0x4, n1 := 64, rw := 0xFFFFFFFF },
  { base := 0x00F08000, rw := 0x83FFFFFF, reset := 0x7F003C },
  { base := 0x00F08004, w1c := 0x4 },
  { base := 0x00F08008, latch := true },
  { base := 0x00F0800C }]

/-- Rows 22 of the register map. -/
def regRows22 : List RegRow := [
  { base := 0x00F08010 },
  { base := 0x00F08014 },
  { base := 0x00F08100, s1 := 0x10, n1 := 8, rw := 0xFFFFFFFF },
  { base := 0x00F08104, s1 := 0x10, n1 := 8, rw := 0xFFFFFFFF },
  { base := 0x00F08108, s1 := 0x10, n1 := 8, rw := 0xFFFFFFFF },
  { base := 0x00F0810C, s1 := 0x10, n1 := 8, rw := 0xC000FFFF },
  { base := 0x01000000, reset := 0x400400 },
  { base := 0x01000004 },
  { base := 0x01000008 },
  { base := 0x0100000C },
  { base := 0x01000010 },
  { base := 0x01000014 }]

/-- Rows 23 of the register map. -/
def regRows23 : List RegRow := [
  { base := 0x01000018 },
  { base := 0x0100001C },
  { base := 0x01000020 },
  { base := 0x01000024, w1c := 0x3F },
  { base := 0x01000028, rw := 0x3F },
  { base := 0x0100002C, rc := 0xFFFFFFFF },
  { base := 0x01000030, latch := true },
  { base := 0x01000034 },
  { base := 0x01000040, rw := 0x13F },
  { base := 0x01000044 },
  { base := 0x01000100, s1 := 0x10, n1 := 8 },
  { base := 0x01000104, s1 := 0x10, n1 := 8, rc := 0xFFFFFFFF }]

/-- Rows 24 of the register map. -/
def regRows24 : List RegRow := [
  { base := 0x01001000, s1 := 0x4, n1 := 16, rw := 0xFFFFFFFF },
  { base := 0x01001040, s1 := 0x4, n1 := 16 },
  { base := 0x01001080, wo := 0xFFFFFFFF },
  { base := 0x01001084, w1c := 0x2 },
  { base := 0x01100000 },
  { base := 0x01100004, rw := 0x3FF },
  { base := 0x01100008, w1c := 0xF },
  { base := 0x0110000C, rw := 0xF },
  { base := 0x01100010 },
  { base := 0x01100040, s1 := 0x4, n1 := 2, rw := 0x1FF },
  { base := 0x01101000, s1 := 0x4, n1 := 32, rw := 0xFFFFFFFF },
  { base := 0x01102000, s1 := 0x4, n1 := 2 }]

/-- Rows 25 of the register map. -/
def regRows25 : List RegRow := [
  { base := 0x01200000 },
  { base := 0x01200004 },
  { base := 0x01200008 },
  { base := 0x0120000C, w1c := 0xF },
  { base := 0x01200010, rw := 0xF },
  { base := 0x01200020, s1 := 0x4, n1 := 8 },
  { base := 0x01200040, rc := 0xFFFFFFFF },
  { base := 0x01200044, rc := 0xFFFFFFFF },
  { base := 0x01200100, s1 := 0x4, n1 := 19 },
  { base := 0x01300000, reset := 0xC0 },
  { base := 0x01300004, rw := 0xF01, reset := 0x300 },
  { base := 0x01300008 }]

/-- Rows 26 of the register map. -/
def regRows26 : List RegRow := [
  { base := 0x0130000C, rc := 0xFFFFFFFF },
  { base := 0x01300010 }]

/-- The register map: every register of the spec, by rising offset. -/
def regRows : List RegRow :=
  regRows0 ++ regRows1 ++ regRows2 ++ regRows3 ++ regRows4 ++ regRows5 ++ regRows6 ++ regRows7 ++ regRows8 ++ regRows9 ++ regRows10 ++ regRows11 ++ regRows12 ++ regRows13 ++ regRows14 ++ regRows15 ++ regRows16 ++ regRows17 ++ regRows18 ++ regRows19 ++ regRows20 ++ regRows21 ++ regRows22 ++ regRows23 ++ regRows24 ++ regRows25 ++ regRows26

/-- The row covers the register at offset `off`. -/
def RegRow.covers (r : RegRow) (off : Nat) : Bool :=
  if off < r.base then false
  else
    let d := off - r.base
    if r.s1 = 0 then d == 0
    else if r.s2 = 0 then d % r.s1 == 0 && decide (d / r.s1 < r.n1)
    else d % r.s1 % r.s2 == 0 && decide (d / r.s1 < r.n1) && decide (d % r.s1 / r.s2 < r.n2)

/-- The row of a register offset. -/
def regRow (off : Nat) : Option RegRow := regRows.find? (fun r => r.covers off)

end Sys2Proof.Machine
end

