-- ==== Sys2Proof/Machine/State.lean ====
section
/-! DEFINITION. The state of the part: every register, store, queue, counter, mode and pin the spec
gives it, as plain data; and the state right after power-on reset, before bring-up. -/

namespace Sys2Proof.Machine

/-- A sparse table by number: keys strictly rising, and no entry equal to what an unlisted key reads as. -/
abbrev Tbl (α : Type) := List (Nat × α)

/-- Why the machine stops with a fault. No command of this part ends a run: the constructor is
raised by `Safety` alone, never by a step. Safe. -/
inductive Fault where
  | none
  deriving DecidableEq, Repr

/-- Why a command has no meaning. `notModelled` is raised by an arm of `exec` that has no meaning yet,
and by nothing else. Safe. -/
inductive Refusal where
  | notModelled (mnemonic : String)
  deriving DecidableEq, Repr

/-! ## Chapters 00, 22, 23: functions, fuses, time -/

/-- Function fence states, Table ER-2. -/
inductive FnSt where
  | up | fencing | fenced | restoring
  deriving DecidableEq, Repr

/-- One function of GLOBAL_READY (R396, R383). -/
structure Fn where
  st : FnSt := .up
  /-- READY bit of GLOBAL_READY. -/
  ready : Bool := false
  /-- Fence source, in the order of the list of R395; 0 while UP. -/
  source : Nat := 0
  /-- When the fence took effect, in fence order (Table ER-7). -/
  fencedAt : Nat := 0
  deriving DecidableEq, Repr

/-- What the fuses fix. -/
structure Fuses where
  variant : Variant := .dya7296
  deriving DecidableEq, Repr

/-- Time: the device timebase and calendar time (R326, R416), and when each periodic happening last took place. -/
structure Time where
  /-- Device timebase, ns. -/
  dev : Nat := 0
  /-- Calendar time, ns. -/
  cal : Nat := 0
  /-- Last occurrence of each periodic happening, by its number, in device time. -/
  last : Tbl Nat := []
  deriving DecidableEq, Repr

/-! ## Chapter 24: the Chronograph -/

/-- A record of Table CH-2. -/
structure Rec where
  time : Nat := 0
  seq : Word := 0
  code : Nat := 0
  tsrc : Bool := false
  ctxValid : Bool := false
  perm : Bool := false
  ctx : Nat := 0
  fn : Nat := 0
  arg0 : Dword := 0
  arg1 : Dword := 0
  deriving DecidableEq, Repr

/-- The token bucket of one record code (R417). Tokens are kept in 10⁻⁹ of a token, so that refill is exact. -/
structure Bucket where
  rate : Nat := 10
  nanoTokens : Nat := 16000000000
  /-- Calendar time of the last refill. -/
  since : Nat := 0
  pending : Nat := 0
  firstTime : Nat := 0
  deriving DecidableEq, Repr

structure Chrono where
  /-- Circulating store, oldest first (R413). -/
  circ : List Rec := []
  /-- SEQ the next record will take (R415). -/
  nextSeq : Word := 0
  /-- Mirror of the permanent store, in order of entry. -/
  perm : List Rec := []
  /-- Records of the permanent store that are durable (R414). -/
  durable : Nat := 0
  /-- A permanent clear is erasing, and the mailbox that awaits it. -/
  erasing : Option Nat := none
  eraseMask : Nat := 0
  buckets : Tbl Bucket := []
  /-- Records that arose before READY, held by the Remontoire (R382), oldest first, at most 16. -/
  held : List Rec := []
  /-- A running export: job and the indices it selected of the circulating or permanent store. -/
  exports : List (Nat × Nat) := []
  deriving DecidableEq, Repr

/-! ## Chapter 12: events -/

structure Ev where
  alloc : Bool := false
  ctx : Nat := 0
  flag : Bool := false
  count : Nat := 0
  sys : Bool := false
  linkEn : Bool := false
  acceptEn : Bool := false
  acceptDev : Nat := 0
  linkDev : Nat := 0
  linkEv : Nat := 0
  deriving DecidableEq, Repr

/-- State of one wait (R225). -/
inductive WaitSt where
  | pending | met | err | gone
  deriving DecidableEq, Repr

structure Wait where
  ev : Nat
  target : Nat
  st : WaitSt := .pending
  deriving DecidableEq, Repr

/-- A wait of something other than a descriptor: a beat in EVWAIT (1), a parked BIN_PASS (2), a render pass (3)
or an ingest (4), named by kind and number. -/
structure XWait where
  kind : Nat
  id : Nat
  lane : Nat := 0
  ev : Nat
  target : Nat
  st : WaitSt := .pending
  deriving DecidableEq, Repr

structure Events where
  ev : Tbl Ev := []
  /-- The device-wide holding register EV_RECORD_HI (R239). -/
  recHi : Word := 0
  /-- Forwarded records of this device on their way to events of this device, oldest first. -/
  fwd : List Fwd := []
  /-- Waits of beats, passes and ingests. -/
  waits : List XWait := []
  /-- Ticks attributed since the last sample: context, engine (R232). -/
  ticked : List (Nat × Nat) := []
  deriving DecidableEq, Repr

/-! ## Chapter 10: contexts -/

/-- Context states, Table CX-2. -/
inductive CtxSt where
  | free | active | fenced | halted | destroying
  deriving DecidableEq, Repr

/-- What the last sample found of a context and an engine (R232). -/
structure Span where
  /-- Milliseconds of unbroken STALLED samples. -/
  stalled : Nat := 0
  cause : Nat := 0
  deriving DecidableEq, Repr

structure Ctx where
  st : CtxSt := .free
  pasid : Nat := 0
  mode : Nat := 0
  heapVa : Nat := 0
  heapBytes : Nat := 0
  /-- Live allocations of the device-side allocator: VA and bytes taken, by rising VA (R196). -/
  allocs : Tbl Nat := []
  quota : Nat := 0
  /-- Barrel evictions since creation, of BA_CTX_EVICT. -/
  evicts : Nat := 0
  /-- Granule list of the Plate partition; `none` is a position left unbacked (R103, R116). -/
  granules : List (Option Nat) := []
  weight : Nat := 16
  hangWin : Nat := 2000
  hangFence : Bool := false
  client : Nat := 0
  /-- Order of creation, for the youngest context of a cycle (R234). -/
  created : Nat := 0
  fencedAt : Nat := 0
  /-- Stage of a destruction reached, 1 to 4 (R193); 0 when none runs. -/
  stage : Nat := 0
  /-- Fault ring of R262. -/
  fLog2 : Nat := 12
  fIrqEn : Bool := false
  fHead : Word := 0
  fTail : Word := 0
  fSeq : Word := 0
  fOverflow : Bool := false
  fOvf : Word := 0
  /-- Accounting banks: open and previous (R246). -/
  acctOpen : Nat := 0
  acctPrev : Nat := 0
  /-- Hang tracking (R232 to R234). -/
  quiet : Nat := 0
  stuck : Nat := 0
  spans : Tbl Span := []
  hangReported : Bool := false
  stuckReported : Bool := false
  evState : Nat := 0
  evCause : Nat := 0
  engMask : Nat := 0
  /-- Great Wheel arbitration (R241). -/
  deficit : Int := 0
  grant : Bool := false
  deriving DecidableEq, Repr

/-! ## Chapter 11: rings and descriptors -/

structure Ring where
  ctx : Nat := 0
  eng : Nat := 0
  /-- 0 host-fed, 1 device-fed, 2 shared. -/
  mode : Nat := 0
  va : Nat := 0
  log2 : Nat := 6
  head : Word := 0
  tail : Word := 0
  pub : Word := 0
  /-- Reserved entries at or above PUB that are published (R207). -/
  published : List Nat := []
  /-- Values PUB took and the order in which it took them, oldest first (R217). -/
  pubLog : List (Nat × Nat) := []
  deriving DecidableEq, Repr

/-- Where a descriptor stands between fetch and completion. -/
inductive DPhase where
  | waiting      -- fetched; waits pending
  | reading      -- waits met; indirect values to be read
  | ready        -- may start
  | started      -- its engine acts on it
  | finished     -- final status known; completion steps to run
  deriving DecidableEq, Repr

structure Desc where
  ring : Nat
  ctx : Nat
  eng : Nat
  /-- Index of its entry in the ring. -/
  index : Word
  bytes : List Byte
  conts : List (List Byte) := []
  /-- The continuation may be pushed (R215). -/
  pushOk : Bool := true
  waits : List Wait := []
  phase : DPhase := .waiting
  status : Nat := 0
  /-- First failure that the running descriptor met; 0 none. -/
  err : Nat := 0
  /-- Values of indirect fields read, by body offset; and whether a read failed (R212). -/
  ind : Tbl Nat := []
  indFault : Bool := false
  /-- An indirect VA breaks its rule: the descriptor is refused with BAD_OPERAND (R212). -/
  indBad : Bool := false
  /-- The completion record: its VA and bytes (R213). -/
  record : Option (Nat × List Byte) := none
  /-- EVENT_WAIT: the waits of its body have begun (R216). -/
  bodyWaits : Bool := false
  /-- Fetch order, and start order. -/
  fetched : Nat := 0
  deriving DecidableEq, Repr

/-- A continuation entry waiting to be pushed (R215). -/
structure Cont where
  ctx : Nat
  ring : Nat
  /-- Engine whose Escapement holds it. -/
  eng : Nat
  bytes : List Byte
  deriving DecidableEq, Repr

structure Esc where
  rings : Tbl Ring := []
  nextRing : Nat := 0
  descs : Tbl Desc := []
  nextDesc : Nat := 0
  contQ : List Cont := []
  /-- Order stamps of publications, fetches and fences. -/
  clock : Nat := 0
  deriving DecidableEq, Repr

/-! ## Chapter 14: translation -/

structure TlbEnt where
  set : Nat
  pasid : Nat
  base : Nat
  log2 : Nat
  hpa : Nat
  r : Bool
  w : Bool
  n : Bool
  deriving DecidableEq, Repr

inductive MissSt where
  | sent1        -- first Translation Request outstanding
  | needPage     -- page request awaits a credit
  | sentPri      -- page request outstanding
  | sent2        -- second Translation Request outstanding
  deriving DecidableEq, Repr

structure Miss where
  stream : Nat
  pasid : Nat
  page : Nat
  va : Nat
  ctx : Nat
  eng : Nat
  ring : Option Nat
  needR : Bool
  needW : Bool
  atomic : Bool
  st : MissSt
  /-- An invalidation overlapped the page while the request was out (R265). -/
  inval : Bool := false
  deriving DecidableEq, Repr

/-- A translation that serves the accesses that joined its entry, once (R258, R259 U, R265), with what it permits. -/
structure Once where
  stream : Nat
  ctx : Nat
  page : Nat
  hpa : Nat
  untranslated : Bool
  r : Bool := true
  w : Bool := true
  deriving DecidableEq, Repr

/-- A decided failure, which the accesses that joined the entry take (R261). -/
structure XFail where
  stream : Nat
  ctx : Nat
  page : Nat
  cause : Nat
  deriving DecidableEq, Repr

/-- A fault record of Table TU-4. -/
structure FaultRec where
  va : Nat
  ctx : Nat
  eng : Nat
  stream : Nat
  access : Nat
  parked : Bool := false
  cause : Nat
  pasid : Nat
  time : Nat
  seq : Word := 0
  ring : Option Nat
  deriving DecidableEq, Repr

structure Tu where
  /-- Device TLB, least recently used first. -/
  tlb : List TlbEnt := []
  /-- Open miss entries, oldest first. -/
  misses : List Miss := []
  once : List Once := []
  failed : List XFail := []
  /-- Fault records decided and not yet written, oldest first. -/
  recs : List FaultRec := []
  /-- Parked records: one for each pair of context and stream at most (R263). -/
  parked : List FaultRec := []
  /-- Failures that wait for their context's slot of the parked store. -/
  heldFail : List FaultRec := []
  priStopped : Bool := false
  /-- Fault ring offsets changed by a resize, by context (R262). -/
  fOffset : Tbl Nat := []
  /-- Messages sent on the link, newest first: kind (1 Translation Request, 2 Page Request, 3 Invalidate
  Completion), PASID, page. -/
  sent : List (Nat × Nat × Nat) := []
  deriving DecidableEq, Repr

/-! ## Chapter 15: the system cache -/

structure Line where
  addr : Nat := 0
  /-- Host-coherent class; shader-data otherwise. -/
  hc : Bool := false
  /-- A line of host memory. -/
  host : Bool := false
  dirty : Bool := false
  poison : Bool := false
  /-- Awaiting the host's acknowledgement, in the victim cache (R276); its data is empty once a snoop took the line. -/
  evicting : Bool := false
  used : Nat := 0
  data : List Byte := []
  deriving DecidableEq, Repr

/-- A directory entry: the line, the trains that may hold it, invalidations sent and notices received (R277, R280). -/
structure Dir where
  addr : Nat := 0
  host : Bool := false
  trains : Nat := 0
  invSent : Nat := 0
  acked : Nat := 0
  notice : Nat := 0
  deriving DecidableEq, Repr

/-- A write held until the listed trains have acknowledged (R277). -/
structure HeldWrite where
  addr : Nat
  host : Bool
  data : List Byte
  deriving DecidableEq, Repr

/-- A running maintenance request (R281). -/
structure Maint where
  op : Nat
  target : Nat
  classes : Nat
  addr : Nat
  size : Nat
  ctx : Nat
  /-- The context of a VA target was ACTIVE at GO. -/
  live : Bool := false
  deriving DecidableEq, Repr

structure Cache where
  /-- Main array by (slice × sets + set) × 16 + way. -/
  lines : Tbl Line := []
  /-- Victim cache by slice × 256 + slot. -/
  victim : Tbl Line := []
  /-- Directory by slice × 4,096 + entry. -/
  dir : Tbl Dir := []
  held : List HeldWrite := []
  maint : Option Maint := none
  /-- Errors met in each way, by slice × 16 + way (Table CA-4). -/
  wayErr : Tbl Nat := []
  clock : Nat := 0
  deriving DecidableEq, Repr

/-! ## Memories -/

structure Mem where
  /-- Device memory by device-physical address. -/
  dev : Tbl Byte := []
  /-- Host memory by host-physical address. -/
  host : Tbl Byte := []
  /-- Poisoned 128-byte lines of device memory, by line number, rising (R400). -/
  poison : List Nat := []
  /-- In-package NVM by address (R387 to R389). -/
  nvm : Tbl Byte := []
  deriving DecidableEq, Repr

/-! ## Chapter 09: the Regulator and its mailboxes -/

inductive MbSt where
  | idle | pending | running | done
  deriving DecidableEq, Repr

structure Mbox where
  st : MbSt := .idle
  drop : Bool := false
  req : List Word := []
  resp : List Word := []
  seq : Word := 0
  /-- Order of the accepted GO (R176). -/
  goAt : Nat := 0
  /-- The request as taken. -/
  taken : List Word := []
  deriving DecidableEq, Repr

inductive JobSt where
  | free | running | done
  deriving DecidableEq, Repr

structure Job where
  st : JobSt := .free
  code : Nat := 0
  mbox : Nat := 0
  tag : Nat := 0
  status : Nat := 0
  done : Nat := 0
  total : Nat := 0
  result : Nat := 0
  unchecked : Bool := false
  evEn : Bool := false
  ev : Nat := 0
  evVal : Dword := 0
  /-- The object the job acts on: context, model or store. -/
  obj : Nat := 0
  /-- Second argument: target size, address or mask. -/
  arg : Nat := 0
  arg2 : Nat := 0
  arg3 : Nat := 0
  /-- Taking order. -/
  order : Nat := 0
  /-- The context the job acts on. -/
  ctx : Option Nat := none
  /-- Final status decided, to be written by JOB_DONE. -/
  final : Option Nat := none
  deriving DecidableEq, Repr

structure Rg where
  mbox : Tbl Mbox := []
  jobs : Tbl Job := []
  goClock : Nat := 0
  jobClock : Nat := 0
  nextCtx : Nat := 0
  ctxClock : Nat := 0
  /-- Fence clock: order in which fences took effect (Table ER-7). -/
  fenceClock : Nat := 0
  deriving DecidableEq, Repr

/-! ## Chapter 13: sharing and accounting -/

structure Resv where
  cls : Nat
  client : Nat
  mbs : Nat
  deriving DecidableEq, Repr

structure Sched where
  /-- The context whose turn it is (R241). -/
  cur : Nat := 0
  /-- Client totals folded in by firmware: open and previous. -/
  clientOpen : Tbl Nat := []
  clientPrev : Tbl Nat := []
  perLen : Nat := 3600
  perStart : Nat := 0
  /-- End of the open period, ns (R248). -/
  perEnd : Nat := 3600000000000
  resv : Tbl Resv := []
  /-- Step of Table SA-4 in force, the windows' class and client short, and device time of the last shortfall. -/
  step : Nat := 0
  shortAt : Nat := 0
  shortCls : Nat := 0
  shortClient : Nat := 0
  deriving DecidableEq, Repr

/-! ## Chapter 19: the host link -/

/-- One MSI-X vector: table entry, Pending Bit, the level last seen and a source write that left it at 1 (R337). -/
structure Vec where
  addr : Dword := 0
  data : Word := 0
  masked : Bool := true
  pend : Bool := false
  level : Bool := false
  again : Bool := false
  deriving DecidableEq, Repr

/-- An HDM decoder (R335). -/
structure Hdm where
  committed : Bool := false
  base : Nat := 0
  size : Nat := 0
  deriving DecidableEq, Repr

/-- A recorded line of the snoop filter (R336). -/
structure SfLine where
  line : Nat
  modified : Bool := false
  deriving DecidableEq, Repr

/-- An access held behind a back-invalidation: its line, and for a write its address and bytes. -/
structure BiHold where
  line : Nat
  write : Option (Nat × List Byte)
  deriving DecidableEq, Repr

structure Hl where
  busMaster : Bool := false
  memSpace : Bool := false
  atsEn : Bool := false
  pasidEn : Bool := false
  priEn : Bool := false
  /-- Outstanding Page Request Allocation written by the host. -/
  priAlloc : Nat := 0
  cacheEn : Bool := false
  d3 : Bool := false
  l1 : Bool := false
  cfgReady : Bool := false
  /-- BAR4 base and size (R334). -/
  bar4Base : Nat := 0
  bar4Size : Nat := 2 ^ 28
  hdm : Tbl Hdm := []
  /-- Error-not-committed indication of the last commit of each decoder. -/
  hdmErr : Tbl Bool := []
  /-- Snoop filter, oldest line first. -/
  sf : List SfLine := []
  snoops : List BiHold := []
  vecs : Tbl Vec := []
  /-- MSI-X messages sent, newest first: vector, address, data. -/
  msgs : List (Nat × Dword × Word) := []
  /-- Data of the last host read of the part, and whether it was a Poisoned TLP. -/
  readData : Dword := 0
  readPoison : Bool := false
  /-- Data of the last BAR4 or CXL.mem read. -/
  readMem : List Byte := []
  deriving DecidableEq, Repr

/-! ## Chapter 20: the Nauno fabric -/

structure Port where
  up : Bool := false
  waves : Nat := 0
  peer : Nat := 0
  peerPort : Nat := 0
  /-- Consecutive replays of the flit being delivered. -/
  replays : Nat := 0
  lastRx : Nat := 0
  lastBeat : Nat := 0
  /-- Credits held for the far end's buffers, by virtual channel (R344). -/
  credits : List Nat := [512, 512, 64, 32]
  /-- Packets waiting for this output, oldest first. -/
  out : List Packet := []
  deriving DecidableEq, Repr

/-- A remote request sent and not yet answered (R352). -/
structure RemReq where
  tag : Nat
  dev : Nat
  off : Nat
  len : Nat
  write : Bool
  stream : Nat
  ctx : Nat
  page : Nat
  eng : Nat := 0
  ring : Option Nat := none
  atomic : Bool := false
  deriving DecidableEq, Repr

/-- Read data that arrived for an access: its stream, context, device, offset and bytes. -/
structure Arrived where
  stream : Nat
  ctx : Nat
  dev : Nat
  off : Nat
  data : List Byte
  deriving DecidableEq, Repr

/-- An epoch switch in progress on this device (R351). -/
structure Switching where
  /-- Flows whose echo is awaited: destination and channel. -/
  flows : List (Nat × Nat)
  /-- The manager's job, and the members that have not reported done. -/
  job : Option Nat
  awaiting : List Nat
  /-- This device has reported done. -/
  reported : Bool := false
  deriving DecidableEq, Repr

/-- A device that has answered an enumeration: its number, its role, the ports to it, and its links. -/
structure Answer where
  dev : Nat
  role : Nat
  path : List Nat
  links : List (Nat × Nat × Nat)
  deriving DecidableEq, Repr

structure Nl where
  ports : Tbl Port := []
  roleOpt : Nat := 0
  acting : Nat := 0
  dev : Nat := 0
  member : Bool := false
  configured : Nat := 0
  members : Nat := 0
  lost : Nat := 0
  mgrReach : Bool := false
  mgr : Nat := 0
  remoteFenced : Bool := false
  epoch : Word := 0
  /-- Routing banks: destination device to output port (R350). -/
  active : Tbl Nat := []
  idle : Tbl Nat := []
  switching : Option Switching := none
  /-- Packets held at the source behind their flow's marker. -/
  held : List Packet := []
  /-- Enumeration on the manager: its job, the devices that answered, and its number; on a member, the last enumeration
  answered and the port by which it came. -/
  enumJob : Option Nat := none
  enumSeq : Nat := 0
  answered : List Answer := []
  enumSeen : Option Nat := none
  enumPort : Option Nat := none
  /-- Links of the domain: device, port, device, port. -/
  topo : List (Nat × Nat × Nat × Nat) := []
  rejoin : Bool := false
  deputySeen : Bool := false
  /-- Devices counted in the vote in progress, and its start; the candidate answered after the last loss. -/
  probing : Option Nat := none
  votes : List Nat := []
  answeredCand : Option Nat := none
  /-- Candidates whose probe has been passed on since the last loss. -/
  probed : List Nat := []
  /-- The outstanding management command: its target. -/
  mcTarget : Option Nat := none
  reqs : List RemReq := []
  nextTag : Nat := 0
  /-- Read data that arrived for accesses of this device. -/
  arrived : List Arrived := []
  /-- Packets received for this device and not yet sunk, oldest first. -/
  inbox : List (Nat × Packet) := []
  /-- Packets sent on the ports, newest first. -/
  tx : List (Nat × Packet) := []
  deriving DecidableEq, Repr

/-! ## Chapter 21: package and power -/

structure Pk where
  /-- Rails in mV: VDD_CORE, VDD_SRAM, VDD_HBM, VDD_OPT, VBAK. -/
  railsMv : List Nat := [0, 0, 0, 0, 0]
  /-- Power samples of the last millisecond, newest first, in 1/8 W (R372). -/
  samples : List Nat := []
  /-- Pacing fractions called for by the cap and by the thermal cause, in sixteenths (R373, R377). -/
  capPace : Nat := 0
  thermPace : Nat := 0
  /-- The 52 sensors in °C (R375). -/
  temps : Tbl Int := []
  deriving DecidableEq, Repr

/-! ## Chapter 22: reset, bring-up, NVM and the backup domain -/

/-- One copy of the retained settings block, Table BU-5. -/
structure Copy where
  valid : Bool := false
  seq : Word := 0
  settings : List Word := []
  acctLen : Nat := 3600
  acctStart : Nat := 0
  gwRetired : Nat := 0
  dfRetired : Nat := 0
  plRetired : List Nat := []
  pnRetired : List Nat := []
  caRetired : List Nat := []
  baRetired : List Nat := []
  trip : Option (Int × Nat × Nat) := none
  deriving DecidableEq, Repr

/-- The backup domain (R390, R391). -/
structure Backup where
  /-- VBAK fell below 1.50 V while the main rails were off. -/
  lost : Bool := true
  total : Nat := 1
  counts : Tbl Nat := [(8, 1)]
  /-- The RTC, ns since the PTP epoch. -/
  rtcNs : Nat := 0
  rtcSetHi : Word := 0
  copyA : Copy := {}
  copyB : Copy := {}
  /-- Copy in use: false A, true B. -/
  useB : Bool := false
  /-- The last trip: °C, sensor and calendar time (R376). -/
  trip : Option (Int × Nat × Nat) := none
  deriving DecidableEq, Repr

/-- Where bring-up stands (Table BU-3): the step or the function it works on. -/
inductive BuAt where
  | held            -- in reset
  | step (n : Nat)  -- steps 1 to 5; 30 stands for step 3, 31 for step 3a
  | fn (n : Nat)    -- step 6, at function n
  | done
  deriving DecidableEq, Repr

structure Bu where
  pos : BuAt := .held
  /-- Bring-up after an FLR runs steps 3, 3a and 6 alone. -/
  flr : Bool := false
  startedAt : Nat := 0
  /-- A power-on reset awaits its count at step 1 (R391). -/
  uncounted : Bool := true
  /-- A trip is in force (R376). -/
  tripped : Bool := false
  tripRec : Bool := false
  backup : Backup := {}
  /-- A change of the retained settings block not yet written. -/
  dirty : Bool := false
  /-- Units whose history RS_FORGET cleared since the last bring-up. -/
  forgot : Nat := 0
  /-- Retired units whose records RS_FORGET cleared and that stay out of service until the next bring-up (R386). -/
  forgiven : Copy := {}
  /-- NVM write in progress: erase, address, data. -/
  nvmOp : Option (Bool × Nat × List Byte) := none
  /-- Functions that RESET_FUNCTION or SELF_TEST is restoring. -/
  restoring : List Nat := []
  deriving DecidableEq, Repr

/-! ## Chapter 23: errors and recovery -/

/-- A recovery of the Regulator in progress (R404). -/
structure Recov where
  cause : Nat
  frozenAt : Nat
  fencedCtx : Nat
  /-- Image chosen at step 3, once RELOADING. -/
  image : Option Nat := none
  deriving DecidableEq, Repr

structure Er where
  /-- Device times at which recoveries started (R405). -/
  starts : List Nat := []
  recov : Option Recov := none
  /-- The Regulator is held FROZEN under R405 or R408. -/
  heldFrozen : Bool := false
  /-- Device time at which the Regulator last retired an instruction (R404). -/
  retiredAt : Nat := 0
  ctxFences : Nat := 0
  fnFences : Nat := 0
  selfTests : Nat := 0
  disagrees : Nat := 0
  /-- HBM3E words corrected, and lines poisoned, since reset (R410). -/
  memFixed : Nat := 0
  memPoisoned : Nat := 0
  /-- The Remontoire's voting has failed (R407). -/
  rmFailed : Bool := false
  /-- The Remontoire is to reset the device (R405, AUTO_RESET). -/
  wantReset : Bool := false
  /-- Device time of the last copy of a dissenter, and which it was. -/
  copiedAt : Option (Nat × Nat) := none
  deriving DecidableEq, Repr

/-- An exact value of chapter 02: NaN, an infinity, or `(-1)^neg × m × 2^e`, a zero when `m` is 0. -/
inductive Num where
  | nan
  | inf (neg : Bool)
  | fin (neg : Bool) (m : Nat) (e : Int)
  deriving DecidableEq, Repr

/-! ## Chapter 06: the Plate -/

/-- A granule of 16 slots (R103, R116). -/
structure Gran where
  /-- Owner's context number plus 1; 0 while free. -/
  owner : Nat := 0
  retired : Bool := false
  /-- A double-bit error has shown (R116). -/
  dbl : Bool := false
  deriving DecidableEq, Repr

/-- A Plate claim (R114): the slot ranges of a render pass. -/
structure Claim where
  ctx : Nat
  pass : Nat
  ranges : List (Nat × Nat)
  deriving DecidableEq, Repr

structure Plate where
  /-- Bytes by physical slot × 16,384 + offset. -/
  bytes : Tbl Byte := []
  grans : Tbl Gran := []
  claims : List Claim := []
  /-- Data that the last Plate read returned. -/
  rdata : List Byte := []
  /-- Status of the last Plate access. -/
  rstat : Nat := 0
  deriving DecidableEq, Repr

/-! ## Chapter 05: the Barrel -/

/-- A frame of 128 KiB (R78, R98). -/
structure Frame where
  /-- MODEL_ID plus 1 of the block it holds; 0 while free. -/
  model : Nat := 0
  block : Nat := 0
  retired : Bool := false
  dbl : Bool := false
  deriving DecidableEq, Repr

/-- A registered model (R83). -/
structure Model where
  ctx : Nat
  image : Nat
  pbase : Nat
  ev : Nat
  blocks : Nat
  ops : Nat
  compressed : Bool := false
  framing : Nat := 0
  blocksOff : Nat := 0
  btabOff : Nat := 0
  /-- Its operation list in the operation store. -/
  list : List Byte := []
  /-- Blocks made resident since registration (R86). -/
  count : Nat := 0
  /-- COUNT at which the admission in progress started (B of R86). -/
  startCount : Nat := 0
  /-- Resident blocks: 0 to `resident` − 1. -/
  resident : Nat := 0
  pinned : Bool := false
  failed : Bool := false
  recency : Nat := 0
  deriving DecidableEq, Repr

/-- An admission in fill order (R85, R92). -/
structure Adm where
  model : Nat
  /-- The fill has started. -/
  filling : Bool := false
  waiting : Bool := false
  /-- A read of the image failed translation, data was uncorrectable, or a stream failed (R97). -/
  failed : Option Nat := none
  deriving DecidableEq, Repr

structure Barrel where
  /-- Bytes by frame × 131,072 + offset. -/
  bytes : Tbl Byte := []
  frames : Tbl Frame := []
  models : Tbl Model := []
  nextModel : Nat := 0
  queue : List Adm := []
  clock : Nat := 0
  /-- Models whose frames are freed when their last hold ends (R97). -/
  freeAtHoldEnd : List Nat := []
  /-- MODEL_LOAD descriptors that wait for an admission: descriptor and model. -/
  loads : List (Nat × Nat) := []
  /-- Barrel shares taken: render pass (its descriptor) and model (R93). -/
  shares : List (Nat × Nat) := []
  deriving DecidableEq, Repr

/-! ## Chapters 03, 04: the Great Wheel -/

/-- How far an issued operation has come (R72, R44). -/
inductive GwPhase where
  | params      -- checks 1 to 8 passed; arrays and table to be read
  | blocks      -- waits for the blocks of its first slice
  | eligible
  | selected
  | running
  | ended
  deriving DecidableEq, Repr

/-- The place of a stream in an operation (R42): M-tile, slice group, K-pass, slice of the group, vector, wavefront. -/
structure GwPos where
  mt : Nat := 0
  sg : Nat := 0
  p : Nat := 0
  j : Nat := 0
  v : Nat := 0
  sub : Nat := 0
  deriving DecidableEq, Repr

/-- A loaded slice: its place, and its weights by row × columns + column, with its scale bytes by column × 16 + block. -/
structure Slice where
  mt : Nat
  sg : Nat
  p : Nat
  j : Nat
  elems : List Nat
  scales : List Nat
  deriving DecidableEq, Repr

/-- An operation on its way through the Great Wheel. -/
structure GwOp where
  /-- The WHEEL_OP descriptor, or none for a network-pass issue. -/
  desc : Option Nat := none
  /-- The render pass, unit, network entry and position in the pass of an issue. -/
  pass : Nat := 0
  unit : Nat := 0
  entry : Nat := 0
  jpos : Nat := 0
  ctx : Nat
  ring : Nat
  model : Nat
  opIndex : Nat
  oprec : List Byte := []
  m : Nat := 0
  aAddr : Nat := 0
  outAddr : Nat := 0
  aScale : Nat := 0
  aStride : Nat := 0
  outStride : Nat := 0
  compl : Nat := 0
  tiles : List Nat := []
  phase : GwPhase := .params
  eligAt : Nat := 0
  scales : List Word := []
  biases : List Word := []
  act : Option (List Word) := none
  /-- Failures met (R429). -/
  fails : List Nat := []
  /-- The refusal or final status when decided before its run. -/
  refusal : Option Nat := none
  sat : Nat := 0
  inFlush : Nat := 0
  outFlush : Nat := 0
  nan : Nat := 0
  w : Nat := 0
  stallFeed : Nat := 0
  stallOut : Nat := 0
  stallLoad : Nat := 0
  /-- Vectors run. -/
  ran : Nat := 0
  groups : Nat := 0
  /-- Slices whose outputs are undefined, as (slice group, slice of the group) (R98). -/
  badCols : List (Nat × Nat) := []
  /-- Logical groups found faulty during the operation (R50). -/
  badGroups : List Nat := []
  pos : GwPos := {}
  /-- Empty wavefronts to run before the next vector (R45). -/
  gap : Nat := 0
  /-- L0 of R45, as selection found it. -/
  l0 : Nat := 0
  /-- Blocks of the model that its first slice needs resident, counted from block 0. -/
  need : Nat := 0
  /-- Every vector has entered; the drain runs. -/
  drained : Bool := false
  /-- The first vector of the last slice has entered (R44). -/
  lastSlice : Bool := false
  /-- Second feed handshake of R67 owed by the next vector. -/
  fed : Bool := false
  /-- The last slice load is complete (R91). -/
  loadsDone : Bool := false
  shadow : Option Slice := none
  active : Option Slice := none
  /-- The Totalizer: sums by vector of the M-tile × 131,072 + logical column. -/
  tot : Tbl (Num × Bool) := []
  deriving DecidableEq, Repr

structure Gw where
  ops : Tbl GwOp := []
  nextOp : Nat := 0
  run : Option Nat := none
  sel : Option Nat := none
  clock : Nat := 0
  /-- Next logical group to be pattern-tested (R49). -/
  testGroup : Nat := 0
  /-- Faulty logical groups that await repair. -/
  faulty : List Nat := []
  /-- Wavefronts stepped since the last rate sample. -/
  stepped : Nat := 0
  /-- What the current wavefront waits on: 0 nothing, 1 feed, 2 output path, 3 slice load. -/
  stall : Nat := 0
  deriving DecidableEq, Repr

/-! ## Chapter 16: the Deflate engine -/

/-- A Deflate lane (R288, R299) and the stream it holds. -/
structure Lane where
  retired : Bool := false
  dbl : Bool := false
  /-- The job running, by descriptor. -/
  job : Option Nat := none
  /-- An open stream: its context and tag. -/
  isOpen : Bool := false
  ctx : Nat := 0
  tag : Nat := 0
  opcode : Nat := 0
  framing : Nat := 0
  /-- Decompression: the stream's input so far. Compression: its uncompressed data so far. -/
  seen : List Byte := []
  /-- Compression: bytes of `seen` that are coded; decompression: bytes of output written. -/
  coded : Nat := 0
  /-- Compression: bits of a final partial byte, and bits written since the stream began. -/
  partialBits : List Bool := []
  bitPos : Nat := 0
  /-- DYNAMIC of the job in which the present block began. -/
  dyn : Bool := false
  /-- The header has been written. -/
  begun : Bool := false
  deriving DecidableEq, Repr

/-- A Deflate job past its checks. -/
structure DfJob where
  desc : Nat
  ctx : Nat
  ring : Nat
  opcode : Nat
  framing : Nat
  dyn : Bool
  first : Bool
  last : Bool
  tag : Nat
  inBytes : Nat
  inAddr : Nat
  outAddr : Nat
  outBytes : Nat
  listCount : Nat
  listAddr : Nat
  compl : Nat
  lane : Option Nat := none
  /-- Waits on the device-wide stream limit (R288). -/
  opening : Bool := false
  age : Nat := 0
  deriving DecidableEq, Repr

structure Df where
  lanes : Tbl Lane := []
  jobs : Tbl DfJob := []
  clock : Nat := 0
  deriving DecidableEq, Repr


/-! ## Chapter 08: the Pinions -/

/-- A Pinion position, by 9t + position. Positions 0 to 7 of a train are active, position 8 is the hot spare of the
trains that have one (R144). -/
structure Pinion where
  retired : Bool := false
  /-- A double-bit error has shown (R168). -/
  dbl : Bool := false
  /-- It drains for a pattern test, or is under test (R168, R169). -/
  draining : Bool := false
  /-- A hot spare that has become active (R170). -/
  promoted : Bool := false
  deriving DecidableEq, Repr

/-- A beat of 32 lanes (R156, R157). -/
structure Beat where
  /-- Index of the next instruction in the code. -/
  pc : Nat := 0
  /-- Active mask A. -/
  active : Nat := 0
  /-- Lanes that reached END, and lanes of uncovered pixels (R150). -/
  ended : Nat := 0
  helpers : Nat := 0
  /-- Predicates P1 to P7 written so far. -/
  preds : Tbl Nat := []
  /-- Registers written so far, by 32 × register + lane. -/
  regs : Tbl Word := []
  /-- Draw of the free values that registers and predicates not yet written hold. -/
  seed : Nat := 0
  stack : List Nat := []
  atBar : Bool := false
  /-- Waits at EVWAIT, MALLOC or MFREE. -/
  waiting : Bool := false
  /-- Frame x, frame y and covered sample mask of each lane of a fragment beat. -/
  frag : List (Nat × Nat × Nat) := []
  deriving DecidableEq, Repr

inductive WgPhase where
  | queued | resident | done
  deriving DecidableEq, Repr

/-- A workgroup: of a dispatch, a vertex batch or fragment work. -/
structure Wg where
  /-- 0 compute, 1 vertex, 2 fragment. -/
  kind : Nat
  /-- The descriptor that owns it, with its context, ring and engine. -/
  owner : Nat
  ctx : Nat
  ring : Nat
  eng : Nat
  /-- Its workgroup coordinates. -/
  xyz : Nat × Nat × Nat := (0, 0, 0)
  vregs : Nat
  /-- Local store in units of 512 bytes. -/
  loc : Nat := 0
  code : Nat
  codeBytes : Nat
  const : Nat
  fg : Bool := false
  noSteal : Bool := false
  /-- Trains that may run it. -/
  trains : Nat := 0xFFF
  aff : Nat
  phase : WgPhase := .queued
  train : Nat := 0
  pos : Nat := 0
  admitted : Nat := 0
  mem : Tbl Byte := []
  beats : List Beat
  deriving DecidableEq, Repr

/-- A dispatch past its checks (R151 to R153). -/
structure Disp where
  ctx : Nat
  ring : Nat
  vregs : Nat
  loc : Nat
  code : Nat
  codeBytes : Nat
  wgx : Nat
  wgy : Nat
  wgz : Nat
  const : Nat
  gx : Nat
  gy : Nat
  gz : Nat
  affMode : Nat
  affStep : Nat
  affBase : Nat
  noSteal : Bool
  fg : Bool
  trains : Nat
  compl : Nat
  /-- The next workgroup to be expanded. -/
  next : Nat := 0
  ended : Nat := 0
  stolen : Nat := 0
  ticks : Nat := 0
  deriving DecidableEq, Repr

structure Pn where
  pinions : Tbl Pinion := []
  disps : Tbl Disp := []
  wgs : Tbl Wg := []
  nextWg : Nat := 0
  admClock : Nat := 0
  /-- Vertex batches placed so far, for their affinity. -/
  vertexSeq : Nat := 0
  /-- Device time plus 1 since which a Pinion's own queue has held no admissible compute workgroup (R154). -/
  idleSince : Tbl Nat := []
  /-- Next Pinion to be pattern-tested (R169). -/
  testNext : Nat := 0
  deriving DecidableEq, Repr

/-! ## Chapter 10: the device-side allocator -/

/-- A request to a context's allocator (R197): from a descriptor, or from a lane of a beat. -/
structure AllocReq where
  ctx : Nat
  /-- The descriptor, or the workgroup and beat. -/
  desc : Option Nat
  wg : Nat := 0
  beat : Nat := 0
  lane : Nat := 0
  /-- Data and address registers of MALLOC. -/
  dst : Nat := 0
  isFree : Bool
  arg : Nat
  deriving DecidableEq, Repr

structure Alloc where
  /-- Requests in the order in which they arrived. -/
  queue : List AllocReq := []
  deriving DecidableEq, Repr

/-! ## Chapter 07: the tiled raster pipeline -/

/-- A clip-space or frame-space vertex: FP32 words x, y, z, w (or 1/w) and its varyings. -/
structure Vtx where
  pos : List Word
  vary : List Word
  deriving DecidableEq, Repr

/-- A BIN_PASS open on the Binner (R121, R124 to R129). -/
structure BinPass where
  ctx : Nat
  ring : Nat
  tile : Nat
  segEvent : Nat
  relEvent : Nat
  frameW : Nat
  frameH : Nat
  stateTable : Nat
  heap : Nat
  heapBytes : Nat
  draws : List (List Byte)
  /-- State records by index. -/
  states : Tbl (List Byte)
  segBase : Nat
  relBase : Nat
  parked : Bool := false
  /-- Segment being filled. -/
  seg : Nat := 0
  /-- Next draw, instance and primitive to be batched. -/
  draw : Nat := 0
  inst : Nat := 0
  prim : Nat := 0
  /-- The batch in progress: its draw and instance, distinct vertices with their indices, primitives not yet binned
  as (number, vertex positions), its workgroups, and the shaded vertices once they are collected. -/
  bDraw : Nat := 0
  bInst : Nat := 0
  bVerts : List Nat := []
  bPrims : List (Nat × List Nat) := []
  bWgs : List Nat := []
  shaded : Option (List Vtx) := none
  /-- The segment: bytes of chunks used, bytes of records used, primitive records, and tile lists as
  (first, last, count). -/
  chunkBytes : Nat := 0
  recBytes : Nat := 0
  prims : Nat := 0
  verts : Nat := 0
  lists : Tbl (Nat × Nat × Nat) := []
  /-- Vertex record of each shaded vertex already written in this segment. -/
  written : Tbl Nat := []
  triIn : Nat := 0
  culled : Nat := 0
  entries : Nat := 0
  age : Nat := 0
  deriving DecidableEq, Repr

/-- Where the records of a heap's closed segment lie (assumption log 24). -/
structure SegMap where
  ctx : Nat
  heap : Nat
  prims : List Nat
  /-- Offsets from the heap's base, with the varyings of each. -/
  verts : List (Nat × Nat)
  deriving DecidableEq, Repr

/-- Where a render pass stands. -/
inductive RPhase where
  | tables | share | claim | open | run | drain | close
  deriving DecidableEq, Repr

/-- A render pass (R122, R129 to R131). -/
structure RPass where
  ctx : Nat
  ring : Nat
  lead : Nat
  hsr : Nat
  tile : Nat
  mask : Nat
  bw : Nat
  heap : Nat
  spill : Nat
  imgs : List (List Byte) := []
  atts : List (List Byte) := []
  nets : List (List Byte) := []
  phase : RPhase := .tables
  gx : Nat := 0
  gy : Nat := 0
  segEvent : Nat := 0
  relEvent : Nat := 0
  segBase : Nat := 0
  relBase : Nat := 0
  stateTable : Nat := 0
  tiles : Nat := 0
  seg : Nat := 0
  final : Bool := false
  nextUnit : Nat := 0
  /-- Units of the segment that have ended; and units whose raster phase, and whose network phase, has ended. -/
  doneUnits : List Nat := []
  rastUnits : List Nat := []
  netUnits : List Nat := []
  /-- Place of the network stream: unit, tile of the unit, entry, operation. -/
  netAt : Nat × Nat × Nat × Nat := (0, 0, 0, 0)
  /-- Rows of each EXTERNAL image released. -/
  relRows : Tbl Nat := []
  partials : Nat := 0
  hsrCulled : Nat := 0
  quads : Nat := 0
  age : Nat := 0
  deriving DecidableEq, Repr

/-- Where the tile of an engine's unit stands (R132). -/
inductive TStage where
  | load | pre | shade | resolve | raster | network | store
  deriving DecidableEq, Repr

/-- Fragment work out on the Pinions: its workgroup, beat and lane, the pixel, and the samples it covers with
their depths. -/
structure FragLane where
  wg : Nat
  beat : Nat
  lane : Nat
  x : Nat
  y : Nat
  /-- Covered samples with their depth words. -/
  samples : List (Nat × Word)
  deriving DecidableEq, Repr

/-- A unit held by a tile engine (R120). -/
structure TUnit where
  pass : Nat
  unit : Nat
  /-- Tile of the unit being worked on. -/
  t : Nat := 0
  stage : TStage := .load
  /-- List entries of the tile still to be shaded. -/
  todo : List Nat := []
  /-- Pre-pass: winning primitive of each sample, by 8 × pixel + sample. -/
  win : Tbl Nat := []
  /-- Fragment work of the present primitive. -/
  frags : List FragLane := []
  wgs : List Nat := []
  curPrim : Nat := 0
  deriving DecidableEq, Repr

structure Raster where
  bins : Tbl BinPass := []
  segs : List SegMap := []
  passes : Tbl RPass := []
  units : Tbl TUnit := []
  clock : Nat := 0
  deriving DecidableEq, Repr
/-! ## Chapter 17: the Crystal -/

/-- Layer state: the record of Table CR-2, the image table entry of a Plate source, and the owner that wrote it. -/
structure Layer where
  bytes : List Byte
  entry : List Byte := []
  ctx : Nat
  deriving DecidableEq, Repr

/-- A layer slot (R303 to R307). -/
structure CrSlot where
  shadow : Option Layer := none
  active : Option Layer := none
  /-- Output on which it is active. -/
  out : Nat := 0
  move : Bool := false
  /-- Its owner is being destroyed: it leaves at the next frame boundary (R314). -/
  dying : Bool := false
  deriving DecidableEq, Repr

/-- A COMMIT armed on an output: its descriptor and the first boundary whose latch may take it (R306). -/
structure Armed where
  desc : Nat
  first : Nat
  deriving DecidableEq, Repr

/-- A COMMIT that is to complete: its status, frame, boundary, underflows and layers (Table CR-3). -/
structure CrDue where
  desc : Nat
  status : Nat
  frame : Nat
  boundary : Nat
  uf : Nat
  layers : Nat
  deriving DecidableEq, Repr

/-- A packet sent on a media port (R319): its port, RTP timestamp, marker, payload type, first payload byte of the
frame, payload and addressing. -/
structure TxPkt where
  port : Nat
  ts : Nat
  marker : Bool
  pt : Nat
  first : Nat
  payload : List Byte
  group : Nat
  srcIp : Nat
  ports : Nat
  ssrc : Nat
  dscp : Nat
  deriving DecidableEq, Repr

/-- An output (R302, R306 to R313, R319). -/
structure CrOut where
  armed : List Armed := []
  /-- Commits taken at the last latch, and commits whose record is to be written. -/
  taken : List Nat := []
  due : List CrDue := []
  /-- Boundary whose latch has been made. -/
  latched : Option Nat := none
  /-- Layers of the frame being sent. -/
  shown : List Layer := []
  running : Bool := false
  /-- Boundary at which the frame being sent began, its next packet, and its blocks already formed: three FP32 words
  of each pixel, by block. -/
  began : Nat := 0
  pkt : Nat := 0
  blocks : Tbl (List Word) := []
  /-- Blocks underflowed in this frame and in the frame before it. -/
  uf : Nat := 0
  ufLast : Nat := 0
  last : Option TxPkt := none
  deriving DecidableEq, Repr

structure Crystal where
  slots : Tbl CrSlot := []
  outs : Tbl CrOut := []
  deriving DecidableEq, Repr

/-! ## Chapter 18: media ports and studio time -/

/-- A frame generator: its next boundary and that boundary's calendar time (R327). -/
structure Gen where
  next : Nat := 0
  due : Nat := 0
  deriving DecidableEq, Repr

/-- An INGEST that its port's engine serves (R322 to R325). -/
structure Ingest where
  desc : Nat
  ctx : Nat
  ring : Nat
  rx : Nat
  dest : Nat
  wide : Bool
  cfa4 : Bool
  cfa : Nat
  strict : Bool
  relEn : Bool
  rowEvent : Nat
  relEvent : Nat
  img : List Byte
  memAddr : Nat
  rowBase : Nat
  relBase : Nat
  compl : Nat
  /-- The frame it takes, once its first packet has arrived, and the capture time. -/
  frame : Option Nat := none
  capture : Nat := 0
  /-- Pixels arrived, one bit a column, by pixel row. -/
  got : Tbl Nat := []
  /-- Packets in the port buffer that wait for a release or a translation. -/
  waiting : List MediaPkt := []
  rows : Nat := 0
  lost : Nat := 0
  ended : Bool := false
  dropped : Bool := false
  deriving DecidableEq, Repr

structure MpPort where
  ingest : Option Ingest := none
  /-- Frame in progress on each receive stream, plus 1. -/
  cur : Tbl Nat := []
  deriving DecidableEq, Repr

structure Media where
  ports : Tbl MpPort := []
  gens : Tbl Gen := []
  /-- Offset still to be slewed away, ns (R326). -/
  slew : Int := 0
  /-- Syncs in a row below 1 µs, and above 10 µs. -/
  near : Nat := 0
  far : Nat := 0
  /-- Device time at which HOLDOVER began, and whether an Announce has been accepted since. -/
  heldAt : Nat := 0
  announced : Bool := false
  deriving DecidableEq, Repr
/-! ## The machine -/

/-- The state of the part. -/
structure State where
  fuse : Fuses := {}
  time : Time := {}
  /-- Every register that holds a value of its own, by BAR0 offset; an unlisted one holds its reset value. -/
  regs : Tbl Word := []
  /-- 64-bit counters shown by a LO and HI register pair, by the offset of LO. -/
  wide : Tbl Nat := []
  fns : Tbl Fn := []
  mem : Mem := {}
  esc : Esc := {}
  evs : Events := {}
  ctxs : Tbl Ctx := []
  tu : Tu := {}
  ca : Cache := {}
  rg : Rg := {}
  sched : Sched := {}
  hl : Hl := {}
  nl : Nl := {}
  pk : Pk := {}
  bu : Bu := {}
  er : Er := {}
  ch : Chrono := {}
  df : Df := {}
  pl : Plate := {}
  ba : Barrel := {}
  gw : Gw := {}
  pn : Pn := {}
  al : Alloc := {}
  ra : Raster := {}
  cr : Crystal := {}
  mp : Media := {}
  /-- The model's own counter of free values drawn (assumption log 3). -/
  free : Nat := 0
  /-- Commands waiting, first in, first out. -/
  pending : List Instr := []
  deriving DecidableEq, Repr

/-- The machine right after power-on reset, before bring-up: every field at its reset value. -/
def State.reset : State := {}

end Sys2Proof.Machine
end

