-- ==== Sys2Proof/Machine/Ops.lean ====
section
/-! DEFINITION. The operations every family is written over: sparse tables, registers, time, free
values, memory bytes, the Chronograph, function and context fences, records on events. -/

namespace Sys2Proof.Machine

/-! ### Sparse tables -/

/-- What key `i` reads as; `d` where it is not listed. -/
def tget {α : Type} (d : α) : Tbl α → Nat → α
  | [], _ => d
  | (k, v) :: t, i => if i = k then v else tget d t i

/-- The entry at key `i`, if one is listed. -/
def tfind {α : Type} : Tbl α → Nat → Option α
  | [], _ => none
  | (k, v) :: t, i => if i = k then some v else tfind t i

/-- The table without key `i`. -/
def tdel {α : Type} : Tbl α → Nat → Tbl α
  | [], _ => []
  | (k, v) :: t, i => if i = k then tdel t i else (k, v) :: tdel t i

/-- The table with key `i` holding `v`, kept in rising order. -/
def tset {α : Type} : Tbl α → Nat → α → Tbl α
  | [], i, v => [(i, v)]
  | (k, w) :: t, i, v =>
    if i < k then (i, v) :: (k, w) :: t
    else if i = k then (i, v) :: t
    else (k, w) :: tset t i v

/-- The table with key `i` reading as `v`, canonical for the default `d`. -/
def tput {α : Type} [DecidableEq α] (d : α) (t : Tbl α) (i : Nat) (v : α) : Tbl α :=
  if v = d then tdel t i else tset t i v

/-- Keys strictly rise from `lo` on. -/
def tSorted {α : Type} : Nat → Tbl α → Bool
  | _, [] => true
  | lo, (k, _) :: t => decide (lo ≤ k) && tSorted (k + 1) t

/-- The canonical form: keys strictly rising, no entry equal to the default. -/
def tWf {α : Type} [DecidableEq α] (d : α) (t : Tbl α) : Bool :=
  tSorted 0 t && t.all (fun p => decide (p.2 ≠ d))

/-- The lowest number from `i` on, among `n`, of which `p` holds. -/
def firstFrom (p : Nat → Bool) (i : Nat) : Nat → Option Nat
  | 0 => none
  | n + 1 => if p i then some i else firstFrom p (i + 1) n

/-- R190, R219: the next number from `start` on, ascending and wrapping at `n`, of which `p` holds. -/
def nextWrap (p : Nat → Bool) (start n : Nat) : Option Nat :=
  firstFrom p start (n - start) <|> firstFrom p 0 start

/-! ### Little-endian bytes (R5) -/

/-- The number that bytes hold, lowest first. -/
def leNat : List Byte → Nat
  | [] => 0
  | b :: bs => b.toNat + 256 * leNat bs

/-- The `n` low bytes of a number, lowest first. -/
def toLe (x : Nat) : Nat → List Byte
  | 0 => []
  | n + 1 => BitVec.ofNat 8 x :: toLe (x / 256) n

/-- The value of `n` bytes at offset `off` of a byte string. -/
def leAt (b : List Byte) (off n : Nat) : Nat := leNat ((b.drop off).take n)

/-- Byte string padded with zeros, or cut, to `n` bytes. -/
def padTo (n : Nat) (b : List Byte) : List Byte := b.take n ++ List.replicate (n - b.length) 0

/-- `n` bytes of a store from address `a` on. -/
def memRd (t : Tbl Byte) (a : Nat) : Nat → List Byte
  | 0 => []
  | n + 1 => tget 0 t a :: memRd t (a + 1) n

/-- A store with bytes written from address `a` on. -/
def memWr (t : Tbl Byte) (a : Nat) : List Byte → Tbl Byte
  | [] => t
  | b :: bs => memWr (tput 0 t a b) (a + 1) bs

/-! ### Registers (R5, R7) -/

/-- Identity map of logical groups, three per register field of 5 bits (GW_GROUP_MAPi). -/
def groupMapWord (map : Nat → Nat) (first n : Nat) : Nat :=
  (List.range n).foldl (fun w i => w + (map (first + i)) <<< (5 * i)) 0

/-- Reset values that the fuses, or a load at reset, fix. -/
def fuseReset (v : Variant) (off : Nat) : Option Nat :=
  let act := Config.gwActive v
  let ident := fun l => if l < act then l else 0x1F
  if off = Reg.GLOBAL_VARIANT then some (0x100000 + Config.part v)
  else if off = Reg.GLOBAL_UNITS then
    some ((b2n (Config.dfPresent v)) <<< 31 + (Config.crOutputs v) <<< 24 + (Config.nlPorts v / 2) <<< 20 +
      (Config.trains v) <<< 16 + (Config.pnActive v) <<< 8 + (Config.hbmStacks v) <<< 5 + act)
  else if off = Reg.GW_CAPS then some (512 <<< 16 + (Config.gwEnabled v) <<< 5 + 19)
  else if off = Reg.GW_SPARE_USE then some (act <<< 15 + (Config.gwEnabled v - act) <<< 10)
  else if off = Reg.GW_GROUP_MAP0 then some (groupMapWord ident 0 6)
  else if off = Reg.GW_GROUP_MAP1 then some (groupMapWord ident 6 6)
  else if off = Reg.GW_GROUP_MAP2 then some (groupMapWord ident 12 4)
  else if off = Reg.GW_GROUP_HEALTH then some (2 ^ 19 - 2 ^ (Config.gwEnabled v))
  else if off = Reg.BA_CAPS then some ((Config.frames v) <<< 16 + Config.baBanks v)
  else if off = Reg.BA_HEALTHY then some (Config.frames v)
  else if off = Reg.PL_CAPS then some ((16 * Config.granules v) <<< 16 + (Config.granules v) <<< 8 + Config.plGroups v)
  else if off = Reg.PL_HEALTHY then some (Config.granules v)
  else if off = Reg.PL_FREE then some (Config.granules v)
  else if off = Reg.BN_CAPS then some (((regRow Reg.BN_CAPS).map (·.reset)).getD 0 + Config.trains v)
  else if off = Reg.PN_CAPS then some ((Config.trains v) <<< 20 + 9 <<< 16 + (Config.pnActive v + Config.pnSpares v) <<< 8 + 108)
  else if off = Reg.PN_ACTIVE then some ((Config.pnSpares v) <<< 16 + Config.pnActive v)
  else if off = Reg.ESC_CAPS then some ((Config.escapements v) <<< 16 + 1024)
  else if off = Reg.CA_CAPS then some (16 <<< 16 + 16 <<< 8 + Config.caSets v / 64)
  else if off = Reg.CR_CAPS then some (((regRow Reg.CR_CAPS).map (·.reset)).getD 0 + Config.crOutputs v)
  else if off = Reg.NL_CAPS then some (64 <<< 16 + 4 <<< 8 + Config.nlPorts v)
  else if off = Reg.GLOBAL_PINS then some 0xFF
  else if off = Reg.RS_CAUSE then some (0x80 <<< 16 + 8)
  else if Reg.PN_HEALTH0 ≤ off ∧ off ≤ Reg.PN_HEALTH3 ∧ off % 4 = 0 then
    some ((List.range 32).foldl (fun m k =>
      let n := 8 * (off - Reg.PN_HEALTH0) + k
      m + b2n (decide (n < 108) && !(decide (n / 9 < Config.trains v) &&
        (decide (n % 9 < 8) || decide (n / 9 < Config.pnSpares v)))) <<< k) 0)
  else if (RegRow.mk 0x00A00100 0x10 12 0 1 0 0 0 0 0 0 false).covers off then
    let t := (off - 0x00A00100) / 0x10
    some ((if t < Config.pnSpares v then 8 else 15) <<< 19 + 8)
  else none

/-- The value a register holds at reset. -/
def regReset (v : Variant) (off : Nat) : Word :=
  match fuseReset v off with
  | some x => BitVec.ofNat 32 x
  | none => match regRow off with
    | some r => BitVec.ofNat 32 r.reset
    | none => 0

/-- The value held by the register at a BAR0 offset. -/
def getReg (s : State) (off : Nat) : Word :=
  match tfind s.regs off with
  | some w => w
  | none => regReset s.fuse.variant off

/-- The state with a value held by the register at a BAR0 offset. -/
def putReg (s : State) (off : Nat) (w : Word) : State :=
  { s with regs := tput (regReset s.fuse.variant off) s.regs off w }

/-- A field of a register. -/
def rfld (s : State) (off lo len : Nat) : Nat := bits (getReg s off) lo len

/-- One bit of a register. -/
def rbit (s : State) (off i : Nat) : Bool := bit (getReg s off) i

/-- The part sets a field of a register. -/
def setFld (s : State) (off lo len v : Nat) : State := putReg s off (setBits (getReg s off) lo len v)

/-- The part sets or clears one bit of a register. -/
def setFlag (s : State) (off i : Nat) (b : Bool) : State := setFld s off i 1 (b2n b)

/-- The part adds to a counter of `len` bits in bits `[len-1:0]` of a register, saturating. -/
def countReg (s : State) (off len n : Nat) : State :=
  setFld s off 0 len (satTo (2 ^ len - 1) (rfld s off 0 len + n))

/-- The 64-bit count behind a LO and HI pair. -/
def getWide (s : State) (lo : Nat) : Nat := tget 0 s.wide lo

/-- The part adds to a 64-bit count, modulo 2^64. -/
def addWide (s : State) (lo n : Nat) : State :=
  { s with wide := tput 0 s.wide lo ((getWide s lo + n) % 2 ^ 64) }

/-! ### Time and free values -/

/-- A periodic happening is due: `every` ns have passed since it last took place. -/
def isDue (s : State) (id every : Nat) : Bool := decide (tget 0 s.time.last id + every ≤ s.time.dev)

/-- A periodic happening took place now. -/
def markDone (s : State) (id : Nat) : State :=
  { s with time := { s.time with last := tput 0 s.time.last id s.time.dev } }

/-- Calendar time modulo 2^64, as records and registers show it. -/
def calTime (s : State) : Nat := s.time.cal % 2 ^ 64

/-- The next free value of `w` bits (assumption log 3). -/
def drawFree (s : State) (w : Nat) : BitVec w × State := (Config.freeBits w s.free, { s with free := s.free + 1 })

/-! ### Functions and contexts -/

def fnOf (s : State) (n : Nat) : Fn := tget {} s.fns n
def setFn (s : State) (n : Nat) (f : Fn) : State := { s with fns := tput {} s.fns n f }
def ctxOf (s : State) (c : Nat) : Ctx := tget {} s.ctxs c
def setCtx (s : State) (c : Nat) (x : Ctx) : State := { s with ctxs := tput {} s.ctxs c x }
def evOf (s : State) (e : Nat) : Ev := tget {} s.evs.ev e
def setEv (s : State) (e : Nat) (x : Ev) : State := { s with evs := { s.evs with ev := tput {} s.evs.ev e x } }

/-- GLOBAL_READY (one READY bit per function). -/
def readyMask (s : State) : Nat :=
  (List.range 19).foldl (fun m n => m + b2n (fnOf s n).ready <<< n) 0

/-- ER_FN_FENCED: bit `n` in every state but UP (R396). -/
def fencedMask (s : State) : Nat :=
  (List.range 19).foldl (fun m n => m + b2n ((fnOf s n).st != .up) <<< n) 0

/-- A function is fenced (R398: FENCING, FENCED or RESTORING). -/
def fnFenced (s : State) (n : Nat) : Bool := (fnOf s n).st != .up

/-- A function is being brought up (R383). A Regulator that is frozen or reloading is not (R404). -/
def fnNotReady (s : State) (n : Nat) : Bool :=
  !(fnOf s n).ready && (fnOf s n).st == .up && !(n == Fun.REGULATOR && (s.er.recov.isSome || s.er.heldFrozen))

/-- The function of an engine of Table RD-1. -/
def engFn (e : Nat) : Nat :=
  if e = 0 then Fun.GREAT_WHEEL else if e = 1 then Fun.BINNER else if e = 2 then Fun.PINIONS
  else if e = 3 then Fun.DEFLATE else if e = 4 then Fun.CRYSTAL else if e ≤ 8 then Fun.MEDIA else Fun.TILE_ENGINES

/-- The train of a tile engine is fenced as one instance (R170). -/
def trainFenced (s : State) (e : Nat) : Bool := decide (16 ≤ e) && rbit s Reg.ER_TRAIN_FENCED (e - 16)

/-- R397: the fence that stops work of an engine: its function, the Escapements, events and Translation Unit. -/
def engineFence (s : State) (e : Nat) : Option (Nat × Nat) :=
  let cand := ([engFn e, Fun.ESCAPEMENTS, Fun.EVENTS, Fun.TRANSLATION].filter (fnFenced s)).map
    (fun n => ((fnOf s n).fencedAt, St.FN_FENCED n))
  let cand := if trainFenced s e then cand ++ [(0, St.FN_FENCED Fun.TILE_ENGINES)] else cand
  cand.foldl (fun b x => match b with
    | none => some x
    | some y => if x.1 < y.1 then some x else some y) none

/-- Table ER-7: the status of the fence in force on work of a context and engine, the earlier of the two. -/
def fenceStatus (s : State) (c e : Nat) : Option Nat :=
  let x := ctxOf s c
  match engineFence s e with
  | none => if x.st = .active then none else some St.CTX_FENCED
  | some (t, st) => if x.st = .active then some st else if t < x.fencedAt then some st else some St.CTX_FENCED

/-! ### The Chronograph (R413 to R417) -/

/-- R417: a bucket refilled at calendar time `now`. -/
def refill (b : Bucket) (now : Nat) : Bucket :=
  if now ≤ b.since then { b with since := now }
  else { b with nanoTokens := satTo 16000000000 (b.nanoTokens + b.rate * (now - b.since)), since := now }

/-- R413: a record written to the circulating store, and to the permanent store while that has room. -/
def storeRec (s : State) (r : Rec) : State :=
  let c := s.ch
  let perm := decide (c.perm.length < 4096)
  let r := { r with seq := c.nextSeq, perm := perm }
  let circ := c.circ ++ [r]
  let circ := if circ.length > 16384 then circ.drop 1 else circ
  let s := { s with ch := { c with circ := circ, nextSeq := c.nextSeq + 1, perm := if perm then c.perm ++ [r] else c.perm } }
  let s := if perm && c.perm.length + 1 == 3072 then setFlag s Reg.CH_IRQ 0 true else s
  if perm && c.perm.length + 1 == 4096 then setFlag s Reg.CH_IRQ 1 true else s

/-- R417: a record that arises, accepted or suppressed by its code's bucket. -/
def acceptRec (s : State) (r : Rec) : State :=
  if r.code < 0x10 then storeRec s r
  else
    let b := refill (tget {} s.ch.buckets r.code) r.time
    let free := b.rate == 0xFFFFFFFF
    if b.rate ≠ 0 && (free || decide (1000000000 ≤ b.nanoTokens)) then
      let b' := { b with nanoTokens := if free then b.nanoTokens else b.nanoTokens - 1000000000, pending := 0 }
      let s := if b.pending = 0 then s else
        storeRec s { time := r.time, code := Chr.SUPPRESSED, tsrc := r.tsrc,
                     arg0 := BitVec.ofNat 64 (r.code + b.pending <<< 32), arg1 := BitVec.ofNat 64 b.firstTime }
      let s := { s with ch := { s.ch with buckets := tput {} s.ch.buckets r.code b' } }
      storeRec s r
    else
      let b' := { b with pending := satTo 0xFFFFFFFF (b.pending + 1), firstTime := if b.pending = 0 then r.time else b.firstTime }
      let s := { s with ch := { s.ch with buckets := tput {} s.ch.buckets r.code b' } }
      setFlag (countReg s Reg.CH_SUPPRESSED 32 1) Reg.CH_IRQ 2 true

/-- A record arises: stamped with calendar time (R416), held by the Remontoire while the Chronograph is not
READY (R382), up to 16 of them, and counted as suppressed beyond. -/
def chrono (s : State) (code : Nat) (ctx : Option Nat) (fn arg0 arg1 : Nat) : State :=
  let rdy := (fnOf s Fun.CHRONOGRAPH).ready
  let r : Rec := { time := calTime s, code := code, tsrc := rdy && rbit s Reg.TM_STATUS 3,
                   ctxValid := ctx.isSome, ctx := ctx.getD 0, fn := fn,
                   arg0 := BitVec.ofNat 64 arg0, arg1 := BitVec.ofNat 64 arg1 }
  if rdy then acceptRec s r
  else if s.ch.held.length < 16 then { s with ch := { s.ch with held := s.ch.held ++ [r] } }
  else
    let b := tget {} s.ch.buckets code
    let b := { b with pending := satTo 0xFFFFFFFF (b.pending + 1), firstTime := if b.pending = 0 then r.time else b.firstTime }
    countReg { s with ch := { s.ch with buckets := tput {} s.ch.buckets code b } } Reg.CH_SUPPRESSED 32 1

/-! ### Packets onto the fabric (R345, R350, R351) -/

/-- This device's number: 0 while it is no member (R227, R348). -/
def devNum (s : State) : Nat := if s.nl.member then s.nl.dev else 0

def portOf (s : State) (p : Nat) : Port := tget {} s.nl.ports p
def setPort (s : State) (p : Nat) (x : Port) : State := { s with nl := { s.nl with ports := tput {} s.nl.ports p x } }

/-- Payload bytes of a packet (R343). -/
def pktPayload : Pkt → Nat
  | .write _ _ d => d.length
  | .atomic _ _ _ d => d.length
  | .response _ _ d => d.length
  | .mcRequest w => 4 * w.length
  | .mcResponse w => 4 * w.length
  | _ => 0

/-- Flits of a packet: a header of 16 bytes and its payload, padded to flits of 32 bytes (R343). -/
def pktFlits (k : Packet) : Nat := ceilDiv (16 + pktPayload k.body) 32

/-- R344, R345: of the packets waiting on a port, those that the credits of their channels let go, oldest first on each
channel; the rest; and the credits left. -/
def pump (blocked : List Nat) (credits : List Nat) : List Packet → List Packet × List Packet × List Nat
  | [] => ([], [], credits)
  | k :: t =>
    let c := credits.getD k.vc 0
    if blocked.contains k.vc || decide (c < pktFlits k) then
      let r := pump (k.vc :: blocked) credits t
      (r.1, k :: r.2.1, r.2.2)
    else
      let r := pump blocked (credits.set k.vc (c - pktFlits k)) t
      (k :: r.1, r.2.1, r.2.2)

/-- Packets that an up port may send are sent; their payload is counted in NL_TICKS (R359). -/
def sendOut (s : State) (p : Nat) : State :=
  let x := portOf s p
  if x.up = false then s
  else
    let r := pump [] x.credits x.out
    let s := setPort s p { x with out := r.2.1, credits := r.2.2 }
    r.1.foldl (fun s k => addWide { s with nl := { s.nl with tx := (p, k) :: s.nl.tx } } Reg.NL_TICKS_LO (pktPayload k.body)) s

/-- A packet queued on an output port, and sent as credits allow. -/
def queueOut (s : State) (p : Nat) (k : Packet) : State :=
  let x := portOf s p
  sendOut (setPort s p { x with out := x.out ++ [k] }) p

/-- A packet sent by this device to a member: by the bank of its epoch, or held behind its flow's marker; once the
marker of the flow has been echoed, under the new epoch (R350, R351). -/
def sendPkt (s : State) (vc dst : Nat) (body : Pkt) : State :=
  let e := s.nl.epoch.toNat % 2
  let k : Packet := { vc := vc, src := devNum s, dst := dst, epoch := e, body := body }
  let onRoute := fun (bank : Tbl Nat) (k : Packet) => match tfind bank dst with
    | some p => queueOut s p k
    | none => match s.nl.enumPort with
      | some p => if vc = 3 then queueOut s p k else s
      | none => s
  match s.nl.switching with
  | some w =>
    if vc = 3 then onRoute s.nl.active k
    else if w.flows.contains (dst, vc) then { s with nl := { s.nl with held := s.nl.held ++ [k] } }
    else onRoute s.nl.idle { k with epoch := 1 - e }
  | none => onRoute s.nl.active k

/-- A device is lost to this one, or remote traffic is fenced (R354, R356). -/
def devLost (s : State) (d : Nat) : Bool := natBits s.nl.lost d 1 == 1 || s.nl.remoteFenced

/-! ### Device-wide causes (R399) -/

/-- nALARM (pin index 5) is driven low while RM_FAILED, FW_NONE, REGULATOR_DEAD or DATA_LOST holds. -/
def driveAlarm (s : State) : State :=
  setFlag s Reg.GLOBAL_PINS 5 (decide (rfld s Reg.ER_DEVICE 0 4 = 0))

/-- R399: a device-wide cause is raised. -/
def raiseCause (s : State) (b : Nat) : State :=
  let s := setFlag (setFlag s Reg.ER_DEVICE b true) Reg.ER_IRQ 2 true
  driveAlarm (chrono s Chr.DEVICE_CAUSE none 0 b 0)

/-- nREADY (pin index 7) is asserted once both the Regulator and the host link are ready (R367). -/
def driveReady (s : State) : State :=
  if (fnOf s Fun.REGULATOR).ready && (fnOf s Fun.HOST_LINK).ready then setFlag s Reg.GLOBAL_PINS 7 false else s

/-- nREADY is released, at the start of a reset that clears either bit and while nPWR_OK is released (R367). -/
def releaseReady (s : State) : State := setFlag s Reg.GLOBAL_PINS 7 true

/-- A tick of useful work attributed to a context on an engine (R232). -/
def tickFor (s : State) (c e : Nat) : State :=
  if s.evs.ticked.contains (c, e) then s else { s with evs := { s.evs with ticked := s.evs.ticked ++ [(c, e)] } }

/-- The retained settings block has changed; firmware writes it within 10 ms (R390). -/
def retainedDirty (s : State) : State := { s with bu := { s.bu with dirty := true } }

end Sys2Proof.Machine
end

