-- ==== Sys2Proof/Machine/Inflate.lean ====
section
/-! DEFINITION. The Deflate coding of RFC 1951 and the framings of RFC 1950 and RFC 1952 as chapter 16 uses them:
decoding to the bit, the check values, and one block of compression. -/

namespace Sys2Proof.Machine

/-! ### Check values -/

def crcBit (c : BitVec 32) : Nat → BitVec 32
  | 0 => c
  | n + 1 => crcBit (if c.getLsbD 0 then (c >>> 1) ^^^ 0xEDB88320 else c >>> 1) n

/-- CRC-32 of a byte string, from a running value. -/
def crcRun : BitVec 32 → List Byte → BitVec 32
  | c, [] => c
  | c, b :: bs => crcRun (crcBit (c ^^^ b.zeroExtend 32) 8) bs

def crc32 (b : List Byte) : Nat := (~~~(crcRun 0xFFFFFFFF b)).toNat

/-- Adler-32 of a byte string, from running sums. -/
def adlerRun : Nat × Nat → List Byte → Nat × Nat
  | s, [] => s
  | (a, b), x :: xs => adlerRun ((a + x.toNat) % 65521, (b + (a + x.toNat) % 65521) % 65521) xs

def adler32 (b : List Byte) : Nat :=
  let s := adlerRun (1, 0) b
  s.2 * 65536 + s.1

/-! ### Bits and codes -/

/-- The bits of a byte string, the least significant of each byte first. -/
def bitsOf (b : List Byte) : List Bool := (b.map (fun x => (List.range 8).map (fun i => x.getLsbD i))).flatten

/-- The value of bits, least significant first. -/
def bitsNat : List Bool → Nat
  | [] => 0
  | b :: t => b2n b + 2 * bitsNat t

/-- `n` bits as a value, and the rest. -/
def takeBits (n : Nat) (b : List Bool) : Option (Nat × List Bool) :=
  if b.length < n then none else some (bitsNat (b.take n), b.drop n)

/-- Whole bytes of a bit string, the last padded with zeros. -/
def bytesOf (b : List Bool) : Nat → List Byte
  | 0 => []
  | n + 1 => if b = [] then [] else BitVec.ofNat 8 (bitsNat (b.take 8)) :: bytesOf (b.drop 8) n

/-- A canonical code: symbols with their lengths and codes. -/
abbrev Code := List (Nat × Nat × Nat)

def lenCount (lens : List Nat) (l : Nat) : Nat := if l = 0 then 0 else (lens.filter (· == l)).length

/-- First code of each length (RFC 1951, 3.2.2). -/
def firstCode (lens : List Nat) : Nat → Nat
  | 0 => 0
  | l + 1 => (firstCode lens l + lenCount lens l) * 2

def mkCode (lens : List Nat) : Code :=
  (List.range lens.length).filterMap (fun s =>
    let l := lens.getD s 0
    if l = 0 then none
    else some (s, l, firstCode lens l + ((lens.take s).filter (· == l)).length))

/-- Kraft sum in units of 2^-15. -/
def kraft (lens : List Nat) : Nat := lens.foldl (fun a l => if l = 0 then a else a + 2 ^ (15 - l)) 0

/-- Table DF-3: a code set over-subscribed, or incomplete other than a single code where that is allowed. -/
def codeBad (lens : List Nat) (allowSingle : Bool) : Bool :=
  let k := kraft lens
  let used := (lens.filter (· != 0)).length
  decide (2 ^ 15 < k) || (decide (k < 2 ^ 15) && !(allowSingle && decide (used ≤ 1)))

/-- What reading one symbol answers. -/
inductive Sym where
  | ok (s : Nat) (rest : List Bool) | more | bad
  deriving DecidableEq, Repr

/-- One symbol: codes are read most significant bit first. -/
def readSym (c : Code) : Nat → Nat → Nat → List Bool → Sym
  | 0, _, _, _ => .bad
  | _ + 1, _, _, [] => .more
  | f + 1, len, acc, b :: t =>
    let acc := acc * 2 + b2n b
    match c.find? (fun x => x.2.1 == len + 1 && x.2.2 == acc) with
    | some x => .ok x.1 t
    | none => readSym c f (len + 1) acc t

def sym (c : Code) (b : List Bool) : Sym := readSym c 15 0 0 b

def lenBase : List Nat := [3,4,5,6,7,8,9,10,11,13,15,17,19,23,27,31,35,43,51,59,67,83,99,115,131,163,195,227,258]
def lenExtra : List Nat := [0,0,0,0,0,0,0,0,1,1,1,1,2,2,2,2,3,3,3,3,4,4,4,4,5,5,5,5,0]
def distBase : List Nat := [1,2,3,4,5,7,9,13,17,25,33,49,65,97,129,193,257,385,513,769,1025,1537,2049,3073,4097,6145,8193,12289,16385,24577]
def distExtra : List Nat := [0,0,0,0,1,1,2,2,3,3,4,4,5,5,6,6,7,7,8,8,9,9,10,10,11,11,12,12,13,13]
def clOrder : List Nat := [16,17,18,0,8,7,9,6,10,5,11,4,12,3,13,2,14,1,15]

/-- The fixed codes of BTYPE 01. -/
def fixedLit : Code := mkCode (List.replicate 144 8 ++ List.replicate 112 9 ++ List.replicate 24 7 ++ List.replicate 8 8)
def fixedDist : Code := mkCode (List.replicate 30 5)

/-! ### Decoding -/

/-- Where decoding stands. -/
inductive InfSt where
  | run | more | fin | bad (code : Nat)
  deriving DecidableEq, Repr

/-- A decoder: bits not read, output newest first, blocks decoded, stored blocks among them. -/
structure Inf where
  bits : List Bool
  out : List Byte := []
  blocks : Nat := 0
  stored : Nat := 0
  deriving DecidableEq, Repr

/-- A match copied from `d` bytes back. -/
def copyBack (d : Nat) : Nat → List Byte → List Byte
  | 0, o => o
  | n + 1, o => copyBack d n (o.getD (d - 1) 0 :: o)

/-- The symbols of one coded block. -/
def infSyms (lit dist : Code) : Nat → Inf → Inf × InfSt
  | 0, x => (x, .more)
  | f + 1, x =>
    match sym lit x.bits with
    | .more => (x, .more)
    | .bad => (x, .bad St.ILLEGAL_CODE)
    | .ok s r =>
      if s < 256 then infSyms lit dist f { x with bits := r, out := BitVec.ofNat 8 s :: x.out }
      else if s = 256 then ({ x with bits := r }, .run)
      else if 286 ≤ s then (x, .bad St.ILLEGAL_CODE)
      else
        match takeBits (lenExtra.getD (s - 257) 0) r with
        | none => (x, .more)
        | some (e, r) =>
          match sym dist r with
          | .more => (x, .more)
          | .bad => (x, .bad St.ILLEGAL_CODE)
          | .ok d r =>
            if 30 ≤ d then (x, .bad St.ILLEGAL_CODE)
            else match takeBits (distExtra.getD d 0) r with
              | none => (x, .more)
              | some (g, r) =>
                let back := distBase.getD d 0 + g
                if x.out.length < back then (x, .bad St.DISTANCE_TOO_FAR)
                else infSyms lit dist f { x with bits := r, out := copyBack back (lenBase.getD (s - 257) 0 + e) x.out }

/-- Code lengths of a dynamic block: `n` of them, in order. -/
def infLens (cl : Code) (n : Nat) : Nat → List Nat → List Bool → Except InfSt (List Nat × List Bool)
  | 0, _, _ => .error .more
  | f + 1, acc, b =>
    if acc.length = n then .ok (acc, b)
    else match sym cl b with
      | .more => .error .more
      | .bad => .error (.bad St.ILLEGAL_CODE)
      | .ok s r =>
        if s < 16 then infLens cl n f (acc ++ [s]) r
        else
          let (eb, base) := if s = 16 then (2, 3) else if s = 17 then (3, 3) else (7, 11)
          if s = 16 ∧ acc = [] then .error (.bad St.ILLEGAL_CODE)
          else match takeBits eb r with
            | none => .error .more
            | some (e, r) =>
              let k := base + e
              if n < acc.length + k then .error (.bad St.LENGTH_OVERRUN)
              else infLens cl n f (acc ++ List.replicate k (if s = 16 then acc.getLastD 0 else 0)) r

/-- The codes of a dynamic block. -/
def infDyn (b : List Bool) : Except InfSt (Code × Code × List Bool) :=
  match takeBits 14 b with
  | none => .error .more
  | some (h, r) =>
    let hlit := h % 32 + 257
    let hdist := h / 32 % 32 + 1
    let hclen := h / 1024 + 4
    if 286 < hlit ∨ 30 < hdist then .error (.bad St.ILLEGAL_CODE)
    else match takeBits (3 * hclen) r with
      | none => .error .more
      | some (c, r) =>
        let cls := (List.range 19).map (fun s =>
          let i := clOrder.findIdx (· == s)
          if i < hclen then natBits c (3 * i) 3 else 0)
        if codeBad cls false then .error (.bad St.ILLEGAL_CODE)
        else match infLens (mkCode cls) (hlit + hdist) (hlit + hdist + 1) [] r with
          | .error e => .error e
          | .ok (ls, r) =>
            let l := ls.take hlit
            let d := ls.drop hlit
            if codeBad l false || codeBad d true then .error (.bad St.ILLEGAL_CODE)
            else .ok (mkCode l, mkCode d, r)

/-- One stored block's bytes, as many as are there. -/
def infStored : Nat → Inf → Inf × InfSt
  | 0, x => (x, .run)
  | n + 1, x => match takeBits 8 x.bits with
    | none => (x, .more)
    | some (v, r) => infStored n { x with bits := r, out := BitVec.ofNat 8 v :: x.out }

/-- The blocks of a stream; `total` is the number of its bits, for byte alignment. -/
def infBlocks (total : Nat) : Nat → Inf → Inf × InfSt
  | 0, x => (x, .more)
  | f + 1, x =>
    match takeBits 3 x.bits with
    | none => (x, .more)
    | some (h, r) =>
      let last := h % 2 = 1
      let t := h / 2
      let res : Inf × InfSt :=
        if t = 0 then
          let pos := total - r.length
          match takeBits ((8 - pos % 8) % 8) r with
          | none => (x, .more)
          | some (_, r) => match takeBits 32 r with
            | none => (x, .more)
            | some (w, r) =>
              if w % 65536 + w / 65536 ≠ 65535 then (x, .bad St.STORED_LENGTH)
              else
                let y := infStored (w % 65536) { x with bits := r }
                if y.2 = .run then ({ y.1 with stored := y.1.stored + 1 }, .run) else y
        else if t = 1 then infSyms fixedLit fixedDist (r.length + 1) { x with bits := r }
        else if t = 2 then match infDyn r with
          | .error e => (x, e)
          | .ok (l, d, r) => infSyms l d (r.length + 1) { x with bits := r }
        else (x, .bad St.ILLEGAL_CODE)
      match res with
      | (y, .run) =>
        let y := { y with blocks := y.blocks + 1 }
        if last then (y, .fin) else infBlocks total f y
      | y => y

/-- The Deflate data of a raw byte string decoded as far as it goes. -/
def inflate (b : List Byte) : Inf × InfSt :=
  let s := bitsOf b
  infBlocks s.length (s.length + 1) { bits := s }

/-! ### Framing (Table DF-1) -/

/-- Skips a zero-terminated field: bytes taken, or none while it is not all there. -/
def skipZ : List Byte → Option Nat
  | [] => none
  | b :: t => if b = 0 then some 1 else (skipZ t).map (· + 1)

/-- Bytes of the header: `.ok none` while more is needed. -/
def headerLen (framing : Nat) (b : List Byte) : Except Nat (Option Nat) :=
  if framing = 0 then .ok (some 0)
  else if framing = 1 then
    if b.length < 2 then .ok none
    else
      let cmf := leAt b 0 1
      let flg := leAt b 1 1
      if cmf % 16 ≠ 8 ∨ 7 < cmf / 16 ∨ (cmf * 256 + flg) % 31 ≠ 0 ∨ natBits flg 5 1 = 1 then .error St.BAD_FRAMING else .ok (some 2)
  else if b.length < 10 then .ok none
  else if leAt b 0 2 ≠ 0x8B1F ∨ leAt b 2 1 ≠ 8 ∨ leAt b 3 1 / 32 ≠ 0 then .error St.BAD_FRAMING
  else
    let flg := leAt b 3 1
    let n := 10
    let n? : Option Nat := if natBits flg 2 1 = 0 then some n else
      if b.length < n + 2 then none else
      let k := n + 2 + leAt b n 2
      if b.length < k then none else some k
    match n? with
    | none => .ok none
    | some n =>
      let n? := if natBits flg 3 1 = 0 then some n else (skipZ (b.drop n)).map (· + n)
      match n? with
      | none => .ok none
      | some n =>
        let n? := if natBits flg 4 1 = 0 then some n else (skipZ (b.drop n)).map (· + n)
        match n? with
        | none => .ok none
        | some n =>
          if natBits flg 1 1 = 0 then .ok (some n)
          else if b.length < n + 2 then .ok none
          else if leAt b n 2 = crc32 (b.take n) % 65536 then .ok (some (n + 2)) else .error St.CHECK_MISMATCH

/-- Bytes of the trailer. -/
def trailerLen (framing : Nat) : Nat := if framing = 1 then 4 else if framing = 2 then 8 else 0

/-- A big-endian number. -/
def beNat (b : List Byte) : Nat := leNat b.reverse

/-- Trailer written after uncompressed data. -/
def trailerOf (framing : Nat) (data : List Byte) : List Byte :=
  if framing = 1 then (toLe (adler32 data) 4).reverse
  else if framing = 2 then toLe (crc32 data) 4 ++ toLe data.length 4
  else []

/-- Header written before the stream. -/
def headerOf (framing : Nat) : List Byte :=
  if framing = 1 then [0x78, 0x9C] else if framing = 2 then [0x1F, 0x8B, 0x08, 0, 0, 0, 0, 0, 0, 0xFF] else []

/-- What decoding the input of a stream so far answers. -/
structure Unz where
  out : List Byte := []
  /-- Bytes of input used, when the stream has ended; else the byte that holds the fault. -/
  used : Nat := 0
  fin : Bool := false
  err : Nat := 0
  check : Nat := 0
  blocks : Nat := 0
  stored : Nat := 0
  deriving DecidableEq, Repr

/-- R296: the input of a stream so far, decoded within its framing. -/
def unframe (framing : Nat) (b : List Byte) : Unz :=
  match headerLen framing b with
  | .error e => { err := e, used := Nat.min b.length 10 - 1 }
  | .ok none => {}
  | .ok (some h) =>
    let r := inflate (b.drop h)
    let out := r.1.out.reverse
    let pos := h + (8 * (b.length - h) - r.1.bits.length) / 8
    let base : Unz := { out := out, blocks := r.1.blocks, stored := r.1.stored, used := pos }
    match r.2 with
    | .bad e => { base with err := e }
    | .fin =>
      let t := h + ceilDiv (8 * (b.length - h) - r.1.bits.length) 8
      let n := trailerLen framing
      if b.length < t + n then base
      else
        let tr := (b.drop t).take n
        let check := if framing = 1 then beNat tr else leAt tr 0 4
        if tr = trailerOf framing out then { base with fin := true, used := t + n, check := check }
        else { base with err := St.CHECK_MISMATCH, used := t, check := check }
    | _ => base

/-! ### One block of compression (R292) -/

/-- A stored block's bits, at bit position `pos` of the stream. -/
def storedBits (pos : Nat) (data : List Byte) (final : Bool) : List Bool :=
  [final, false, false] ++ List.replicate ((8 - (pos + 3) % 8) % 8) false ++
  bitsOf (toLe data.length 2 ++ toLe (65535 - data.length) 2 ++ data)

/-- A coding of a block that the engine may choose: of the kind asked for, decoding to the block after the
stream's earlier data. -/
def codingOk (dyn : Bool) (prior data : List Byte) (final : Bool) (c : List Bool) : Bool :=
  c.take 3 == [final, !dyn, dyn] &&
  (match infBlocks c.length 2 { bits := c, out := prior.reverse } with
    | (x, st) => x.blocks == 1 && x.bits == [] && x.out == (prior ++ data).reverse && (st == (if final then .fin else .more)))

/-- R292: the bits of one block. The choice of matches and code lengths is a free value (assumption log 5); a block
whose coded size is at least its stored size is stored. Answers the bits and whether the block is stored. -/
def codeBlock (dyn : Bool) (pos : Nat) (prior data : List Byte) (final : Bool) : List Bool × Bool :=
  if final ∧ data = [] ∧ prior = [] then ([true, true, false, false, false, false, false, false, false, false], false)
  else
    let c := Config.deflateBlocks (b2n dyn) prior data final
    let st := storedBits pos data final
    if codingOk dyn prior data final c && decide (c.length < st.length) then (c, false) else (st, true)

end Sys2Proof.Machine
end

