-- ==== Sys2Proof/Machine/Bar.lean ====
section
/-! DEFINITION. Accesses of the host to BAR0 and BAR2: when they are decoded (R333, R339), absent units and unmapped
offsets (R2, R3, R9), and functions being brought up (R383). -/

namespace Sys2Proof.Machine

/-- R333, R339: the part decodes its BARs. -/
def barsOn (s : State) : Bool := s.hl.memSpace && !s.hl.d3 && rbit s Reg.HL_LINK 0

/-- The function whose registers an offset belongs to (Table SC-4); none for blocks that always answer. -/
def blockFn (off : Nat) : Option Nat :=
  let b := off / 2 ^ 20
  if b = 1 then some (if 0x00101F00 ≤ off ∧ off < 0x00102000 then Fun.REMONTOIRE else Fun.REGULATOR)
  else if b = 3 then some Fun.CHRONOGRAPH
  else if b = 4 then some Fun.ESCAPEMENTS
  else if b = 5 then some Fun.EVENTS
  else if b = 6 then some Fun.GREAT_WHEEL
  else if b = 7 then some Fun.BARREL
  else if b = 8 then some Fun.PLATE
  else if b = 9 then some (if off < 0x00901000 then Fun.BINNER else Fun.TILE_ENGINES)
  else if b = 10 then some Fun.PINIONS
  else if b = 11 then some Fun.TRANSLATION
  else if b = 12 then some Fun.SYSTEM_CACHE
  else if b = 13 then some Fun.DEFLATE
  else if b = 14 then some Fun.CRYSTAL
  else if b = 15 then some Fun.MEDIA
  else if b = 16 then some Fun.FABRIC
  else if b = 17 then some Fun.HOST_LINK
  else if b = 19 then some Fun.REMONTOIRE
  else none

/-- The offset lies in instance `k` or above of `n` register groups of `stride` bytes from `base`. -/
def pastInst (off base stride k n : Nat) : Bool := decide (base + stride * k ≤ off) && decide (off < base + stride * n)

/-- R2: the offset belongs to a unit that the variant lacks. -/
def absentOff (v : Variant) (off : Nat) : Bool :=
  (off / 2 ^ 20 == 13 && !Config.dfPresent v) ||
  pastInst off 0x00901000 0x100 (Config.trains v) 12 ||
  pastInst off 0x00A00100 0x10 (Config.trains v) 12 ||
  pastInst off 0x00E00100 0x40 (Config.crOutputs v) 4 ||
  pastInst off 0x01000100 0x10 (Config.nlPorts v) 8 ||
  pastInst off 0x00F01800 0x40 (Config.crOutputs v) 4 ||
  (decide (0x00400400 ≤ off) && decide (off < 0x00400400 + 0x10 * 28) && Config.engineOf v ((off - 0x00400400) / 16) == some false)

/-- R221: the offset lies in the registers of an engine number that Table RD-1 does not list. -/
def noEngine (off : Nat) : Bool := decide (0x00400400 + 0x10 * 9 ≤ off) && decide (off < 0x00400400 + 0x10 * 16)

/-- R3, R55, R100, R118, R143, R172, R184, R221: the offset names a register of the map. -/
def mapped (off : Nat) : Bool := (regRow (off / 4 * 4)).isSome && !noEngine off

/-- R2, R3, R6, R9: an access sets bits of GLOBAL_STATUS, is counted once, and captured while all were clear. -/
def markFault (s : State) (off : Nat) (bs : List Nat) : State :=
  if bs = [] then s
  else
    let s := if rfld s Reg.GLOBAL_STATUS 0 3 = 0 then putReg s Reg.GLOBAL_FAULT_OFFSET (BitVec.ofNat 32 (off % 2 ^ 26)) else s
    countReg (bs.foldl (fun s b => setFlag s Reg.GLOBAL_STATUS b true) s) Reg.GLOBAL_FAULT_COUNT 16 1

/-- The bits of GLOBAL_STATUS that an offset earns: 0 ABSENT_ACCESS, 2 UNMAPPED_ACCESS. -/
def offFaults (v : Variant) (off : Nat) : List Nat := if absentOff v off then [0] else if mapped off then [] else [2]

/-- R383: the registers at an offset do not answer. -/
def offDead (s : State) (off : Nat) : Bool := match blockFn off with
  | some n => fnNotReady s n
  | none => false

/-- A host write to a register at a BAR0 offset: `f` acts where the write reaches it. -/
def hostWr (s : State) (off : Nat) (f : State → State) : State :=
  if barsOn s = false then s
  else if absentOff s.fuse.variant off then markFault s off [0]
  else if offDead s off then s
  else f s

end Sys2Proof.Machine
end

