-- ==== Sys2Proof/Machine/Access.lean ====
section
/-! DEFINITION. Memory accesses of the part: bytes through the system cache (R271 to R275), routing
(R266, R267), translation of context addresses (R256 to R261), fault records decided (R261, R263). -/

namespace Sys2Proof.Machine

/-! ### Physical bytes through the system cache -/

/-- The line of an address held in the main array or the victim cache. -/
def heldLine (s : State) (a : Nat) (host : Bool) : Option Line :=
  let la := a / 128
  match s.ca.lines.find? (fun p => p.2.addr == la && p.2.host == host && !p.2.data.isEmpty) with
  | some p => some p.2
  | none => (s.ca.victim.find? (fun p => p.2.addr == la && p.2.host == host && !p.2.data.isEmpty)).map (·.2)

/-- R274, R275: accesses of a class are looked up. -/
def classOn (s : State) (hc : Bool) : Bool := if hc then rbit s Reg.CA_CLASS_EN 1 else rbit s Reg.CA_CLASS_EN 0

/-- A byte as an access of a class reads it: from the line held, or from memory. -/
def physRd1 (s : State) (hc host : Bool) (a : Nat) : Byte :=
  let m := if host then tget 0 s.mem.host a else tget 0 s.mem.dev a
  if classOn s hc then
    match heldLine s a host with
    | some l => l.data.getD (a % 128) 0
    | none => m
  else m

/-- Bytes as an access of a class reads them. -/
def physRd (s : State) (hc host : Bool) (a : Nat) : Nat → List Byte
  | 0 => []
  | n + 1 => physRd1 s hc host a :: physRd s hc host (a + 1) n

/-- A write of bytes into memory itself; a device line wholly written loses its poison (R400). -/
def memStore (s : State) (host : Bool) (a : Nat) (d : List Byte) : State :=
  if host then { s with mem := { s.mem with host := memWr s.mem.host a d } }
  else { s with mem := { s.mem with
    dev := memWr s.mem.dev a d
    poison := s.mem.poison.filter (fun l => !(decide (a ≤ l * 128) && decide (l * 128 + 128 ≤ a + d.length))) } }

/-- Data of a line with bytes written at address `a`. -/
def linePut (l : Line) (a : Nat) (d : List Byte) : Line :=
  { l with
    data := (List.range 128).map (fun i =>
      let x := l.addr * 128 + i
      if a ≤ x ∧ x < a + d.length then d.getD (x - a) 0 else l.data.getD i 0)
    dirty := true
    poison := l.poison && !(decide (a ≤ l.addr * 128) && decide (l.addr * 128 + 128 ≤ a + d.length)) }

/-- R277: a write is performed once every train that the directory lists for its lines has given them up; an entry
whose invalidation a command carries stays. -/
def dropDir (s : State) (host : Bool) (a n : Nat) : State :=
  { s with ca := { s.ca with dir := s.ca.dir.filter (fun p =>
      !(p.2.host == host && p.2.invSent == 0 && decide (p.2.addr * 128 < a + n) && decide (a < p.2.addr * 128 + 128))) } }

/-- A write of bytes by an access of a class: into the lines held, and into memory where no line is held. -/
def physWr (s : State) (hc host : Bool) (a : Nat) (d : List Byte) : State :=
  let s := dropDir s host a d.length
  let hit := fun (l : Line) => l.host == host && !l.data.isEmpty && decide (l.addr * 128 < a + d.length) && decide (a < l.addr * 128 + 128)
  if classOn s hc && (s.ca.lines.any (fun p => hit p.2) || s.ca.victim.any (fun p => hit p.2)) then
    let upd := fun (p : Nat × Line) => if hit p.2 then (p.1, linePut p.2 a d) else p
    let inLine := fun x => s.ca.lines.any (fun p => p.2.host == host && !p.2.data.isEmpty && p.2.addr == x / 128) ||
      s.ca.victim.any (fun p => p.2.host == host && !p.2.data.isEmpty && p.2.addr == x / 128)
    let t := if host then s.mem.host else s.mem.dev
    let t := (List.range d.length).foldl (fun t i => if inLine (a + i) then t else tput 0 t (a + i) (d.getD i 0)) t
    let m := if host then { s.mem with host := t } else { s.mem with dev := t }
    { s with ca := { s.ca with lines := s.ca.lines.map upd, victim := s.ca.victim.map upd }, mem := m }
  else memStore s host a d

/-- Some byte of a physical range is poisoned: 2 in a line of the cache, 1 in memory, 0 in none (R284, R400). -/
def poisonAt (s : State) (host : Bool) (a n : Nat) : Nat :=
  let within := fun l => decide (l * 128 < a + n) && decide (a < l * 128 + 128)
  if (s.ca.lines.any (fun p => p.2.poison && p.2.host == host && within p.2.addr)) ||
     (s.ca.victim.any (fun p => p.2.poison && p.2.host == host && within p.2.addr)) then 2
  else if !host && s.mem.poison.any within then 1 else 0

/-! ### Routing (R266, R267) -/

/-- Where an access goes. -/
inductive Route where
  | dev (a : Nat) | remote (d off : Nat) | host (a : Nat) | bad (cause : Nat)
  deriving DecidableEq, Repr

/-- R335: the committed HDM range that holds an address. -/
def hdmOf (s : State) (a : Nat) : Option (Nat × Nat) :=
  (s.hl.hdm.find? (fun p => p.2.committed && decide (p.2.base ≤ a) && decide (a < p.2.base + p.2.size))).map
    (fun p => (rfld s (Reg.HL_HDM_DPA p.1) 0 9 * 2 ^ 28, a - p.2.base))

/-- R266: the route of a host-physical address. -/
def routeOf (s : State) (a : Nat) : Route :=
  if s.hl.bar4Base ≤ a ∧ a < s.hl.bar4Base + s.hl.bar4Size ∧ s.hl.bar4Base ≠ 0 then
    let d := a - s.hl.bar4Base + rfld s Reg.HL_BAR4_SLIDE 0 10 * s.hl.bar4Size
    if d < Config.memBytes s.fuse.variant then .dev d else .bad Cause.ROUTE_HOLE
  else match hdmOf s a with
    | some (b, o) => .dev (b + o)
    | none =>
      if rbit s Reg.TU_APERTURE 31 && natBits a 46 11 == rfld s Reg.TU_APERTURE 0 11 then
        let d := natBits a 40 6
        let off := a % 2 ^ 40
        if d = devNum s then
          if off < Config.memBytes s.fuse.variant then .dev off else .bad Cause.ROUTE_HOLE
        else if natBits s.nl.members d 1 = 0 then .bad Cause.ROUTE_ABSENT
        else if devLost s d then .bad Cause.ROUTE_LOST
        else .remote d off
      else if s.hl.busMaster && rbit s Reg.HL_LINK 0 then .host a
      else .bad Cause.LINK_ENDED

/-! ### Fault records decided (R261, R263) -/

/-- R263: a record of the context is parked, or about to be written, on the stream. -/
def streamHeld (s : State) (stream c : Nat) : Bool :=
  s.tu.parked.any (fun r => r.stream == stream && r.ctx == c) || s.tu.recs.any (fun r => r.stream == stream && r.ctx == c)

/-- The entry of a page fails: its record takes the next SEQ and awaits writing, or the failure waits while
the context's slot of the stream is taken (R263). -/
def failEntry (s : State) (r : FaultRec) : State :=
  if streamHeld s r.stream r.ctx then { s with tu := { s.tu with heldFail := s.tu.heldFail ++ [r] } }
  else
    let c := ctxOf s r.ctx
    let r := { r with seq := c.fSeq, time := calTime s }
    let s := setCtx s r.ctx { c with fSeq := c.fSeq + 1 }
    { s with tu := { s.tu with recs := s.tu.recs ++ [r] } }

/-- A decided failure, with its record: the accesses that joined the entry will take it. -/
def failJoined (s : State) (r : FaultRec) : State :=
  let held := streamHeld s r.stream r.ctx
  let s := failEntry s r
  if held then s
  else { s with tu := { s.tu with failed := s.tu.failed ++
    [{ stream := r.stream, ctx := r.ctx, page := r.va / 4096, cause := r.cause }] } }

/-! ### Translation of context addresses -/

/-- One access asked for: address, bytes, and kind (0 read, 1 write, 2 atomic). -/
structure Acc where
  va : Nat
  len : Nat
  kind : Nat
  deriving DecidableEq, Repr

/-- Who makes an access: stream, context, engine and ring of its descriptor (Table TU-4). -/
structure Who where
  stream : Nat
  ctx : Nat
  eng : Nat
  ring : Option Nat := none
  deriving DecidableEq, Repr

/-- What the translation of one page answers. -/
inductive PageRes where
  | ok (hpa : Nat)
  | wait
  | miss
  | fail (cause : Nat) (joined : Bool)
  deriving DecidableEq, Repr

/-- R257: the TLB entry that serves a page of a PASID. -/
def tlbHit (s : State) (pasid page : Nat) (write : Bool) : Option TlbEnt :=
  s.tu.tlb.find? (fun e => e.pasid == pasid && decide (e.base ≤ page * 4096) &&
    decide (page * 4096 < e.base + 2 ^ e.log2) && (if write then e.w else e.r))

/-- R258: the completed entry that a source's access to a page had joined. -/
def onceHit (s : State) (w : Who) (page : Nat) (write : Bool) : Option Once :=
  s.tu.once.find? (fun o => o.stream == w.stream && o.ctx == w.ctx && o.page == page && (if write then o.w else o.r))

/-- R257 to R261, R263: how one page of an access stands. -/
def pageRes (s : State) (w : Who) (page : Nat) (write : Bool) : PageRes :=
  let pasid := (ctxOf s w.ctx).pasid
  match s.tu.failed.find? (fun f => f.stream == w.stream && f.ctx == w.ctx && f.page == page) with
  | some f => .fail f.cause true
  | none =>
    if streamHeld s w.stream w.ctx then .wait
    else if 2 ^ 57 ≤ page * 4096 then .fail Cause.RANGE false
    else match onceHit s w page write with
      | some o => .ok o.hpa
      | none => match tlbHit s pasid page write with
        | some e => .ok (e.hpa + (page * 4096 - e.base))
        | none =>
          if s.tu.misses.any (fun m => m.stream == w.stream && m.pasid == pasid && m.page == page) then .wait
          else if !s.hl.atsEn || !s.hl.pasidEn || !s.hl.busMaster then .fail Cause.ATS_DISABLED false
          else if 16 ≤ (s.tu.misses.filter (fun m => m.stream == w.stream)).length then .wait
          else .miss

/-- The pages an access touches, with the first address in each. -/
def accPages (a : Acc) : List (Nat × Nat × Nat) :=
  let first := a.va / 4096
  let last := (a.va + a.len - 1) / 4096
  if a.len = 0 then [] else
  (List.range (last - first + 1)).map (fun i => (first + i, if i = 0 then a.va else (first + i) * 4096, a.kind))

/-- A page map: page number to host-physical address of the page. -/
abbrev PageMap := List (Nat × Nat)

/-- What preparing a set of accesses answers. -/
inductive Prep where
  | ok (s : State) (m : PageMap)
  | wait (s : State)
  | fault (s : State) (cause : Nat)

/-- R258: a miss joins the entry of its page, or opens one and sends a Translation Request. -/
def openMiss (s : State) (w : Who) (page va kind : Nat) : State :=
  let pasid := (ctxOf s w.ctx).pasid
  if s.tu.misses.any (fun m => m.stream == w.stream && m.pasid == pasid && m.page == page) then
    { s with tu := { s.tu with misses := s.tu.misses.map (fun m =>
        if m.stream == w.stream && m.pasid == pasid && m.page == page then
          { m with needR := m.needR || kind == 0, needW := m.needW || kind != 0, atomic := m.atomic || kind == 2 }
        else m) } }
  else
    let s := { s with tu := { s.tu with
      misses := s.tu.misses ++ [{ stream := w.stream, pasid := pasid, page := page, va := va, ctx := w.ctx, eng := w.eng, ring := w.ring, needR := kind == 0, needW := kind != 0, atomic := kind == 2, st := .sent1 }]
      sent := (1, pasid, page) :: s.tu.sent }, hl := { s.hl with l1 := false } }
    countReg s Reg.TU_TLB_MISSES 32 1

/-- The record of a failing page. -/
def faultRec (s : State) (w : Who) (va kind cause : Nat) : FaultRec :=
  { va := va, ctx := w.ctx, eng := w.eng, stream := w.stream, access := kind, cause := cause,
    pasid := (ctxOf s w.ctx).pasid, time := calTime s, ring := w.ring }

/-- R267, R333: causes that routing gives a translated page. -/
def routeFail (s : State) (hpa : Nat) : Option Nat :=
  match routeOf s hpa with
  | .bad c => some c
  | _ => none

/-- Chunks of at most 256 bytes that cross no 256-byte boundary (R352). -/
def chunks256 (off len : Nat) : List (Nat × Nat) :=
  if len = 0 then [] else
  let first := off / 256
  let last := (off + len - 1) / 256
  (List.range (last - first + 1)).map (fun i =>
    let a := if i = 0 then off else (first + i) * 256
    let b := Nat.min ((first + i + 1) * 256) (off + len)
    (a, b - a))

/-- R352: the remote reads of an access that have not arrived are sent, once each. -/
def askRemote (s : State) (w : Who) (d off len page : Nat) : State × Bool :=
  (chunks256 off len).foldl (fun (acc : State × Bool) c =>
    let s := acc.1
    if s.nl.arrived.any (fun r => r.stream == w.stream && r.ctx == w.ctx && r.dev == d && r.off == c.1 && decide (c.2 ≤ r.data.length)) then acc
    else if s.nl.reqs.any (fun r => r.stream == w.stream && r.ctx == w.ctx && r.dev == d && r.off == c.1 && !r.write) then (s, false)
    else
      let t := s.nl.nextTag
      let s := { s with nl := { s.nl with
        reqs := s.nl.reqs ++ [{ tag := t, dev := d, off := c.1, len := c.2, write := false, stream := w.stream, ctx := w.ctx, page := page, eng := w.eng, ring := w.ring }]
        nextTag := t + 1 } }
      (sendPkt s 0 d (.read t c.1 c.2), false)) (s, true)

/-- Lines of device memory that a range of bytes touches. -/
def linesOf (a n : Nat) : List Nat := if n = 0 then [] else (List.range ((a + n - 1) / 128 - a / 128 + 1)).map (· + a / 128)

/-- R336: the lines of a device access for which a back-invalidation is needed: recorded ones before a write, and
before a read those that the host may hold Modified. -/
def snoopLines (s : State) (a n : Nat) (write : Bool) : List Nat :=
  (linesOf a n).filter (fun l => s.hl.sf.any (fun f => f.line == l && (write || f.modified)))

/-- R336: a back-invalidation snoop of a line is sent, once. -/
def sendSnoop (s : State) (l : Nat) : State :=
  if s.hl.snoops.any (fun b => b.line == l) then s
  else { s with hl := { s.hl with snoops := s.hl.snoops ++ [{ line := l, write := none }], l1 := false } }

/-- R336: the snoops that an access of context memory needs are sent; true when it needs none. -/
def askSnoops (s : State) (m : PageMap) (a : Acc) : State × Bool :=
  (accPages a).foldl (fun (acc : State × Bool) p =>
    match m.find? (fun q => q.1 == p.1) with
    | some q => match routeOf acc.1 (q.2 + p.2.1 % 4096) with
      | .dev d =>
        let ls := snoopLines acc.1 d (Nat.min (a.va + a.len) ((p.1 + 1) * 4096) - p.2.1) (a.kind != 0)
        (ls.foldl sendSnoop acc.1, acc.2 && ls.isEmpty)
      | _ => acc
    | none => acc) (s, true)

/-- The first page of a set of accesses that fails: the page with its first address and kind, the cause, and
whether a decided failure is joined. -/
def accFault (s : State) (w : Who) (accs : List Acc) : Option ((Nat × Nat × Nat) × Nat × Bool) :=
  ((accs.map accPages).flatten).findSome? (fun p => match pageRes s w p.1 (p.2.2 != 0) with
    | .fail c j => some (p, c, j)
    | .ok h => (routeFail s h).map (fun c => (p, c, false))
    | _ => none)

/-- A failing page is taken: a joined failure is used up, and any other decides a fault record. -/
def takeFault (s : State) (w : Who) (f : (Nat × Nat × Nat) × Nat × Bool) : State :=
  if f.2.2 then
    let l := s.tu.failed.filter (fun x => !(x.stream == w.stream && x.ctx == w.ctx && x.page == f.1.1))
    { s with tu := { s.tu with failed := l } }
  else failEntry s (faultRec s w f.1.2.1 f.1.2.2 f.2.1)

/-- R16, R258 to R267: a set of accesses of one source is translated and routed. `ok` gives the page map;
`wait` has opened the misses and sent the remote reads it needs; `fault` gives the cause of the first that failed. -/
def prepare (s : State) (w : Who) (accs : List Acc) : Prep :=
  let pages := (accs.map accPages).flatten
  let res := pages.map (fun p => (p, pageRes s w p.1 (p.2.2 != 0)))
  match accFault s w accs with
  | some f => .fault (takeFault s w f) f.2.1
  | none =>
    if res.any (fun r => match r.2 with | .ok _ => false | _ => true) then
      .wait (res.foldl (fun s r => match r.2 with
        | .miss => openMiss s w r.1.1 r.1.2.1 r.1.2.2
        | .wait => if s.tu.misses.any (fun m => m.stream == w.stream && m.pasid == (ctxOf s w.ctx).pasid && m.page == r.1.1)
                   then openMiss s w r.1.1 r.1.2.1 r.1.2.2 else s
        | _ => s) s)
    else
      let m : PageMap := res.filterMap (fun r => match r.2 with | .ok h => some (r.1.1, h) | _ => none)
      let asked := accs.foldl (fun (acc : State × Bool) a =>
        if a.kind = 1 then acc else
        (accPages a).foldl (fun acc p =>
          match m.find? (fun q => q.1 == p.1) with
          | some q => match routeOf acc.1 (q.2 + p.2.1 % 4096) with
            | .remote d off =>
              let n := Nat.min (a.va + a.len) ((p.1 + 1) * 4096) - p.2.1
              let r := askRemote acc.1 w d off n p.1
              (r.1, acc.2 && r.2)
            | _ => acc
          | none => acc) acc) (s, true)
      let asked := accs.foldl (fun (acc : State × Bool) a =>
        let r := askSnoops acc.1 m a
        (r.1, acc.2 && r.2)) asked
      if asked.2 then
        let s := countReg s Reg.TU_TLB_HITS 32 (pages.filter (fun p => (onceHit s w p.1 (p.2.2 != 0)).isNone)).length
        .ok { s with tu := { s.tu with
          once := s.tu.once.filter (fun o => !(o.stream == w.stream && o.ctx == w.ctx && m.any (fun q => q.1 == o.page)))
          tlb := s.tu.tlb.filter (fun e => !(m.any (fun q => decide (e.base ≤ q.1 * 4096) && decide (q.1 * 4096 < e.base + 2 ^ e.log2) && e.pasid == (ctxOf s w.ctx).pasid)))
            ++ s.tu.tlb.filter (fun e => m.any (fun q => decide (e.base ≤ q.1 * 4096) && decide (q.1 * 4096 < e.base + 2 ^ e.log2) && e.pasid == (ctxOf s w.ctx).pasid)) } } m
      else .wait asked.1

/-- R272: stream 0 and firmware travel in the host-coherent class; the rest of the engines in shader data. -/
def streamHc (w : Who) : Bool := w.stream == 0

/-- One byte of a context's memory under a page map. -/
def vaRd1 (s : State) (hc : Bool) (m : PageMap) (va : Nat) : Byte :=
  match m.find? (fun q => q.1 == va / 4096) with
  | none => 0
  | some q =>
    match routeOf s (q.2 + va % 4096) with
    | .dev a => physRd1 s hc false a
    | .host a => physRd1 s true true a
    | .remote d off => match s.nl.arrived.find? (fun r => r.dev == d && decide (r.off ≤ off) && decide (off < r.off + r.data.length)) with
      | some r => r.data.getD (off - r.off) 0
      | none => 0
    | .bad _ => 0

/-- Bytes of a context's memory under a page map. -/
def vaRd (s : State) (hc : Bool) (m : PageMap) (va : Nat) : Nat → List Byte
  | 0 => []
  | n + 1 => vaRd1 s hc m va :: vaRd s hc m (va + 1) n

/-- Poison met by a read of a context's memory: 0 none, 1 in memory, 2 in the system cache. -/
def vaPoison (s : State) (m : PageMap) (va n : Nat) : Nat :=
  (accPages { va := va, len := n, kind := 0 }).foldl (fun b p =>
    if b ≠ 0 then b else
    match m.find? (fun q => q.1 == p.1) with
    | none => 0
    | some q =>
      let k := Nat.min (va + n) ((p.1 + 1) * 4096) - p.2.1
      match routeOf s (q.2 + p.2.1 % 4096) with
      | .dev a => poisonAt s false a k
      | .host a => poisonAt s true a k
      | _ => 0) 0

/-- A write of bytes to a context's memory under a page map; the part sends what lies on another device (R352). -/
def vaWr (s : State) (hc : Bool) (w : Who) (m : PageMap) (va : Nat) (d : List Byte) : State :=
  (accPages { va := va, len := d.length, kind := 1 }).foldl (fun s p =>
    match m.find? (fun q => q.1 == p.1) with
    | none => s
    | some q =>
      let k := Nat.min (va + d.length) ((p.1 + 1) * 4096) - p.2.1
      let piece := (d.drop (p.2.1 - va)).take k
      match routeOf s (q.2 + p.2.1 % 4096) with
      | .dev a => physWr s hc false a piece
      | .host a => physWr s true true a piece
      | .remote dv off =>
        (chunks256 off k).foldl (fun s c =>
          let t := s.nl.nextTag
          let s := { s with nl := { s.nl with
            reqs := s.nl.reqs ++ [{ tag := t, dev := dv, off := c.1, len := c.2, write := true, stream := w.stream, ctx := w.ctx, page := p.1, eng := w.eng, ring := w.ring }]
            nextTag := t + 1 } }
          sendPkt s 0 dv (.write t c.1 ((piece.drop (c.1 - off)).take c.2))) s
      | .bad _ => s) s

/-- An access that waits for its translations with no timeout: `ok` acts once all are served, `fail` once one has
failed; until then the machine only sends what the access needs. Remote data that served it is consumed. -/
def withMem (s : State) (w : Who) (accs : List Acc) (ok : State → PageMap → State) (fail : State → Nat → State) : State :=
  match prepare s w accs with
  | .wait s => s
  | .fault s c => fail s c
  | .ok s m =>
    let s := ok s m
    { s with nl := { s.nl with arrived := s.nl.arrived.filter (fun r => !(r.stream == w.stream && r.ctx == w.ctx)) } }

/-- Data that the fabric brought for a source is used up. -/
def dropArrived (s : State) (stream c : Nat) : State :=
  { s with nl := { s.nl with arrived := s.nl.arrived.filter (fun r => !(r.stream == stream && r.ctx == c)) } }

/-- An access cut at pages, so that each page fails on its own. -/
def pageCuts (va n kind : Nat) : List Acc :=
  (accPages { va := va, len := n, kind := kind }).map (fun p =>
    { va := p.2.1, len := Nat.min (va + n) ((p.1 + 1) * 4096) - p.2.1, kind := kind })

/-- Accesses numbered as lanes. -/
def laneAccs (l : List Acc) : List (Nat × Acc) := (List.range l.length).zip l

/-- What preparing the accesses of several lanes answers: a wait, or the page map with the lanes that failed. -/
inductive LaneMem where
  | wait (s : State)
  | go (s : State) (m : PageMap) (bad : List Nat)

/-- R163: each lane's access stands alone: those whose translation fails are discarded or read +0, and the rest
proceed once all are decided. -/
def laneMem (s : State) (w : Who) (accs : List (Nat × Acc)) : LaneMem :=
  let bad := accs.filterMap (fun a => (accFault s w [a.2]).map (fun f => (a.1, f)))
  let good := (accs.filter (fun a => !(bad.any (fun b => b.1 == a.1)))).map (·.2)
  match prepare s w good with
  | .wait s => .wait s
  | .ok s m => .go (bad.foldl (fun s b => takeFault s w b.2) s) m (bad.map (·.1))
  | .fault s _ => .wait s

end Sys2Proof.Machine
end

