-- ==== Sys2Proof/Machine/Descs.lean ====
section
/-! DEFINITION. Descriptors and events: the common header (R208), waits (R209, R210, R225), records on
events (R223 to R227), the judgement at fetch (R428), the steps of completion (R213) and continuations (R215). -/

namespace Sys2Proof.Machine

/-! ### The common header (Table RD-4) -/

def hOpcode (b : List Byte) : Nat := leAt b 0 1
def hNWaits (b : List Byte) : Nat := natBits (leAt b 0 8) 8 2
def hChainN (b : List Byte) : Nat := natBits (leAt b 0 8) 10 2
def hSigEn (b : List Byte) : Bool := natBits (leAt b 0 8) 12 1 == 1
def hIgnErr (b : List Byte) : Bool := natBits (leAt b 0 8) 13 1 == 1
def hSerial (b : List Byte) : Bool := natBits (leAt b 0 8) 14 1 == 1
def hIrq (b : List Byte) : Bool := natBits (leAt b 0 8) 15 1 == 1
def hChainRing (b : List Byte) : Nat := natBits (leAt b 0 8) 16 10
def hParentErr (b : List Byte) : Bool := natBits (leAt b 0 8) 26 1 == 1
def hTgt (b : List Byte) (i : Nat) : Nat := natBits (leAt b 0 8) (28 + 12 * i) 12
def hWait (b : List Byte) (i : Nat) : Nat := leAt b (10 + 2 * i) 2
def hSignal (b : List Byte) : Nat := leAt b 8 2

/-- R208: the header breaks none of its rules. -/
def headerOk (b : List Byte) : Bool :=
  (List.range 3).all (fun i => decide (i < hNWaits b) || (hTgt b i == 0 && hWait b i == 0)) &&
  (hChainN b != 0 || hChainRing b == 0) && (hSigEn b || hSignal b == 0) && natBits (leAt b 0 8) 27 1 == 0

/-- R202: the engine a listed opcode belongs to, by class: 99 stands for every engine. -/
def opcodeClass (op : Nat) : Option Nat :=
  if op = Op.NOP ∨ op = Op.EVENT_WAIT ∨ op = Op.EVENT_RECORD then some 99
  else if op = Op.WHEEL_OP ∨ op = Op.MODEL_LOAD then some 0
  else if op = Op.BIN_PASS then some 1
  else if op = Op.RENDER_PASS then some 16
  else if op = Op.DISPATCH ∨ op = Op.ALLOC ∨ op = Op.FREE then some 2
  else if op = Op.COMPRESS ∨ op = Op.DECOMPRESS ∨ op = Op.FLUSH then some 3
  else if op = Op.LAYER_UPDATE ∨ op = Op.COMMIT then some 4
  else if op = Op.INGEST then some 5
  else none

/-- The class of an engine number: ingest ports and tile engines are one class each. -/
def engClass (e : Nat) : Nat := if e ≤ 4 then e else if e ≤ 8 then 5 else 16

/-- R202: the refusal an opcode earns on an engine, if any. -/
def opcodeFault (op e : Nat) : Option Nat :=
  match opcodeClass op with
  | none => some St.BAD_OPCODE
  | some c => if c = 99 ∨ c = engClass e then none else some St.WRONG_ENGINE

/-- R209: the full target of a 12-bit target, against the count at fetch. -/
def fullTarget (count tgt : Nat) : Nat :=
  let l := count - 2048
  l + (tgt + 4096 - l % 4096) % 4096

/-- R212: the fields a descriptor marks indirect: body offset, width of the field, width of the value. -/
def indFields (b : List Byte) : List (Nat × Nat × Nat) :=
  let op := hOpcode b
  let pick := fun (l : List (Bool × Nat × Nat × Nat)) => (l.filter (·.1)).map (·.2)
  let f := fun (off i : Nat) => natBits (leAt b off 4) i 1 == 1
  if op = Op.WHEEL_OP then
    pick [(f 0x10 28, 0x18, 8, 4), (f 0x10 29, 0x20, 8, 8), (f 0x10 30, 0x28, 8, 8), (f 0x10 31, 0x30, 8, 8)]
  else if op = Op.DISPATCH then
    pick [(f 0x28 28, 0x20, 4, 4), (f 0x28 29, 0x24, 4, 4), (f 0x28 30, 0x30, 8, 8)]
  else if op = Op.COMPRESS ∨ op = Op.DECOMPRESS then pick [(f 0x10 26, 0x14, 4, 4), (f 0x10 25, 0x18, 8, 8)]
  else if op = Op.ALLOC then pick [(f 0x20 31, 0x10, 8, 8)]
  else if op = Op.FREE then pick [(f 0x18 31, 0x10, 8, 8)]
  else []

/-- R194: the allocator descriptors of a mode 0 context are neither read indirectly nor checked. -/
def descInd (s : State) (d : Desc) : List (Nat × Nat × Nat) :=
  if (hOpcode d.bytes = Op.ALLOC ∨ hOpcode d.bytes = Op.FREE) ∧ (ctxOf s d.ctx).mode = 0 then [] else indFields d.bytes

/-- The value of a body field, read by indirection where it is marked so. -/
def bodyVal (d : Desc) (off n : Nat) : Nat :=
  match tfind d.ind off with
  | some v => v
  | none => leAt d.bytes off n

def setDesc (s : State) (id : Nat) (d : Desc) : State :=
  { s with esc := { s.esc with descs := tset s.esc.descs id d } }

/-- The engine has finished with a descriptor: its status is that of the fence in force, if one is (R188, R397). -/
def finishDesc (s : State) (id status : Nat) : State :=
  match tfind s.esc.descs id with
  | none => s
  | some d =>
    if d.phase = .finished then s
    else setDesc s id { d with phase := .finished, status := (fenceStatus s d.ctx d.eng).getD status }

/-- R216: the body of EVENT_WAIT or EVENT_RECORD keeps its reserved bits, and targets of EVENT_WAIT bit 63, zero. -/
def evBodyOk (b : List Byte) (isWait : Bool) : Bool :=
  leAt b 0x14 4 / 2 ^ 19 == 0 && leAt b 0x30 16 == 0 &&
  (!isWait || (List.range 3).all (fun i => natBits (leAt b 0x14 4) (16 + i) 1 == 0 || leAt b (0x18 + 8 * i) 8 < 2 ^ 63))

/-- Event and value of entry `i` of an EVENT_WAIT or EVENT_RECORD body (Table RD-5). -/
def evBodyEntry (b : List Byte) (i : Nat) : Option (Nat × Nat) :=
  if natBits (leAt b 0x14 4) (16 + i) 1 = 1 then
    some (if i = 0 then leAt b 0x10 2 else if i = 1 then leAt b 0x12 2 else leAt b 0x14 2, leAt b (0x18 + 8 * i) 8)
  else none

/-- An event belongs to a context. -/
def evOwned (s : State) (c e : Nat) : Bool := (evOf s e).alloc && (evOf s e).ctx == c

/-! ### Waits (R210, R225) -/

/-- R225: one evaluation of a wait against an event. -/
def evalWait (e : Ev) (target : Nat) (st : WaitSt) : WaitSt :=
  if st ≠ .pending then st
  else if e.flag then .err
  else if target ≤ e.count then .met
  else .pending

/-- R210, R211: where a waiting descriptor stands once its waits have been evaluated. EVENT_WAIT begins the
waits of its body when those of its header are met (R216). -/
def settleDesc (s : State) (d : Desc) : Desc :=
  let fin := fun st => { d with phase := .finished, status := (fenceStatus s d.ctx d.eng).getD st }
  if d.phase ≠ .waiting then d
  else if d.waits.any (fun w => w.st == .gone) then fin St.BAD_EVENT
  else if (d.waits.any (fun w => w.st == .err) || hParentErr d.bytes) && !hIgnErr d.bytes then fin St.DEPENDENCY_ERROR
  else if d.waits.any (fun w => w.st == .pending) then d
  else if hOpcode d.bytes = Op.EVENT_WAIT ∧ d.bodyWaits = false then
    if evBodyOk d.bytes true = false then fin St.BAD_OPERAND
    else
      let ws := (List.range 3).filterMap (fun i => (evBodyEntry d.bytes i).map (fun p =>
        ({ ev := p.1, target := p.2, st := evalWait (evOf s p.1) p.2 .pending } : Wait)))
      let d := { d with waits := ws, bodyWaits := true }
      if ws.any (fun w => w.st == .err) && !hIgnErr d.bytes then
        { d with phase := .finished, status := (fenceStatus s d.ctx d.eng).getD St.DEPENDENCY_ERROR }
      else if ws.any (fun w => w.st == .pending) then d
      else { d with phase := .ready }
  else { d with phase := if descInd s d = [] then .ready else .reading }

/-- Every waiting descriptor settled. -/
def settleAll (s : State) : State :=
  { s with esc := { s.esc with descs := s.esc.descs.map (fun p => (p.1, settleDesc s p.2)) } }

/-! ### Records on events (R223 to R227) -/

/-- Every wait pending on event `n` evaluated, of descriptors and of the rest. -/
def evalWaits (s : State) (n : Nat) : State :=
  let e := evOf s n
  let ds := s.esc.descs.map (fun p =>
    (p.1, { p.2 with waits := p.2.waits.map (fun w => if w.ev = n then { w with st := evalWait e w.target w.st } else w) }))
  let ws := s.evs.waits.map (fun w => if w.ev = n then { w with st := evalWait e w.target w.st } else w)
  settleAll { s with esc := { s.esc with descs := ds }, evs := { s.evs with waits := ws } }

/-- A record that R227 discards: counted and shown. -/
def dropRemote (s : State) : State :=
  setFlag (countReg s Reg.EV_REMOTE_DROP 32 1) Reg.EV_ERR 1 true

/-- R227: an accepted record forwarded along its event's link. -/
def forward (s : State) (e : Ev) (k : RecKind) : State :=
  if e.linkEn then
    let r : Fwd := { srcDev := devNum s, dst := e.linkEv, kind := k }
    if e.linkDev = devNum s then { s with evs := { s.evs with fwd := s.evs.fwd ++ [r] } }
    else if s.nl.member = false || devLost s e.linkDev then dropRemote s
    else sendPkt s 2 e.linkDev (.event r)
  else s

/-- R223: the value an event takes from a record; `none` where the record is ignored. -/
def recValue (e : Ev) : RecKind → Option Ev
  | .set f c => if c < e.count then none else some { e with flag := f, count := c }
  | .advance f => if e.count = 2 ^ 63 - 1 then none else some { e with flag := f, count := e.count + 1 }
  | .flag => some { e with flag := true }

/-- R223, R224, R225, R227: one record performed on an event. -/
def recordEv (s : State) (n : Nat) (k : RecKind) : State :=
  let e := evOf s n
  if e.alloc = false then s
  else match recValue e k with
    | some e' => forward (evalWaits (setEv s n e') n) e' k
    | none => match k with
      | .set _ _ => setFlag (countReg s Reg.EV_LOWER 32 1) Reg.EV_ERR 0 true
      | _ => countReg s Reg.EV_SATURATED 32 1

/-- A set of a 64-bit value: bit 63 is the flag (R222, R223). -/
def setKind (v : Nat) : RecKind := .set (natBits v 63 1 == 1) (v % 2 ^ 63)

/-! ### Completion (R213 to R215) -/

/-- ESC_ERR takes a bit; ESC_ERR_RING takes the ring of the first error since all bits were clear (R221). -/
def escErr (s : State) (b ring : Nat) : State :=
  let s := if rfld s Reg.ESC_ERR 0 4 = 0 then setFld s Reg.ESC_ERR_RING 0 10 ring else s
  setFlag s Reg.ESC_ERR b true

/-- Continuation entries dropped, and counted by their error bit. -/
def dropConts (s : State) (ring : Nat) : State := escErr s 3 ring

/-- R245: a completed descriptor counts as a job of the context. -/
def countJob (s : State) (d : Desc) : State :=
  let op := hOpcode d.bytes
  if d.status = St.SUCCESS ∧ op ≠ Op.NOP ∧ op ≠ Op.EVENT_WAIT ∧ op ≠ Op.EVENT_RECORD then
    let c := ctxOf s d.ctx
    setCtx s d.ctx { c with acctOpen := satTo (2 ^ 64 - 1) (c.acctOpen + 1) }
  else s

/-- R215: PARENT_ERR set in a continuation entry. -/
def markParent (b : List Byte) : List Byte :=
  if hParentErr b then b else toLe (leAt b 0 8 + 2 ^ 26) 8 ++ b.drop 8

/-- Steps 2 to 4 of R213, after the record: signal, interrupt, continuations; the descriptor is then complete. -/
def completeRest (s : State) (id : Nat) (d : Desc) (recFault : Bool) : State :=
  let s := countJob s d
  let s := if hSigEn d.bytes && evOwned s d.ctx (hSignal d.bytes) then
      recordEv s (hSignal d.bytes) (.advance (d.status != St.SUCCESS || recFault)) else s
  let s := if hIrq d.bytes then setFlag s (Reg.ESC_IRQ_RING 0 + 4 * (d.ring / 32)) (d.ring % 32) true else s
  let s :=
    if d.conts = [] ∨ d.status = St.CTX_FENCED then s
    else if d.pushOk then
      { s with esc := { s.esc with contQ := s.esc.contQ ++ d.conts.map (fun b =>
          { ctx := d.ctx, ring := hChainRing d.bytes, eng := d.eng, bytes := if d.status = St.SUCCESS then b else markParent b }) } }
    else dropConts s d.ring
  let s := addWide s (Reg.ESC_ENG_DONE_LO d.eng) 1
  { s with esc := { s.esc with descs := tdel s.esc.descs id } }

/-- R231: a record at system scope waits for every remote write of the context to be answered. -/
def sysScopeHeld (s : State) (d : Desc) : Bool :=
  hSigEn d.bytes && ((evOf s (hSignal d.bytes)).sys || (evOf s (hSignal d.bytes)).linkEn) &&
  s.nl.reqs.any (fun r => r.write && r.ctx == d.ctx)

/-- R213: the completion of a finished descriptor. The record is written on stream 0, waiting on a pending
translation; a record whose write fails is lost and flags the signal. -/
def completeDesc (s : State) (id : Nat) : State :=
  match tfind s.esc.descs id with
  | none => s
  | some d =>
    if d.phase ≠ .finished ∨ sysScopeHeld s d then s
    else match d.record with
      | none => completeRest s id d false
      | some (va, b) =>
        let w : Who := { stream := 0, ctx := d.ctx, eng := d.eng, ring := some d.ring }
        withMem s w [{ va := va, len := b.length, kind := 1 }]
          (fun s m => completeRest (vaWr s true w m va b) id d false)
          (fun s _ => completeRest s id d true)

/-- A descriptor finished and completed at once. -/
def endDesc (s : State) (id status : Nat) : State := completeDesc (finishDesc s id status) id

/-- A running descriptor, or the Great Wheel operation of one, meets a failure; the first stands (R429 orders those
of an operation). -/
def noteFail (s : State) (id code : Nat) : State :=
  let s := { s with gw := { s.gw with ops := s.gw.ops.map (fun p =>
    if p.2.desc = some id then (p.1, { p.2 with fails := p.2.fails ++ [code] }) else p) } }
  match tfind s.esc.descs id with
  | some d => if d.phase = .started ∧ d.err = 0 then setDesc s id { d with err := code } else s
  | none => s

/-- A descriptor that ran to its end: the failure it met, or success. -/
def endRun (s : State) (id : Nat) : State :=
  endDesc s id (((tfind s.esc.descs id).map (·.err)).getD 0)

/-- Descriptors of a context in flight, continuation entries waiting for room included (R217). -/
def ctxInFlight (s : State) (c : Nat) : Nat :=
  (s.esc.descs.filter (fun p => p.2.ctx == c)).length + (s.esc.contQ.filter (fun q => q.ctx == c)).length

/-- Descriptors of an engine in flight. -/
def engInFlight (s : State) (e : Nat) : Nat :=
  (s.esc.descs.filter (fun p => p.2.eng == e)).length + (s.esc.contQ.filter (fun q => q.eng == e)).length

/-- Descriptors in flight, device-wide. -/
def allInFlight (s : State) : Nat := s.esc.descs.length + s.esc.contQ.length

/-- R188: a context fence acts at descriptor boundaries: what waits completes with CTX_FENCED, and entries
waiting for room are dropped and counted (R215). -/
def fenceCtxWork (s : State) (c : Nat) : State :=
  let s := if s.esc.contQ.any (fun q => q.ctx == c) then
      dropConts { s with esc := { s.esc with contQ := s.esc.contQ.filter (fun q => q.ctx != c) } }
        (((s.esc.contQ.find? (fun q => q.ctx == c)).map (·.ring)).getD 0) else s
  { s with esc := { s.esc with descs := s.esc.descs.map (fun p =>
      if p.2.ctx == c && p.2.phase != .started && p.2.phase != .finished then
        (p.1, { p.2 with phase := .finished, status := (fenceStatus s c p.2.eng).getD St.CTX_FENCED }) else p) } }

/-- R288, R299: open streams whose lane runs no job close, where `p` holds of the lane. -/
def closeStreams (s : State) (p : Lane → Bool) : State :=
  let shut (l : Lane) : Lane := { retired := l.retired, dbl := l.dbl }
  let ls := s.df.lanes.map (fun l => if l.2.isOpen && l.2.job.isNone && p l.2 then (l.1, shut l.2) else l)
  let ls := ls.filter (fun l => decide (l.2 ≠ {}))
  { s with df := { s.df with lanes := ls } }

/-- R395 to R397: a function is fenced: its waiting descriptors complete with the fence status in force. -/
def fenceFn (s : State) (n source : Nat) : State :=
  let f := fnOf s n
  if f.st = .up then
    let k := s.rg.fenceClock + 1
    let s := setFn { s with rg := { s.rg with fenceClock := k } } n { st := .fencing, ready := false, source := source, fencedAt := k }
    let s := { s with er := { s.er with fnFences := s.er.fnFences + 1 } }
    let s := setFlag s Reg.ER_IRQ 0 true
    let s := chrono s Chr.FN_FENCE none n source (St.FN_FENCED n)
    let s := if n = Fun.DEFLATE then closeStreams s (fun _ => true) else s
    { s with esc := { s.esc with descs := s.esc.descs.map (fun p =>
        if p.2.phase != .started && p.2.phase != .finished && (engineFence s p.2.eng).isSome then
          (p.1, { p.2 with phase := .finished, status := (fenceStatus s p.2.ctx p.2.eng).getD (St.FN_FENCED n) }) else p) } }
  else s

/-- R183: a job acting on a context that is fenced completes with CTX_FENCED; CTX_DESTROY runs on. -/
def fenceJobs (s : State) (c : Nat) : State :=
  { s with rg := { s.rg with jobs := s.rg.jobs.map (fun p =>
      if p.2.st == .running && p.2.ctx == some c && p.2.code != Cmd.CTX_DESTROY && p.2.final == none then
        (p.1, { p.2 with final := some St.CTX_FENCED }) else p) } }

/-- R188: a context is fenced; the source is the code of the CTX_FENCE record. -/
def fenceCtx (s : State) (c source : Nat) : State :=
  let x := ctxOf s c
  if x.st = .active then
    let k := s.rg.fenceClock + 1
    let s := setCtx { s with rg := { s.rg with fenceClock := k } } c { x with st := .fenced, fencedAt := k }
    let s := { s with er := { s.er with ctxFences := s.er.ctxFences + 1 } }
    let s := closeStreams (fenceJobs s c) (fun l => l.ctx == c)
    let s := setFlag s Reg.ER_IRQ 1 true
    fenceCtxWork (chrono s Chr.CTX_FENCE (some c) 0 source 0) c
  else s

/-- Bits of the contexts that are FENCED, HALTED or DESTROYING. -/
def ctxFencedCount (s : State) : Nat :=
  (s.ctxs.filter (fun p => p.2.st == .fenced || p.2.st == .halted || p.2.st == .destroying)).length

end Sys2Proof.Machine
end

