-- ==== Sys2Proof/Machine/Rings.lean ====
section
/-! DEFINITION. Rings, doorbells and descriptors (chapter 11): DOORBELL, RESERVE, DESCRIPTOR_FETCH,
INDIRECT_READ, DESCRIPTOR_START, DESCRIPTOR_COMPLETE, CONTINUATION_PUSH and the common descriptors. -/

namespace Sys2Proof.Machine

/-- What a command's effect answers: the next state. -/
abbrev Out := Host.Outcome State Fault Refusal

def ringOf (s : State) (r : Nat) : Option Ring := tfind s.esc.rings r
def setRing (s : State) (r : Nat) (x : Ring) : State := { s with esc := { s.esc with rings := tset s.esc.rings r x } }

/-- Entries of a ring (R203). -/
def Ring.entries (x : Ring) : Nat := 2 ^ x.log2

/-- R207: PUB moves over the consecutive published entries above it. -/
def pubAdvance (x : Ring) : Nat → Ring
  | 0 => x
  | n + 1 =>
    if x.published.contains x.pub.toNat then
      pubAdvance { x with published := x.published.filter (· != x.pub.toNat), pub := x.pub + 1 } n
    else x

/-- A new PUB is noted with the moment it was taken (R217). -/
def notePub (s : State) (r : Nat) (x : Ring) : State :=
  let k := s.esc.clock + 1
  setRing { s with esc := { s.esc with clock := k } } r { x with pubLog := x.pubLog ++ [(x.pub.toNat, k)] }

/-- R207: one entry reserved, if the ring has room: the index and the ring. -/
def reserveIn (x : Ring) : Option (Word × Ring) :=
  if x.entries ≤ (x.tail - x.head).toNat ∨ 256 ≤ (x.tail - x.pub).toNat then none
  else some (x.tail, { x with tail := x.tail + 1 })

/-- R207: a reserved entry is published. -/
def publishIn (s : State) (r : Nat) (x : Ring) (idx : Word) : State :=
  let x' := pubAdvance { x with published := x.published ++ [idx.toNat] } 257
  if x'.pub = x.pub then setRing s r x' else notePub s r x'

/-- R207: the index is reserved and not yet published. -/
def publishable (x : Ring) (idx : Word) : Bool :=
  decide ((idx - x.pub).toNat < (x.tail - x.pub).toNat) && !x.published.contains idx.toNat

/-- DOORBELL (R206, R207). -/
def execDoorbell (ring : Nat) (val : Word) (s : State) : Out :=
  .next <| if barsOn s = false then s else match ringOf s ring with
  | none => s
  | some x =>
    if x.mode = 0 then
      if (val - x.head).toNat < (x.tail - x.head).toNat ∨ x.entries < (val - x.head).toNat then escErr s 1 ring
      else if val = x.tail then s
      else notePub s ring { x with tail := val, pub := val }
    else if x.mode = 2 then
      if publishable x val then publishIn s ring x val else escErr s 2 ring
    else escErr s 1 ring

/-- The answer of a host read is kept as the data of the last host read. -/
def hostData (s : State) (v : Nat) : State :=
  { s with hl := { s.hl with readData := BitVec.ofNat 64 v, readPoison := false } }

/-- RESERVE (R205, R207). -/
def execReserve (ring : Nat) (s : State) : Out :=
  .next <| if barsOn s = false then s else match ringOf s ring with
  | none => hostData s 0xFFFFFFFE
  | some x =>
    if x.mode ≠ 2 then hostData s 0xFFFFFFFE
    else match reserveIn x with
      | none => hostData s 0xFFFFFFFF
      | some (i, x') => hostData (setRing s ring x') i.toNat

/-! ### Fetch (R217, R428) -/

/-- ESC_CONFIG.CTX_LIMIT, 0 treated as 1. -/
def ctxLimit (s : State) : Nat := Nat.max 1 (rfld s Reg.ESC_CONFIG 0 16)

/-- R217, Table RD-6: a descriptor slot is free for an engine, under the device-wide limit and the reserves. -/
def slotFree (s : State) (eng : Nat) : Bool :=
  let nums := (List.range 28).filter (fun e => Config.engineOf s.fuse.variant e == some true)
  let mine := engInFlight s eng
  let owed := (nums.filter (· != eng)).foldl (fun n e => n + (16 - Nat.min 16 (engInFlight s e))) 0
  decide (mine < 16) || decide (allInFlight s + owed < 4096)

/-- The engine's Escapement holds a fetched, unstarted descriptor of the ring. -/
def heldUnstarted (s : State) (r : Nat) : Bool :=
  s.esc.descs.any (fun p => p.2.ring == r && p.2.phase != .started && p.2.phase != .finished)

/-- Bytes of an entry's place in ring memory. -/
def entryVa (x : Ring) (i : Word) : Nat := x.va + 64 * (i.toNat % x.entries)

/-- A group of `n` entries from HEAD lies below PUB. -/
def groupPublished (x : Ring) (n : Nat) : Bool := decide (n ≤ (x.pub - x.head).toNat)

/-- R217: the moment a group of `n` entries from HEAD became fetchable. -/
def fetchableAt (x : Ring) (n : Nat) : Option Nat :=
  (x.pubLog.find? (fun p => decide (n ≤ (BitVec.ofNat 32 p.1 - x.head).toNat) && decide ((BitVec.ofNat 32 p.1 - x.head).toNat ≤ x.entries))).map (·.2)

/-- What reading a ring's next group answers: its entries, a wait on translation, or nothing fetchable. -/
inductive Peek where
  | group (at_ : Nat) (ents : List (List Byte))
  | wait (at_ : Nat)
  | none
  deriving DecidableEq, Repr

def ringWho (x : Ring) (r : Nat) : Who := { stream := 0, ctx := x.ctx, eng := x.eng, ring := some r }

/-- The accesses of `n` entries from HEAD. -/
def groupAccs (x : Ring) (n : Nat) : List Acc :=
  (List.range n).map (fun i => { va := entryVa x (x.head + BitVec.ofNat 32 i), len := 64, kind := 0 })

/-- The next group of a ring, read through stream 0; entries whose read fails are zero (assumption log 12). -/
def peekRing (s : State) (r : Nat) (x : Ring) : Peek :=
  match fetchableAt x 1 with
  | none => .none
  | some t1 =>
    let w := ringWho x r
    let first : Option (List Byte) := match prepare s w (groupAccs x 1) with
      | .ok s' m => some (vaRd s' true m (entryVa x x.head) 64)
      | .fault _ _ => some (List.replicate 64 0)
      | .wait _ => none
    match first with
    | none => .wait t1
    | some b =>
      let n := 1 + hChainN b
      match fetchableAt x n with
      | none => .none
      | some t =>
        match prepare s w (groupAccs x n) with
        | .ok s' m => .group t ((List.range n).map (fun i => vaRd s' true m (entryVa x (x.head + BitVec.ofNat 32 i)) 64))
        | .fault _ _ => .group t (b :: List.replicate (n - 1) (List.replicate 64 0))
        | .wait _ => .wait t

/-- The moment a peek counts from. -/
def Peek.when : Peek → Option Nat
  | .group t _ => some t
  | .wait t => some t
  | .none => Option.none

/-- The group is a BIN_PASS. -/
def Peek.isBin : Peek → Bool
  | .group _ ents => hOpcode (ents.headD []) == Op.BIN_PASS
  | _ => false

/-- R121: the Binner holds its eight BIN_PASSes, and a ninth is not fetched. -/
def binsFull (s : State) : Bool :=
  decide (8 ≤ (s.esc.descs.filter (fun p => p.2.eng == 1 && hOpcode p.2.bytes == Op.BIN_PASS)).length)

/-- R217: the ring of an engine whose oldest group became fetchable earliest. -/
def pickRing (s : State) (eng : Nat) : Option (Nat × Ring × Peek) :=
  let cand := s.esc.rings.filter (fun p => p.2.eng == eng && p.2.head != p.2.pub && !heldUnstarted s p.1 &&
    decide (ctxInFlight s p.2.ctx < ctxLimit s))
  ((cand.map (fun p => (p.1, p.2, peekRing s p.1 p.2))).filter (fun c => !(eng == 1 && c.2.2.isBin && binsFull s))).foldl (fun best c =>
    match c.2.2.when, best with
    | none, b => b
    | some _, none => some c
    | some t, some b => if t < (b.2.2.when).getD 0 then some c else some b) none

/-- R215: CHAIN_RING is a ring of the context in device-fed or shared mode. -/
def chainOk (s : State) (c : Nat) (b : List Byte) : Bool :=
  hChainN b == 0 || match ringOf s (hChainRing b) with
    | some x => x.ctx == c && (x.mode == 1 || x.mode == 2)
    | none => false

/-- R210: every waited event belongs to the context; so must a SIGNAL (Table CX-3, assumption log 14) and an
event of an EVENT_WAIT body. -/
def eventsOk (s : State) (c : Nat) (b : List Byte) : Bool :=
  (List.range (hNWaits b)).all (fun i => evOwned s c (hWait b i)) &&
  (!hSigEn b || evOwned s c (hSignal b)) &&
  (hOpcode b != Op.EVENT_WAIT || (List.range 3).all (fun i => match evBodyEntry b i with
    | some (e, _) => evOwned s c e
    | none => true))

/-- R428: the judgement at fetch; `none` passes. -/
def judge (s : State) (x : Ring) (b : List Byte) : Option Nat :=
  match fenceStatus s x.ctx x.eng with
  | some st => some st
  | none =>
    if headerOk b = false then some St.BAD_HEADER
    else match opcodeFault (hOpcode b) x.eng with
      | some st => some st
      | none =>
        if chainOk s x.ctx b = false then some St.BAD_RING
        else if eventsOk s x.ctx b = false then some St.BAD_EVENT
        else none

/-- R209: the waits of a header, their targets expanded against the counts at fetch, and evaluated at once. -/
def headerWaits (s : State) (b : List Byte) : List Wait :=
  (List.range (hNWaits b)).map (fun i =>
    let e := evOf s (hWait b i)
    let t := fullTarget e.count (hTgt b i)
    { ev := hWait b i, target := t, st := evalWait e t .pending })

/-- A group fetched from a ring becomes a descriptor in flight (R215, R217, R428). -/
def fetchGroup (s : State) (r : Nat) (x : Ring) (ents : List (List Byte)) : State :=
  let b := ents.headD []
  let id := s.esc.nextDesc
  let head := x.head + BitVec.ofNat 32 ents.length
  let log := x.pubLog.filter (fun p =>
    let d := (BitVec.ofNat 32 p.1 - head).toNat
    decide (0 < d) && decide (d ≤ x.entries))
  let s := setRing s r { x with head := head, pubLog := log }
  let k := s.esc.clock + 1
  let j := judge s x b
  let chain := chainOk s x.ctx b
  let d : Desc :=
    { ring := r, ctx := x.ctx, eng := x.eng, index := x.head, bytes := b, conts := ents.drop 1, fetched := k
      pushOk := chain && j != some St.BAD_HEADER && j != some St.BAD_RING }
  let d := match j with
    | some st => { d with phase := .finished, status := st }
    | none => settleDesc s { d with waits := headerWaits s b }
  let s := if j = some St.BAD_HEADER ∨ j = some St.BAD_OPCODE ∨ j = some St.WRONG_ENGINE then escErr s 0 r else s
  setDesc { s with esc := { s.esc with nextDesc := id + 1, clock := k } } id d

/-- DESCRIPTOR_FETCH (R217). While the engine's or the Escapements function is not ready nothing is fetched. -/
def execDescriptorFetch (eng : Nat) (s : State) : Out :=
  .next <|
    if fnNotReady s (engFn eng) || fnNotReady s Fun.ESCAPEMENTS || !slotFree s eng then s
    else match pickRing s eng with
      | none => s
      | some (r, x, p) =>
        let w := ringWho x r
        match p with
        | .none => s
        | .wait _ =>
          match prepare s w (groupAccs x 1) with
          | .wait s' => s'
          | .fault s' _ => s'
          | .ok s' m =>
            match prepare s' w (groupAccs x (1 + hChainN (vaRd s' true m (entryVa x x.head) 64))) with
            | .wait t => t
            | .ok t _ => t
            | .fault t _ => t
        | .group _ ents =>
          withMem s w (groupAccs x ents.length) (fun s' _ => fetchGroup s' r x ents) (fun s' _ => fetchGroup s' r x ents)

/-! ### Indirect reads and starts (R211, R212) -/

/-- The descriptor of a ring that is fetched and not started. -/
def unstarted (s : State) (r : Nat) (ph : DPhase) : Option (Nat × Desc) :=
  s.esc.descs.find? (fun p => p.2.ring == r && p.2.phase == ph)

/-- R212: the next indirect field not yet read. -/
def nextInd (s : State) (d : Desc) : Option (Nat × Nat × Nat) :=
  (descInd s d).find? (fun f => (tfind d.ind f.1).isNone)

/-- A descriptor that has read its last indirect value is ready. -/
def indDone (s : State) (id : Nat) (d : Desc) : State :=
  setDesc s id (if nextInd s d = none then { d with phase := .ready } else d)

/-- INDIRECT_READ (R212): one indirect value of the ring's waiting descriptor. -/
def execIndirectRead (ring : Nat) (s : State) : Out :=
  .next <| match unstarted s ring .reading with
  | none => s
  | some (id, d) => match nextInd s d with
    | none => setDesc s id { d with phase := .ready }
    | some (off, fw, vw) =>
      let va := leAt d.bytes off fw
      if va % vw ≠ 0 ∨ 2 ^ 57 ≤ va then setDesc s id { d with phase := .ready, indBad := true }
      else
        withMem s { stream := 0, ctx := d.ctx, eng := d.eng, ring := some ring } [{ va := va, len := vw, kind := 0 }]
          (fun s m => indDone s id { d with ind := tset d.ind off (leNat (vaRd s true m va vw)) })
          (fun s _ => indDone s id { d with ind := tset d.ind off 0, indFault := true })

/-- R211: the descriptor may start: SERIAL waits for every earlier descriptor of its ring. -/
def startable (s : State) (d : Desc) : Bool :=
  !hSerial d.bytes || !(s.esc.descs.any (fun p => p.2.ring == d.ring && decide (p.2.fetched < d.fetched)))

/-- DESCRIPTOR_START (R211). -/
def execDescriptorStart (ring : Nat) (s : State) : Out :=
  .next <| match unstarted s ring .ready with
  | none => s
  | some (id, d) => if startable s d then setDesc s id { d with phase := .started } else s

/-- DESCRIPTOR_COMPLETE (R213, R214). -/
def execDescriptorComplete (desc : Nat) (s : State) : Out := .next (completeDesc s desc)

/-! ### Continuations (R215) -/

/-- The oldest continuation entry that waits for a ring. -/
def nextCont (s : State) (ring : Nat) : Option Cont := s.esc.contQ.find? (fun q => q.ring == ring)

/-- The queue without its oldest entry for a ring. -/
def popCont (ring : Nat) : List Cont → List Cont
  | [] => []
  | q :: t => if q.ring = ring then t else q :: popCont ring t

/-- CONTINUATION_PUSH (R215): the oldest entry waiting for the ring is reserved, copied and published. A copy
whose write fails is dropped and counted, its place published as a zeroed entry (assumption log 13). -/
def execContinuationPush (ring : Nat) (s : State) : Out :=
  .next <| match nextCont s ring, ringOf s ring with
  | some q, some x => match reserveIn x with
    | none => s
    | some (i, x') =>
      let w : Who := { stream := 0, ctx := q.ctx, eng := q.eng, ring := some ring }
      let pop := fun (s : State) => { s with esc := { s.esc with contQ := popCont ring s.esc.contQ } }
      withMem s w [{ va := entryVa x i, len := 64, kind := 1 }]
        (fun s m => publishIn (pop (vaWr s true w m (entryVa x i) q.bytes)) ring x' i)
        (fun s _ => dropConts (publishIn (pop s) ring x' i) ring)
  | _, _ => s

/-! ### Common descriptors (R216) -/

/-- The descriptor with a number, started on its engine, of one opcode. -/
def startedDesc (s : State) (id op : Nat) : Option Desc :=
  match tfind s.esc.descs id with
  | some d => if d.phase = .started ∧ hOpcode d.bytes = op then some d else none
  | none => none

/-- NOP (R216). -/
def execNop (desc : Nat) (s : State) : Out :=
  .next <| match startedDesc s desc Op.NOP with
  | none => s
  | some d => endDesc s desc (if leAt d.bytes 0x10 0x30 = 0 then St.SUCCESS else St.BAD_OPERAND)

/-- EVENT_WAIT (R216): its waits were met before it started; it completes at once. -/
def execEventWait (desc : Nat) (s : State) : Out :=
  .next <| match startedDesc s desc Op.EVENT_WAIT with
  | none => s
  | some d => endDesc s desc (if evBodyOk d.bytes true then St.SUCCESS else St.BAD_OPERAND)

/-- EVENT_RECORD (R216): each valid value recorded in ascending index; an event of another context refuses it
with BAD_EVENT before any record. -/
def execEventRecord (desc : Nat) (s : State) : Out :=
  .next <| match startedDesc s desc Op.EVENT_RECORD with
  | none => s
  | some d =>
    let es := (List.range 3).filterMap (evBodyEntry d.bytes)
    if evBodyOk d.bytes false = false then endDesc s desc St.BAD_OPERAND
    else if es.any (fun p => !evOwned s d.ctx p.1) then endDesc s desc St.BAD_EVENT
    else endDesc (es.foldl (fun s p => recordEv s p.1 (setKind p.2)) s) desc St.SUCCESS

end Sys2Proof.Machine
end

