-- ==== Sys2Proof/Machine/Events.lean ====
section
/-! DEFINITION. Events (chapter 12): host records, linked records on arrival, runs allocated and freed. -/

namespace Sys2Proof.Machine

/-- The event EV_SEL shows. -/
def selEvent (s : State) : Nat := rfld s Reg.EV_SEL 0 16

/-- EV_RECORD_HI (R239): always stored. -/
def execEvRecordHi (val : Word) (s : State) : Out :=
  .next (hostWr s Reg.EV_RECORD_HI fun s => { s with evs := { s.evs with recHi := val } })

/-- EV_RECORD_LO (R239, R223): a set of HI:LO; discarded while the event is free. -/
def execEvRecordLo (val : Word) (s : State) : Out :=
  .next (hostWr s Reg.EV_RECORD_LO fun s => recordEv s (selEvent s) (setKind (s.evs.recHi.toNat * 2 ^ 32 + val.toNat)))

/-- EV_ADVANCE (R239, R223). -/
def execEvAdvance (val : Word) (s : State) : Out :=
  .next (hostWr s Reg.EV_ADVANCE fun s => if bit val 0 then recordEv s (selEvent s) (.advance (bit val 1)) else s)

/-- R227: a forwarded record arrives: performed if its destination accepts it, else discarded and counted. -/
def arriveRec (s : State) (r : Fwd) : State :=
  let e := evOf s r.dst
  if e.alloc && e.acceptEn && e.acceptDev == r.srcDev then recordEv s r.dst r.kind else dropRemote s

/-- The first event packet of the inbox, and the rest. -/
def takeEventPkt : List (Nat × Packet) → Option (Fwd × List (Nat × Packet))
  | [] => none
  | (p, k) :: t => match k.body with
    | .event r => some (r, t)
    | _ => (takeEventPkt t).map (fun x => (x.1, (p, k) :: x.2))

/-- LINKED_RECORD_ARRIVAL (R227): the oldest record forwarded on this device, else the oldest that the fabric brought. -/
def execLinkedRecordArrival (s : State) : Out :=
  .next <| match s.evs.fwd with
  | r :: t => arriveRec { s with evs := { s.evs with fwd := t } } r
  | [] => match takeEventPkt s.nl.inbox with
    | some (r, t) => arriveRec { s with nl := { s.nl with inbox := t } } r
    | none => s

/-- R222: the lowest run of `n` free events, from the allocated events in rising order. -/
def freeRun (n : Nat) : Nat → Tbl Ev → Option Nat
  | from_, [] => if from_ + n ≤ 65536 then some from_ else none
  | from_, (k, e) :: t =>
    if e.alloc then (if from_ + n ≤ k then some from_ else freeRun n (k + 1) t) else freeRun n from_ t

/-- R222: a run of events allocated to a context at value 0. -/
def allocRun (s : State) (c first : Nat) : Nat → State
  | 0 => s
  | n + 1 => allocRun (setEv s first { alloc := true, ctx := c }) c (first + 1) n

/-- R226: an event is freed: waits on it end. -/
def freeEv (s : State) (e : Nat) : State :=
  let gone := fun (st : WaitSt) => if st = .pending then WaitSt.gone else st
  let s := setEv s e {}
  { s with
    esc := { s.esc with descs := s.esc.descs.map (fun p =>
      (p.1, { p.2 with waits := p.2.waits.map (fun w => if w.ev = e then { w with st := gone w.st } else w) })) }
    evs := { s.evs with waits := s.evs.waits.map (fun w => if w.ev = e then { w with st := gone w.st } else w) } }

/-- A run of events freed, and the descriptors that waited on them settled (R210). -/
def freeRunOf (s : State) (first n : Nat) : State :=
  settleAll ((List.range n).foldl (fun s i => freeEv s (first + i)) s)

/-- Every event of a context freed. -/
def freeAllEvs (s : State) (c : Nat) : State :=
  settleAll ((s.evs.ev.filter (fun p => p.2.alloc && p.2.ctx == c)).foldl (fun s p => freeEv s p.1) s)

end Sys2Proof.Machine
end

