-- ==== Sys2Proof/Machine/Mailboxes.lean ====
section
/-! DEFINITION. The mailboxes (chapter 09): GO, ACK, the taking of a request with checks 1 to 5 of R175,
responses, jobs, and GET_INFO. Slot 16 is the slot of the management channel (R180). -/

namespace Sys2Proof.Machine

def mboxOf (s : State) (m : Nat) : Mbox := tget {} s.rg.mbox m
def setMbox (s : State) (m : Nat) (x : Mbox) : State := { s with rg := { s.rg with mbox := tput {} s.rg.mbox m x } }
def jobOf (s : State) (j : Nat) : Job := tget {} s.rg.jobs j
def setJob (s : State) (j : Nat) (x : Job) : State := { s with rg := { s.rg with jobs := tput {} s.rg.jobs j x } }

/-- Word `i` of a request. -/
def wd (r : List Word) (i : Nat) : Nat := (r.getD i 0).toNat
/-- The 64-bit argument at word `i`. -/
def wd64 (r : List Word) (i : Nat) : Nat := wd r i + 2 ^ 32 * wd r (i + 1)
/-- CODE of a request (Table MB-2). -/
def reqCode (r : List Word) : Nat := natBits (wd r 0) 0 16
def reqTag (r : List Word) : Nat := natBits (wd r 0) 16 16
def reqEvEn (r : List Word) : Bool := natBits (wd r 1) 16 1 == 1
def reqEvent (r : List Word) : Nat := natBits (wd r 1) 0 16
/-- Words of a 64-bit result. -/
def lohi (x : Nat) : List Nat := [x % 2 ^ 32, x / 2 ^ 32 % 2 ^ 32]

/-- RG_STATUS.UNCHECKED. -/
def unchecked (s : State) : Bool := rbit s Reg.RG_STATUS 8

/-- The servicer of a mailbox takes and carries out requests (R176, R180, R382). -/
def servicing (s : State) (m : Nat) : Bool :=
  if m ≤ 14 then rfld s Reg.RG_STATUS 0 2 == 1 && (fnOf s Fun.REGULATOR).ready
  else (fnOf s Fun.REMONTOIRE).ready && !s.er.rmFailed

/-- R179: the completion event of a request, flagged unless the status is SUCCESS. -/
def recordDone (s : State) (ev : Nat) (val : Nat) (status : Nat) : State :=
  recordEv s ev (.set (status != St.SUCCESS) (val % 2 ^ 63))

/-- R353: the response of the outstanding management command is placed in NL_MC_RESP. -/
def mcDone (s : State) (words : List Word) : State :=
  if s.nl.mcTarget.isNone then s
  else
    let s := (List.range 16).foldl (fun s i => putReg s (Reg.NL_MC_RESP i) (words.getD i 0)) s
    { setFld s Reg.NL_MC_STATE 0 2 2 with nl := { s.nl with mcTarget := none } }

/-- R179: mailbox `m` enters DONE with a response; the management slot sends it to the acting manager and is free. -/
def respond (s : State) (m status job : Nat) (result : List Nat) : State :=
  let x := mboxOf s m
  let u := b2n (decide (m ≤ 14) && unchecked s)
  let fail := status ≠ St.SUCCESS ∧ status ≠ St.ACCEPTED ∧ status ≠ St.ABSENT_UNIT
  let resp := ([reqTag x.taken * 2 ^ 16 + status, reqCode x.taken * 2 ^ 16 + job * 2 ^ 8 + u, x.seq.toNat, 0] ++
    (if fail then [] else result)).map (BitVec.ofNat 32)
  let resp := resp ++ List.replicate (16 - resp.length) 0
  if m = 16 then
    let s := setMbox s m { x with st := .idle, resp := [] }
    if s.nl.mgr = devNum s then mcDone s resp else sendPkt s 3 s.nl.mgr (.mcResponse resp)
  else
    let s := setMbox s m { x with st := .done, resp := resp }
    let s := setFlag s Reg.RG_IRQ_MB m true
    if reqEvEn x.taken && status != St.ACCEPTED then
      recordDone s (reqEvent x.taken) (wd64 x.taken 2) status
    else s

/-- A response with no job. -/
def answer (s : State) (m status : Nat) (result : List Nat) : State := respond s m status 0xFF result
/-- A command that succeeds with a result. -/
def answerOk (s : State) (m : Nat) (result : List Nat) : State := answer s m St.SUCCESS result
/-- A refusal: no effect but the response. -/
def refuse (s : State) (m status : Nat) : State := answer s m status []

/-- R176: the request of command `code` that mailbox `m` is carrying out. -/
def cmdReq (s : State) (m code : Nat) : Option (List Word) :=
  let x := mboxOf s m
  if x.st = .running ∧ reqCode x.taken = code ∧ servicing s m = true then some x.taken else none

/-! ### Checks 1 to 5 of R175 -/

/-- The bits that the argument words, from 0x10 on, may carry (Tables MB-5, MB-6); words beyond are reserved. -/
def argMasks (code : Nat) : Option (List Nat) :=
  let all := 0xFFFFFFFF
  if code = Cmd.GET_INFO ∨ code = Cmd.RESV_QUERY ∨ code = Cmd.FAB_EPOCH_SWITCH ∨ code = Cmd.FAB_STATUS ∨
     code = Cmd.FAB_REJOIN ∨ code = Cmd.CHRONO_INFO ∨ code = Cmd.STATUS ∨ code = Cmd.FENCE_ALL then some []
  else if code = Cmd.CTX_CREATE then some [0xFFFFF, 1, 0xFFF, 0xFF, all, all, all, all]
  else if code = Cmd.CTX_DESTROY ∨ code = Cmd.CTX_QUERY ∨ code = Cmd.CTX_UNFENCE ∨ code = Cmd.FENCE_CONTEXT then some [0xFF]
  else if code = Cmd.PLATE_PARTITION ∨ code = Cmd.CTX_WEIGHT then some [0xFF, 0xFF]
  else if code = Cmd.EVENT_ALLOC ∨ code = Cmd.ACCT_BIND ∨ code = Cmd.READ_COUNTERS then some [0xFF, 0xFFFF]
  else if code = Cmd.EVENT_FREE then some [0xFF, 0xFFFF, 0xFFFF]
  else if code = Cmd.HANG_POLICY then some [0xFF, all, 3]
  else if code = Cmd.RING_CREATE then some [0xFF, 0x31F, all, all, all]
  else if code = Cmd.RING_DESTROY ∨ code = Cmd.RING_QUERY then some [0x3FF]
  else if code = Cmd.MODEL_REGISTER then some [0xFF, 0xFFFF, all, all, all, all]
  else if Cmd.MODEL_LOAD ≤ code ∧ code ≤ Cmd.MODEL_STATUS then some [0xFFF]
  else if code = Cmd.BARREL_QUOTA then some [0xFF, 0xFFF]
  else if code = Cmd.RESV_SET then some [3, 0xFFFF, all]
  else if code = Cmd.RESV_RELEASE ∨ code = Cmd.ACCT_READ then some [0xFFFF]
  else if code = Cmd.ACCT_PERIOD then some [all, 0, all, all]
  else if code = Cmd.FAB_ENUMERATE then some [0x7F]
  else if code = Cmd.FAB_ROUTE_WRITE then some [0x3F, 7]
  else if code = Cmd.CHRONO_EXPORT then some [0xFF01, 0, all, all, all]
  else if code = Cmd.CHRONO_CLEAR then some [3]
  else if code = Cmd.CHRONO_LIMIT then some [0xFF, all]
  else if code = Cmd.CHRONO_READ then some [1, all]
  else if code = Cmd.RESET_FUNCTION then some [0x1F]
  else if code = Cmd.RESET_DEVICE ∨ code = Cmd.SELF_TEST then some [all]
  else if code = Cmd.SCRUB then some [3, 0, all, all, all, all]
  else none

/-- Check 1: CODE names a command of the mailbox (R180, R181). -/
def codeOk (m code : Nat) : Bool :=
  if m ≤ 14 then (argMasks code).isSome else decide (Cmd.STATUS ≤ code) && decide (code ≤ Cmd.RESET_DEVICE)

/-- A power of two from 64 to 65,536. -/
def ringSizeOk (n : Nat) : Bool := (List.range 11).any (fun i => n == 2 ^ (i + 6))

/-- The functions that RESET_FUNCTION and SELF_TEST accept (R384). -/
def resettable (n : Nat) : Bool := n == 1 || (decide (8 ≤ n) && decide (n ≤ 18))

/-- Check 2: the ranges of arguments judged alone. -/
def argsInRange (code : Nat) (r : List Word) : Bool :=
  if code = Cmd.CTX_WEIGHT then decide (1 ≤ wd r 5)
  else if code = Cmd.EVENT_ALLOC then decide (1 ≤ wd r 5)
  else if code = Cmd.EVENT_FREE then decide (1 ≤ wd r 6) && decide (wd r 5 + wd r 6 ≤ 65536)
  else if code = Cmd.HANG_POLICY then decide (20 ≤ wd r 5) && decide (wd r 5 ≤ 3600000) && decide (wd r 6 ≤ 1)
  else if code = Cmd.RING_CREATE then
    (Config.engineOf .dya7296 (natBits (wd r 5) 0 5)).isSome && natBits (wd r 5) 8 2 != 3 && wd64 r 6 % 4096 == 0 && ringSizeOk (wd r 8)
  else if code = Cmd.RESV_SET then decide (wd r 4 ≤ 2) && decide (1 ≤ wd r 6)
  else if code = Cmd.ACCT_BIND then decide (wd r 5 ≤ 1023)
  else if code = Cmd.ACCT_READ then decide (wd r 4 ≤ 1023)
  else if code = Cmd.ACCT_PERIOD then decide (1 ≤ wd r 4) && decide (wd r 4 ≤ 31536000)
  else if code = Cmd.FAB_ENUMERATE then decide (1 ≤ wd r 4) && decide (wd r 4 ≤ 64)
  else if code = Cmd.READ_COUNTERS then decide (wd r 4 ≤ 2)
  else if code = Cmd.RESET_FUNCTION then resettable (wd r 4)
  else if code = Cmd.SELF_TEST then (List.range 32).all (fun n => natBits (wd r 4) n 1 == 0 || resettable n)
  else if code = Cmd.RESET_DEVICE then wd r 4 == 0x54455352
  else if code = Cmd.CHRONO_EXPORT then wd r 6 % 32 == 0
  else if code = Cmd.CHRONO_CLEAR then wd r 4 != 0
  else if code = Cmd.CHRONO_LIMIT then decide (0x10 ≤ wd r 4) && (decide (wd r 5 ≤ 1000000) || wd r 5 == 0xFFFFFFFF)
  else if code = Cmd.SCRUB then
    (wd r 4 != 0 || (wd64 r 6 % 2 ^ 20 == 0 && wd64 r 8 % 2 ^ 20 == 0))
  else true

/-- Check 2: reserved bits zero, and every argument in range. -/
def argsOk (m : Nat) (r : List Word) : Bool :=
  let code := reqCode r
  natBits (wd r 1) 17 15 == 0 && (decide (m ≤ 14) || !reqEvEn r) &&
  (List.range 12).all (fun i => wd r (4 + i) &&& (((argMasks code).getD []).getD i 0) == wd r (4 + i)) &&
  argsInRange code r

/-- Check 4: the absent unit that an argument names: block base and instance. -/
def absentUnit (v : Variant) (code : Nat) (r : List Word) : Option (Nat × Nat) :=
  let df := (0x00D00000, 0)
  if code = Cmd.RING_CREATE then
    let e := natBits (wd r 5) 0 5
    if Config.engineOf v e = some false then some (if e = 3 then df else (0x00900000, e - 16)) else none
  else if code = Cmd.RESV_SET then
    let c := wd r 5
    if wd r 4 = 0 then (if c < Config.crOutputs v then none else some (0x00E00000, c))
    else if wd r 4 = 1 then (if c < Config.mpPorts then none else some (0x00F00000, c))
    else if c < Config.nlPorts v then none else some (0x01000000, c)
  else if code = Cmd.FAB_ROUTE_WRITE then
    (if wd r 5 < Config.nlPorts v then none else some (0x01000000, wd r 5))
  else if code = Cmd.RESET_FUNCTION then
    (if wd r 4 = Fun.DEFLATE ∧ Config.dfPresent v = false then some df else none)
  else if code = Cmd.SELF_TEST then
    (if natBits (wd r 4) Fun.DEFLATE 1 = 1 ∧ Config.dfPresent v = false then some df else none)
  else none

/-- Check 5: the functions a command needs: those that hold the objects it names or carry out its work (assumption log 16). -/
def needs (code : Nat) (r : List Word) : List Nat :=
  if code = Cmd.CTX_CREATE then [Fun.BARREL, Fun.PLATE]
  else if code = Cmd.PLATE_PARTITION then [Fun.PLATE]
  else if code = Cmd.EVENT_ALLOC ∨ code = Cmd.EVENT_FREE then [Fun.EVENTS]
  else if code = Cmd.RING_CREATE ∨ code = Cmd.RING_DESTROY ∨ code = Cmd.RING_QUERY ∨ code = Cmd.ACCT_BIND ∨
    code = Cmd.ACCT_READ ∨ code = Cmd.ACCT_PERIOD then [Fun.ESCAPEMENTS]
  else if code = Cmd.MODEL_REGISTER then [Fun.TRANSLATION, Fun.BARREL]
  else if Cmd.MODEL_LOAD ≤ code ∧ code ≤ Cmd.BARREL_QUOTA then [Fun.BARREL]
  else if code = Cmd.RESV_SET ∨ code = Cmd.RESV_RELEASE ∨ code = Cmd.RESV_QUERY then [Fun.MEMORY]
  else if Cmd.FAB_ENUMERATE ≤ code ∧ code ≤ Cmd.FAB_REJOIN then [Fun.FABRIC]
  else if code = Cmd.CHRONO_EXPORT then [Fun.TRANSLATION, Fun.CHRONOGRAPH]
  else if code = Cmd.CHRONO_CLEAR ∨ code = Cmd.CHRONO_INFO ∨ code = Cmd.CHRONO_LIMIT ∨ code = Cmd.CHRONO_READ then [Fun.CHRONOGRAPH]
  else if code = Cmd.SCRUB then [[Fun.MEMORY, Fun.BARREL, Fun.PLATE, Fun.SYSTEM_CACHE].getD (wd r 4) Fun.MEMORY]
  else []

/-- The status of a function that is not usable. -/
def fnUse (s : State) (n : Nat) : Option Nat :=
  if fnNotReady s n then some St.NOT_READY
  else if fnFenced s n then some (St.FN_FENCED n) else none

/-- Checks 1 to 5: the failing status and its result. -/
def checkReq (s : State) (m : Nat) (r : List Word) : Option (Nat × List Nat) :=
  let code := reqCode r
  if codeOk m code = false then some (St.BAD_COMMAND, [])
  else if argsOk m r = false then some (St.BAD_ARGUMENT, [])
  else if reqEvEn r && !(evOf s (reqEvent r)).alloc then some (St.BAD_EVENT, [])
  else match absentUnit s.fuse.variant code r with
    | some u => some (St.ABSENT_UNIT, [u.1, u.2])
    | none =>
      if m ≤ 14 then ((needs code r).findSome? (fnUse s)).map (fun st => (st, [])) else none

/-! ### GO, ACK, taking -/

/-- GO (R173): the mailbox becomes PENDING; a GO on a held FROZEN Regulator completes at once (R405). -/
def execGo (mb : Nat) (s : State) : Out :=
  .next <| hostWr s (Reg.RG_MB_CTRL mb) fun s =>
    if 15 < mb then s
    else
      let x := mboxOf s mb
      if x.st = .pending ∨ x.st = .running ∨ (mb = 15 ∧ s.er.rmFailed = true) then setMbox s mb { x with drop := true }
      else
        let k := s.rg.goClock + 1
        let s := { s with rg := { s.rg with goClock := k } }
        let s := setMbox s mb { x with st := .pending, resp := [], seq := x.seq + 1, goAt := k }
        if mb ≤ 14 ∧ s.er.heldFrozen = true ∧ s.er.rmFailed = false then
          refuse (setMbox s mb { mboxOf s mb with taken := x.req }) mb St.REGULATOR_RESTART
        else s

/-- ACK (R173). -/
def execAck (mb : Nat) (s : State) : Out :=
  .next <| hostWr s (Reg.RG_MB_CTRL mb) fun s =>
    if 15 < mb then s
    else
      let x := mboxOf s mb
      if x.st = .done then setMbox s mb { x with st := .idle } else setMbox s mb { x with drop := true }

/-- R176: no other mailbox of the servicer is ahead: none RUNNING, none PENDING with an older GO. -/
def isNext (s : State) (m : Nat) : Bool :=
  let mine := if m ≤ 14 then List.range 15 else [15, 16]
  mine.all (fun i =>
    let x := mboxOf s i
    x.st != .running && (x.st != .pending || decide ((mboxOf s m).goAt ≤ x.goAt)))

/-- MAILBOX_TAKE (R175, R176): the request is read as a whole; one that fails checks 1 to 5 is answered at once. -/
def execMailboxTake (mb : Nat) (s : State) : Out :=
  .next <|
    let x := mboxOf s mb
    if x.st = .pending ∧ isNext s mb = true ∧ servicing s mb = true then
      let s := setMbox s mb { x with st := .running, taken := x.req }
      match checkReq s mb x.req with
      | some (st, res) => answer s mb st res
      | none => s
    else s

/-! ### Jobs (R177 to R179) -/

/-- The lowest free job slot. -/
def freeJob (s : State) : Option Nat := firstFrom (fun j => (jobOf s j).st == .free) 0 32

/-- R177: a long command takes a slot and is answered ACCEPTED, or is refused with JOBS_FULL. -/
def acceptJob (s : State) (m : Nat) (job : Job) : State :=
  match freeJob s with
  | none => refuse s m St.JOBS_FULL
  | some j =>
    let r := (mboxOf s m).taken
    let k := s.rg.jobClock + 1
    let s := setJob { s with rg := { s.rg with jobClock := k } } j
      { job with
        st := .running, code := reqCode r, mbox := m, tag := reqTag r, unchecked := unchecked s
        evEn := reqEvEn r, ev := reqEvent r, evVal := BitVec.ofNat 64 (wd64 r 2), order := k }
    respond s m St.ACCEPTED j []

/-- R179: a job enters DONE. -/
def endJob (s : State) (j status : Nat) : State :=
  let x := jobOf s j
  let s := setJob s j { x with st := .done, status := status, unchecked := x.unchecked || unchecked s }
  let s := setFlag s Reg.RG_IRQ_JOBS j true
  if x.evEn then recordDone s x.ev x.evVal.toNat status else s

/-- R178: PCT of a job. -/
def jobPct (x : Job) : Nat :=
  if x.st = .free then 0
  else if x.st = .done ∧ x.status = St.SUCCESS then 10000
  else if x.total = 0 then 0
  else Nat.min 9999 (10000 * x.done / x.total)

/-- The jobs that are RUNNING, with their slots. -/
def runningJobs (s : State) : List (Nat × Job) := s.rg.jobs.filter (fun p => p.2.st == .running)

/-- R401: the running scrubs of a target that cover an address, in bytes for HBM3E and MiB else, count an error met. -/
def noteScrub (s : State) (target a : Nat) (double : Bool) : State :=
  { s with rg := { s.rg with jobs := s.rg.jobs.map (fun (p : Nat × Job) =>
      if p.2.st == .running && p.2.code == Cmd.SCRUB && p.2.obj == target && decide (p.2.arg ≤ a) && decide (a < p.2.arg + p.2.arg2) then
        (p.1, if double then { p.2 with arg3 := p.2.arg3 + 1 } else { p.2 with result := p.2.result + 1 }) else p) } }

/-- RELEASE (R177): a DONE slot is freed. -/
def execRelease (job : Nat) (s : State) : Out :=
  .next (hostWr s (Reg.RG_JOB_CTRL job) fun s => if job < 32 ∧ (jobOf s job).st = .done then setJob s job {} else s)

/-- R176: a running job is changing the context. -/
def ctxJobBusy (s : State) (c : Nat) : Bool :=
  (runningJobs s).any (fun p => p.2.ctx == some c &&
    (p.2.code == Cmd.CTX_DESTROY || p.2.code == Cmd.PLATE_PARTITION || p.2.code == Cmd.BARREL_QUOTA))

/-- GET_INFO (Table MB-9). -/
def execGetInfo (mb : Nat) (s : State) : Out :=
  .next <| match cmdReq s mb Cmd.GET_INFO with
  | none => s
  | some _ =>
    answerOk s mb <|
      [(getReg s Reg.GLOBAL_VARIANT).toNat, (getReg s Reg.GLOBAL_UNITS).toNat, (getReg s Reg.RG_FW_VERSION).toNat,
       1024 * 2 ^ 16 + 256, 65536, Config.memBytes s.fuse.variant / 2 ^ 20,
       rfld s Reg.PL_HEALTHY 0 8 * 2 ^ 16 + rfld s Reg.BA_HEALTHY 0 12,
       b2n (unchecked s) * 2 ^ 26 + s.nl.acting * 2 ^ 24 + devNum s * 2 ^ 16 + rfld s Reg.PN_ACTIVE 0 8 * 2 ^ 8 +
         rfld s Reg.GW_SPARE_USE 15 5] ++ lohi (calTime s) ++ [16384 * 2 ^ 16 + 4096]

end Sys2Proof.Machine
end

