-- ==== Sys2Proof/Machine/Contexts.lean ====
section
/-! DEFINITION. Commands on contexts, events and rings (chapters 09 to 12) that touch no store: CTX_QUERY,
CTX_UNFENCE, CTX_WEIGHT, EVENT_ALLOC, EVENT_FREE, HANG_POLICY, RING_CREATE, RING_DESTROY, RING_QUERY,
and the end of a context's drain. -/

namespace Sys2Proof.Machine

/-- Check 6 of R175 for a context. -/
def ctxExists (s : State) (c : Nat) : Bool := (ctxOf s c).st != .free

/-- Codes of Table CX-2. -/
def ctxStCode : CtxSt → Nat
  | .free => 0 | .active => 1 | .fenced => 2 | .halted => 3 | .destroying => 4

/-- Rings that a context owns. -/
def ringsOf (s : State) (c : Nat) : Tbl Ring := s.esc.rings.filter (fun p => p.2.ctx == c)

/-- Fault records of a context held in the parked store (R263). -/
def parkedOf (s : State) (c : Nat) : List FaultRec := s.tu.parked.filter (fun r => r.ctx == c)

/-- CTX_QUERY (Table MB-5). -/
def execCtxQuery (mb : Nat) (s : State) : Out :=
  .next <| match cmdReq s mb Cmd.CTX_QUERY with
  | none => s
  | some r =>
    let c := wd r 4
    let x := ctxOf s c
    if ctxExists s c = false then refuse s mb St.NOT_FOUND
    else answerOk s mb
      [ctxStCode x.st + x.pasid * 2 ^ 12, (ringsOf s c).length,
       (x.fTail - x.fHead).toNat % 2 ^ 16 + (parkedOf s c).length % 128 * 2 ^ 16, x.fSeq.toNat]

/-- CTX_UNFENCE (R189). -/
def execCtxUnfence (mb : Nat) (s : State) : Out :=
  .next <| match cmdReq s mb Cmd.CTX_UNFENCE with
  | none => s
  | some r =>
    let c := wd r 4
    let x := ctxOf s c
    match x.st with
    | .free => refuse s mb St.NOT_FOUND
    | .destroying => refuse s mb St.NOT_FOUND
    | .fenced => refuse s mb St.OBJECT_BUSY
    | .active => if ctxJobBusy s c then refuse s mb St.OBJECT_BUSY else answerOk s mb []
    | .halted => if ctxJobBusy s c then refuse s mb St.OBJECT_BUSY else answerOk (setCtx s c { x with st := .active }) mb []

/-- A short command that changes one context. -/
def ctxChange (s : State) (mb c : Nat) (f : Ctx → Ctx) : State :=
  if ctxExists s c = false then refuse s mb St.NOT_FOUND
  else if ctxJobBusy s c then refuse s mb St.OBJECT_BUSY
  else answerOk (setCtx s c (f (ctxOf s c))) mb []

/-- CTX_WEIGHT (R241): the weight counts from the context's next grant. -/
def execCtxWeight (mb : Nat) (s : State) : Out :=
  .next <| match cmdReq s mb Cmd.CTX_WEIGHT with
  | none => s
  | some r => ctxChange s mb (wd r 4) (fun x => { x with weight := wd r 5 })

/-- HANG_POLICY (R233): the window is rounded up to a multiple of 10 ms. -/
def execHangPolicy (mb : Nat) (s : State) : Out :=
  .next <| match cmdReq s mb Cmd.HANG_POLICY with
  | none => s
  | some r => ctxChange s mb (wd r 4) (fun x => { x with hangWin := ceilDiv (wd r 5) 10 * 10, hangFence := wd r 6 == 1 })

/-- EVENT_ALLOC (R222). -/
def execEventAlloc (mb : Nat) (s : State) : Out :=
  .next <| match cmdReq s mb Cmd.EVENT_ALLOC with
  | none => s
  | some r =>
    let c := wd r 4
    if ctxExists s c = false then refuse s mb St.NOT_FOUND
    else if (ctxOf s c).st ≠ .active then refuse s mb St.CTX_FENCED
    else match freeRun (wd r 5) 0 s.evs.ev with
      | none => refuse s mb St.EVENTS_FULL
      | some f => answerOk (allocRun s c f (wd r 5)) mb [f]

/-- EVENT_FREE (R222, R226). -/
def execEventFree (mb : Nat) (s : State) : Out :=
  .next <| match cmdReq s mb Cmd.EVENT_FREE with
  | none => s
  | some r =>
    let c := wd r 4
    let first := wd r 5
    let n := wd r 6
    if ctxExists s c = false then refuse s mb St.NOT_FOUND
    else if (List.range n).any (fun i => !evOwned s c (first + i)) then refuse s mb St.NOT_FOUND
    else answerOk (freeRunOf s first n) mb []

/-! ### Rings (R203, R219, R427) -/

/-- RING_CREATE (R203). -/
def execRingCreate (mb : Nat) (s : State) : Out :=
  .next <| match cmdReq s mb Cmd.RING_CREATE with
  | none => s
  | some r =>
    let c := wd r 4
    if ctxExists s c = false then refuse s mb St.NOT_FOUND
    else if (ctxOf s c).st ≠ .active then refuse s mb St.CTX_FENCED
    else match nextWrap (fun n => (ringOf s n).isNone) s.esc.nextRing 1024 with
      | none => refuse s mb St.RINGS_FULL
      | some n =>
        let x : Ring := { ctx := c, eng := natBits (wd r 5) 0 5, mode := natBits (wd r 5) 8 2, va := wd64 r 6, log2 := Nat.log2 (wd r 8) }
        let s := setRing s n x
        answerOk { s with esc := { s.esc with nextRing := (n + 1) % 1024 } } mb [n]

/-- R219: why a ring may not be destroyed. -/
def ringBusy (s : State) (n : Nat) : Bool :=
  s.esc.descs.any (fun p => p.2.ring == n || (hChainN p.2.bytes != 0 && hChainRing p.2.bytes == n)) ||
  s.esc.contQ.any (fun q => q.ring == n)

/-- RING_DESTROY (R219). -/
def execRingDestroy (mb : Nat) (s : State) : Out :=
  .next <| match cmdReq s mb Cmd.RING_DESTROY with
  | none => s
  | some r =>
    let n := wd r 4
    if (ringOf s n).isNone then refuse s mb St.NOT_FOUND
    else if ringBusy s n then refuse s mb St.OBJECT_BUSY
    else answerOk { s with esc := { s.esc with rings := tdel s.esc.rings n } } mb []

/-- R427: the state in which a ring is reported; 0xF where there is none. -/
def ringState (s : State) (n : Nat) : Nat :=
  match ringOf s n with
  | none => 0xF
  | some x =>
    if (ctxOf s x.ctx).st ≠ .active then 5
    else if s.esc.contQ.any (fun q => q.ring == n) then 4
    else if heldUnstarted s n then 2
    else if x.head ≠ x.pub then 1
    else if x.pub ≠ x.tail then 3
    else 0

/-- RING_QUERY (R427). -/
def execRingQuery (mb : Nat) (s : State) : Out :=
  .next <| match cmdReq s mb Cmd.RING_QUERY with
  | none => s
  | some r =>
    match ringOf s (wd r 4) with
    | none => refuse s mb St.NOT_FOUND
    | some x => answerOk s mb [x.head.toNat, x.tail.toNat, ringState s (wd r 4)]

/-- CONTEXT_DRAIN_END (R187): the last descriptor in flight of a FENCED context has completed; no access of it is left
to take an answer of the Translation Unit. -/
def execContextDrainEnd (ctx : Nat) (s : State) : Out :=
  .next <|
    let x := ctxOf s ctx
    if x.st = .fenced ∧ ctxInFlight s ctx = 0 then
      { setCtx s ctx { x with st := .halted } with tu := { s.tu with
          failed := s.tu.failed.filter (fun f => f.ctx != ctx), once := s.tu.once.filter (fun o => o.ctx != ctx) } }
    else s

end Sys2Proof.Machine
end

