-- ==== Sys2Proof/Machine/Sharing.lean ====
section
/-! DEFINITION. Sharing and accounting (chapter 13): clients and periods, bandwidth reservations and the steps
taken on a shortfall. -/

namespace Sys2Proof.Machine

/-! ### Accounting (R245 to R249) -/

def sat64 (x : Nat) : Nat := satTo (2 ^ 64 - 1) x

/-- R246: the counts of a context's banks are folded into its client's totals. -/
def foldBanks (s : State) (c : Nat) : State :=
  let x := ctxOf s c
  let o := tput 0 s.sched.clientOpen x.client (sat64 (tget 0 s.sched.clientOpen x.client + x.acctOpen))
  let p := tput 0 s.sched.clientPrev x.client (sat64 (tget 0 s.sched.clientPrev x.client + x.acctPrev))
  setCtx { s with sched := { s.sched with clientOpen := o, clientPrev := p } } c { x with acctOpen := 0, acctPrev := 0 }

/-- ACCT_BIND (R246). -/
def execAcctBind (mb : Nat) (s : State) : Out :=
  .next <| match cmdReq s mb Cmd.ACCT_BIND with
  | none => s
  | some r =>
    let c := wd r 4
    if ctxExists s c = false then refuse s mb St.NOT_FOUND
    else if ctxJobBusy s c then refuse s mb St.OBJECT_BUSY
    else
      let s := foldBanks s c
      answerOk (setCtx s c { ctxOf s c with client := wd r 5 }) mb []

/-- Counts of a client: folded totals and the banks of the contexts bound to it. -/
def clientCount (s : State) (tot : Tbl Nat) (bank : Ctx → Nat) (n : Nat) : Nat :=
  sat64 ((s.ctxs.filter (fun p => p.2.st != .free && p.2.client == n)).foldl (fun a p => a + bank p.2) (tget 0 tot n))

/-- ACCT_READ (R249). -/
def execAcctRead (mb : Nat) (s : State) : Out :=
  .next <| match cmdReq s mb Cmd.ACCT_READ with
  | none => s
  | some r =>
    let n := wd r 4
    answerOk s mb (lohi (clientCount s s.sched.clientOpen (·.acctOpen) n) ++
      lohi (clientCount s s.sched.clientPrev (·.acctPrev) n) ++ lohi s.sched.perEnd)

/-- R247: the end of the grid's period that contains a moment. -/
def periodEnd (len start now : Nat) : Nat :=
  let l := len * 1000000000
  if now < start then
    start - (start - now - 1) / l * l
  else start + ((now - start) / l + 1) * l

/-- R248: the open period closes and the period of the grid that contains the present time opens. -/
def closePeriod (s : State) : State :=
  { s with
    ctxs := (s.ctxs.map (fun p => (p.1, { p.2 with acctPrev := p.2.acctOpen, acctOpen := 0 }))).filter (fun p => decide (p.2 ≠ {}))
    sched := { s.sched with
      clientPrev := s.sched.clientOpen
      clientOpen := []
      perEnd := periodEnd s.sched.perLen s.sched.perStart s.time.cal } }

/-- ACCT_PERIOD (R247). -/
def execAcctPeriod (mb : Nat) (s : State) : Out :=
  .next <| match cmdReq s mb Cmd.ACCT_PERIOD with
  | none => s
  | some r =>
    let s := closePeriod { s with sched := { s.sched with perLen := wd r 4, perStart := wd64 r 6 } }
    answerOk (retainedDirty s) mb []

/-- PERIOD_CLOSE (R248): the open period closes once; periods skipped are recorded. -/
def execPeriodClose (s : State) : Out :=
  .next <|
    if s.time.cal < s.sched.perEnd then s
    else
      let skipped := (periodEnd s.sched.perLen s.sched.perStart s.time.cal - s.sched.perEnd) / (s.sched.perLen * 1000000000) - 1
      let s := closePeriod s
      if skipped = 0 then s else chrono s Chr.ACCT_SKIP none 0 skipped 0

/-- R248: calendar time takes a step; a set-back of more than one period length is recorded. -/
def stepCal (s : State) (new : Nat) : State :=
  let old := s.time.cal
  let s := { s with time := { s.time with cal := new } }
  if new + s.sched.perLen * 1000000000 < old then chrono s Chr.ACCT_SETBACK none 0 old s.sched.perEnd else s

/-! ### Reservations (R250 to R254) -/

/-- Some HBM3E stack reports above 85 °C (sensors 48 to 51). -/
def stackHot (s : State) : Bool :=
  (List.range (Config.hbmStacks s.fuse.variant)).any (fun i => decide (85 < tget (0 : Int) s.pk.temps (48 + i)))

/-- R252: the derated bandwidth in force, MB/s. -/
def derated (s : State) : Nat :=
  let p := Config.peakMBs s.fuse.variant
  if stackHot s then p * 92 / 100 else p

def resvSum (s : State) : Nat := s.sched.resv.foldl (fun a p => a + p.2.mbs) 0

/-- RESV_SET (R251, R252). -/
def execResvSet (mb : Nat) (s : State) : Out :=
  .next <| match cmdReq s mb Cmd.RESV_SET with
  | none => s
  | some r =>
    match firstFrom (fun i => (tfind s.sched.resv i).isNone) 0 256 with
    | none => refuse s mb St.RESV_FULL
    | some i =>
      if derated s * 7 < (resvSum s + wd r 6) * 10 then refuse s mb St.RESV_OVERCOMMIT
      else answerOk { s with sched := { s.sched with resv := tset s.sched.resv i { cls := wd r 4, client := wd r 5, mbs := wd r 6 } } } mb [i]

/-- RESV_RELEASE (R251). -/
def execResvRelease (mb : Nat) (s : State) : Out :=
  .next <| match cmdReq s mb Cmd.RESV_RELEASE with
  | none => s
  | some r =>
    if (tfind s.sched.resv (wd r 4)).isNone then refuse s mb St.NOT_FOUND
    else answerOk { s with sched := { s.sched with resv := tdel s.sched.resv (wd r 4) } } mb []

/-- RESV_QUERY (R252). -/
def execResvQuery (mb : Nat) (s : State) : Out :=
  .next <| match cmdReq s mb Cmd.RESV_QUERY with
  | none => s
  | some _ =>
    let sum := fun c => (s.sched.resv.filter (fun p => p.2.cls == c)).foldl (fun a p => a + p.2.mbs) 0
    answerOk s mb [sum 0, sum 1, sum 2, derated s]

/-- R254: the record of a step taken or released. -/
def stepRec (s : State) (k : Nat) (taken : Bool) (short : Nat) : State :=
  chrono s (Chr.BW_STEP k) none 0 (b2n taken + s.sched.shortCls * 2 ^ 8 + s.sched.shortClient * 2 ^ 16) short

/-- The sum of the reservations of one client. -/
def clientResv (s : State) (cls client : Nat) : Nat :=
  (s.sched.resv.filter (fun p => p.2.cls == cls && p.2.client == client)).foldl (fun a p => a + p.2.mbs) 0

/-- SHORTFALL_WINDOW (R254): one window of 100 µs, with what a client received and asked for in MB/s. -/
def execShortfallWindow (cls client received demand : Nat) (s : State) : Out :=
  .next <|
    let need := Nat.min (clientResv s cls client) demand
    let short := if received < need then need - received else 0
    if isDue s 2 100000 = false then s
    else
      let s := markDone s 2
      if 0 < short then
        let s := { s with sched := { s.sched with shortAt := s.time.dev, shortCls := cls, shortClient := client } }
        if s.sched.step < 3 then
          let k := s.sched.step + 1
          stepRec { s with sched := { s.sched with step := k } } k true short
        else s
      else if 0 < s.sched.step ∧ s.sched.shortAt + 10000000 ≤ s.time.dev then
        let k := s.sched.step
        stepRec { s with sched := { s.sched with step := k - 1, shortAt := s.time.dev } } k false 0
      else s

end Sys2Proof.Machine
end

