-- ==== Sys2Proof/Machine/Plate.lean ====
section
/-! DEFINITION. The Plate (chapter 06): slots, partitions, access checks, memory errors, granules. -/

namespace Sys2Proof.Machine

def granOf (s : State) (g : Nat) : Gran := tget {} s.pl.grans g
def setGran (s : State) (g : Nat) (x : Gran) : State := { s with pl := { s.pl with grans := tput {} s.pl.grans g x } }

def granFree (s : State) (g : Nat) : Bool := (granOf s g).owner == 0 && !(granOf s g).retired
/-- Healthy granules, and healthy granules in no partition. -/
def healthyGrans (s : State) : Nat := ((List.range (Config.granules s.fuse.variant)).filter (fun g => !(granOf s g).retired)).length
def freeGrans (s : State) : List Nat := (List.range (Config.granules s.fuse.variant)).filter (granFree s)

/-- PL_HEALTHY and PL_FREE follow the granules. -/
def syncPlate (s : State) : State :=
  setFld (setFld s Reg.PL_HEALTHY 0 8 (healthyGrans s)) Reg.PL_FREE 0 8 (freeGrans s).length

/-- R104: every byte of a granule zeroed. -/
def zeroGran (s : State) (g : Nat) : State :=
  { s with pl := { s.pl with bytes := s.pl.bytes.filter (fun p => p.1 / 262144 != g) } }

/-- R104: the lowest-numbered free healthy granule, zeroed and given to a context. -/
def takeGran (s : State) (c : Nat) : Option (Nat × State) :=
  match freeGrans s with
  | [] => none
  | g :: _ => some (g, setGran (zeroGran s g) g { granOf s g with owner := c + 1 })

/-- A granule leaves its partition. -/
def dropGran (s : State) (g : Nat) : State := setGran s g { granOf s g with owner := 0 }

/-- R103, R104: a context's list filled to `n` backed granules: unbacked positions first, then the end. -/
def growPart (s : State) (c : Nat) : Nat → State
  | 0 => s
  | n + 1 =>
    match takeGran s c with
    | none => s
    | some (g, s) =>
      let x := ctxOf s c
      let l := if x.granules.contains none then
          (x.granules.takeWhile (·.isSome)) ++ [some g] ++ ((x.granules.dropWhile (·.isSome)).drop 1)
        else x.granules ++ [some g]
      growPart (setCtx s c { x with granules := l }) c n

/-- Backed granules of a context. -/
def backed (s : State) (c : Nat) : Nat := ((ctxOf s c).granules.filter (·.isSome)).length

/-- A claim covers list position `i` of a context's partition (R114). -/
def claimed (s : State) (c i : Nat) : Bool :=
  s.pl.claims.any (fun k => k.ctx == c && k.ranges.any (fun r => decide (r.1 ≤ 16 * i + 15) && decide (16 * i ≤ r.2)))

/-- PLATE_PARTITION (R103, R104). -/
def execPlatePartition (mb : Nat) (s : State) : Out :=
  .next <| match cmdReq s mb Cmd.PLATE_PARTITION with
  | none => s
  | some r =>
    let c := wd r 4
    let n := wd r 5
    let x := ctxOf s c
    let have_ := backed s c
    let grow := n - have_
    if ctxExists s c = false then refuse s mb St.NOT_FOUND
    else if x.st = .destroying ∨ (x.st ≠ .active ∧ have_ < n) then refuse s mb St.CTX_FENCED
    else if (freeGrans s).length < grow then refuse s mb St.PLATE_OVERCOMMIT
    else match freeJob s with
      | none => refuse s mb St.JOBS_FULL
      | some j =>
        let shrink := x.granules.length - n
        let total := if 0 < grow then grow else shrink
        let s := acceptJob s mb { ctx := some c, obj := c, arg := n, total := total, done := grow }
        let s := syncPlate (growPart s c grow)
        let s := setJob s j { jobOf s j with final := if 0 < grow ∨ total = 0 then some St.SUCCESS else none }
        if total = 0 then endJob s j St.SUCCESS else s

/-- The running PLATE_PARTITION job of a context. -/
def partJob (s : State) (c : Nat) : Option (Nat × Job) :=
  (runningJobs s).find? (fun p => p.2.code == Cmd.PLATE_PARTITION && p.2.obj == c && p.2.final.isNone)

/-- GRANULE_RELEASE (R104): the last granule of a shrinking partition, once no claim covers it. -/
def execGranuleRelease (ctx : Nat) (s : State) : Out :=
  .next <| match partJob s ctx with
  | none => s
  | some (j, x) =>
    let l := (ctxOf s ctx).granules
    if l.length ≤ x.arg ∨ claimed s ctx (l.length - 1) = true then s
    else
      let s := match l.getLastD none with
        | some g => dropGran s g
        | none => s
      let s := syncPlate (setCtx s ctx { ctxOf s ctx with granules := l.dropLast })
      setJob s j { x with done := x.done + 1, final := if l.length - 1 ≤ x.arg then some St.SUCCESS else none }

/-! ### Accesses (R12, R103, R115) -/

/-- Where a partition slot of a context leads: a physical slot, or the code of the refusal. -/
def plateSlot (s : State) (c slot : Nat) : Except Nat Nat :=
  if fnFenced s Fun.PLATE then .error (St.FN_FENCED Fun.PLATE) else
  match (ctxOf s c).granules[slot / 16]? with
  | none => .error St.PLATE_RANGE
  | some none => .error St.PLATE_UNBACKED
  | some (some g) =>
    if (granOf s g).owner = c + 1 then .ok (16 * g + slot % 16) else .error St.PLATE_FOREIGN

/-- What a refused access leaves in the registers; `phys` is the physical slot of a foreign one. -/
def plateViol (s : State) (c slot code : Nat) : State :=
  if code = St.PLATE_RANGE then setFlag s Reg.PL_ERR 1 true
  else if code = St.PLATE_UNBACKED then setFlag s Reg.PL_ERR 4 true
  else if code = St.FN_FENCED Fun.PLATE then s
  else
    let phys := match (ctxOf s c).granules[slot / 16]? with
      | some (some g) => 16 * g + slot % 16
      | _ => 0
    let s := if rbit s Reg.PL_ERR 0 then s else setFld (setFld s Reg.PL_VIOL_INFO 24 8 c) Reg.PL_VIOL_INFO 0 12 phys
    setFlag (countReg s Reg.PL_VIOL_COUNT 32 1) Reg.PL_ERR 0 true

/-- Bytes of a slot as a client of a context reads them; a refused access reads zero. -/
def plateRd (s : State) (c slot off n : Nat) : List Byte :=
  match plateSlot s c slot with
  | .ok p => memRd s.pl.bytes (p * 16384 + off) n
  | .error _ => List.replicate n 0

/-- A write of bytes to a slot by a client of a context; a refused write is discarded. -/
def plateWr (s : State) (c slot off : Nat) (d : List Byte) : State :=
  match plateSlot s c slot with
  | .ok p => { s with pl := { s.pl with bytes := memWr s.pl.bytes (p * 16384 + off) (d.take (16384 - off)) } }
  | .error e => plateViol s c slot e

/-- The code an access to a slot earns; 0 when it is performed. -/
def plateCode (s : State) (c slot : Nat) : Nat :=
  match plateSlot s c slot with
  | .ok _ => 0
  | .error e => e

/-- PLATE_ACCESS (R115): one access by a client of a context. -/
def execPlateAccess (ctx slot off : Nat) (write : Bool) (data : List Byte) (s : State) : Out :=
  .next <|
    let code := plateCode s ctx slot
    let s1 := if write then plateWr s ctx slot off data
      else
        let s' := if code = 0 then s else plateViol s ctx slot code
        { s' with pl := { s'.pl with rdata := plateRd s ctx slot off (Nat.min data.length (16384 - off)) } }
    { s1 with pl := { s1.pl with rstat := code } }

/-! ### Memory errors (R116) -/

/-- A granule is retired: kept in the settings block, recorded, no longer healthy. -/
def retireGran (s : State) (g : Nat) : State :=
  let s := setGran s g { granOf s g with retired := true }
  let s := setFlag (syncPlate s) Reg.PL_ERR 3 true
  chrono (retainedDirty s) Chr.PL_GRANULE_RETIRED none Fun.PLATE g 0

/-- PLATE_ECC_ERROR (R116): an error in the 8-byte word `word` of a physical slot, met by descriptor `desc`; `pass`
tells whether the line's test passes. -/
def execPlateEccError (phys word : Nat) (double pass : Bool) (desc : Nat) (s : State) : Out :=
  .next <|
    let s := noteScrub s 2 (phys / 64) double
    if double = false then countReg s Reg.PL_ECC_CORRECTED 32 1
    else
      let g := phys / 16
      let line := phys * 16384 + word * 8 / 1024 * 1024
      let s := setFlag s Reg.PL_ERR 2 true
      let s := noteFail s desc St.PLATE_ECC
      let s := { s with gw := { s.gw with ops := s.gw.ops.map (fun (p : Nat × GwOp) =>
        if p.2.desc.isNone && p.2.pass == desc && p.2.phase == GwPhase.running then (p.1, { p.2 with fails := p.2.fails ++ [St.PLATE_ECC] }) else p) } }
      let s := { s with pl := { s.pl with bytes := s.pl.bytes.filter (fun p => !(decide (line ≤ p.1) && decide (p.1 < line + 1024))) } }
      if (pass = false ∨ (granOf s g).dbl = true) ∧ (granOf s g).retired = false then retireGran (setGran s g { granOf s g with dbl := true }) g
      else setGran s g { granOf s g with dbl := true }

/-- GRANULE_REPLACEMENT (R116): the first retired granule of a context's list that no claim covers is replaced by a
zeroed free one, or its position is left unbacked. -/
def execGranuleReplacement (ctx : Nat) (s : State) : Out :=
  .next <|
    let l := (ctxOf s ctx).granules
    match firstFrom (fun i => (match l.getD i none with
        | some g => (granOf s g).retired
        | none => false) && !claimed s ctx i) 0 l.length with
    | none => s
    | some i =>
      let s := match l.getD i none with
        | some g => dropGran s g
        | none => s
      match takeGran s ctx with
      | some (g, s) => syncPlate (setCtx s ctx { ctxOf s ctx with granules := l.set i (some g) })
      | none => syncPlate (setCtx s ctx { ctxOf s ctx with granules := l.set i none })

end Sys2Proof.Machine
end

