-- ==== Sys2Proof/Machine/Barrel.lean ====
section
/-! DEFINITION. The Barrel (chapter 05): models, admissions and fills, quotas, holds and evictions, errors. -/

namespace Sys2Proof.Machine

def modelOf (s : State) (i : Nat) : Option Model := tfind s.ba.models i
def setModel (s : State) (i : Nat) (m : Model) : State := { s with ba := { s.ba with models := tset s.ba.models i m } }
def frameOf (s : State) (f : Nat) : Frame := tget {} s.ba.frames f
def setFrame (s : State) (f : Nat) (x : Frame) : State := { s with ba := { s.ba with frames := tput {} s.ba.frames f x } }

/-- The model's admission is being filled. -/
def filling (s : State) (i : Nat) : Bool := s.ba.queue.any (fun a => a.model == i && a.filling)
/-- The model is resident: all its blocks are in the Barrel. -/
def isResident (m : Model) : Bool := m.resident == m.blocks
/-- Frames a model holds or has reserved. -/
def modelFrames (s : State) (p : Nat × Model) : Nat := if filling s p.1 then p.2.blocks else p.2.resident
def ctxModels (s : State) (c : Nat) : Tbl Model := s.ba.models.filter (fun p => p.2.ctx == c)
/-- R89: resident and filling blocks of a context. -/
def ctxFrames (s : State) (c : Nat) : Nat := (ctxModels s c).foldl (fun a p => a + modelFrames s p) 0
/-- Blocks of a context's pinned models. -/
def ctxPinned (s : State) (c : Nat) : Nat := ((ctxModels s c).filter (·.2.pinned)).foldl (fun a p => a + p.2.blocks) 0
/-- BA_HEALTHY.FRAMES. -/
def healthyFrames (s : State) : Nat := rfld s Reg.BA_HEALTHY 0 12
/-- The sum of the quotas of every context but one. -/
def quotaOthers (s : State) (c : Nat) : Nat :=
  (s.ctxs.filter (fun p => p.1 != c && p.2.st != .free)).foldl (fun a p => a + p.2.quota) 0

/-- R91: the model is held. -/
def held (s : State) (i : Nat) : Bool :=
  s.gw.ops.any (fun p => p.2.model == i && (p.2.phase == .selected || (p.2.phase == .running && !p.2.loadsDone))) ||
  s.ba.shares.any (fun x => x.2 == i) || filling s i

/-- Every frame of a model freed at once. -/
def freeFrames (s : State) (i : Nat) : State :=
  let fs := s.ba.frames.map (fun p => if p.2.model = i + 1 then (p.1, { p.2 with model := 0, block := 0 }) else p)
  { s with ba := { s.ba with frames := fs.filter (fun p => decide (p.2 ≠ {})) } }

/-- R91: an eviction removes every block of the model. -/
def evictModel (s : State) (i : Nat) : State :=
  match modelOf s i with
  | none => s
  | some m => setModel (freeFrames s i) i { m with resident := 0 }

/-- R97, R98: frames kept for a held model are freed when its last hold has ended. -/
def releaseHeld (s : State) : State :=
  let l := s.ba.freeAtHoldEnd.filter (fun i => !held s i)
  let s := { s with ba := { s.ba with freeAtHoldEnd := s.ba.freeAtHoldEnd.filter (held s) } }
  l.foldl evictModel s

/-- Frames freed at once, or at the last hold's end. -/
def freeOrLater (s : State) (i : Nat) : State :=
  if held s i then { s with ba := { s.ba with freeAtHoldEnd := s.ba.freeAtHoldEnd ++ [i] } } else evictModel s i

/-- R84: admission of a model is requested, or the request joins the one in hand. -/
def requestModel (s : State) (i : Nat) : State :=
  match modelOf s i with
  | none => s
  | some m =>
    if isResident m ∨ s.ba.queue.any (fun a => a.model == i) = true then s
    else { s with ba := { s.ba with queue := s.ba.queue ++ [{ model := i }] } }

/-! ### Eligibility (R44, R85, R241) -/

/-- Operations become eligible together; a context that gains a candidate while none has one becomes the context whose
turn it is. -/
def makeEligible (s : State) (ids : List Nat) : State :=
  if ids = [] then s
  else
    let none_ := !s.gw.ops.any (fun p => p.2.phase == .eligible)
    let k := s.gw.clock + 1
    let mine := s.gw.ops.filter (fun p => ids.contains p.1)
    let first := mine.foldl (fun (b : Option GwOp) p => match b with
      | none => some p.2
      | some o => if p.2.ring < o.ring then some p.2 else some o) none
    let ops := s.gw.ops.map (fun p => if ids.contains p.1 then (p.1, { p.2 with phase := .eligible, eligAt := k }) else p)
    let s := { s with gw := { s.gw with clock := k, ops := ops } }
    match first with
    | some o => if none_ then
        setCtx { s with sched := { s.sched with cur := o.ctx } } o.ctx { ctxOf s o.ctx with grant := true } else s
    | none => s

/-- Operations whose first slice's blocks are resident become eligible. -/
def wakeOps (s : State) : State :=
  makeEligible s ((s.gw.ops.filter (fun p => p.2.phase == .blocks && decide (0 < p.2.need) &&
    (match modelOf s p.2.model with
    | some m => decide (p.2.need ≤ m.resident)
    | none => false))).map (·.1))

/-! ### Waiters of an admission -/

/-- A MODEL_LOAD descriptor ends: its status word goes to STATUS_ADDR (Table BA-5). -/
def endLoadDesc (s : State) (id status : Nat) : State :=
  match tfind s.esc.descs id with
  | none => s
  | some d =>
    let st := (fenceStatus s d.ctx d.eng).getD status
    let addr := leAt d.bytes 0x18 8
    let blocks := ((modelOf s (leAt d.bytes 0x10 4 % 4096)).map (·.resident)).getD 0
    let r := if addr = 0 ∨ addr % 8 ≠ 0 ∨ 2 ^ 57 ≤ addr then none else some (addr, toLe (st + blocks * 2 ^ 32) 8)
    endDesc (setDesc s id { d with record := r }) id st

/-- Everything that waits on a model's admission ends with a status: descriptors, jobs of the fill path, and
operations not yet eligible. -/
def endWaiters (s : State) (i status : Nat) : State :=
  let ls := s.ba.loads.filter (fun p => p.2 == i)
  let s := { s with ba := { s.ba with loads := s.ba.loads.filter (fun p => p.2 != i) } }
  let s := ls.foldl (fun s p => endLoadDesc s p.1 status) s
  let s := { s with rg := { s.rg with jobs := s.rg.jobs.map (fun p =>
    if p.2.st == .running && p.2.obj == i && (p.2.code == Cmd.MODEL_LOAD || p.2.code == Cmd.MODEL_PIN) && p.2.final == none then
      (p.1, { p.2 with final := some status }) else p) } }
  if status = St.SUCCESS then s
  else { s with gw := { s.gw with ops := s.gw.ops.map (fun p =>
    if p.2.model == i && (p.2.phase == .blocks || p.2.phase == .eligible) then
      (p.1, { p.2 with refusal := some status, fails := p.2.fails ++ [status], phase := .ended }) else p) } }

/-- An admission ends without success: frames freed, event flagged with its count unchanged, waiters ended. -/
def failAdm (s : State) (i status : Nat) (mark : Bool) : State :=
  let s := { s with ba := { s.ba with queue := s.ba.queue.filter (fun a => a.model != i) } }
  match modelOf s i with
  | none => s
  | some m =>
    let s := freeOrLater s i
    let m := (modelOf s i).getD m
    let s := setModel s i { m with failed := m.failed || mark }
    let s := recordEv s m.ev (.set true m.count)
    endWaiters s i status

/-- The fence that ends an admission of a context (Tables BA-6, ER-3). -/
def admFence (s : State) (c : Nat) : Option Nat :=
  if (ctxOf s c).st ≠ .active then some St.CTX_FENCED
  else if fnFenced s Fun.BARREL then some (St.FN_FENCED Fun.BARREL) else none

/-! ### ADMISSION (R92) -/

/-- Unpinned models of a context with blocks resident, least recent first, other than one. -/
def victims (s : State) (c i : Nat) : List (Nat × Model) :=
  ((ctxModels s c).filter (fun p => p.1 != i && !p.2.pinned && p.2.resident != 0)).mergeSort (fun a b => decide (a.2.recency ≤ b.2.recency))

/-- R92, case 2: models evicted in least-recent order until `need` frames are free within the quota. -/
def evictUntil (s : State) (c need : Nat) : List (Nat × Model) → State
  | [] => s
  | v :: vs =>
    if ctxFrames s c + need ≤ (ctxOf s c).quota then s
    else
      let x := ctxOf s c
      evictUntil (setCtx (evictModel s v.1) c { x with evicts := satTo 0xFFFFFFFF (x.evicts + 1) }) c need vs

/-- The fill of the head admission starts. -/
def startFill (s : State) (i : Nat) (m : Model) : State :=
  let k := s.ba.clock + 1
  let s := { s with ba := { s.ba with
    clock := k
    queue := s.ba.queue.map (fun a => if a.model = i then { a with filling := true, waiting := false } else a) } }
  setModel s i { m with recency := k, startCount := m.count }

/-- R92: the head admission is judged. -/
def judgeAdm (s : State) (i : Nat) : State :=
  match modelOf s i with
  | none => { s with ba := { s.ba with queue := s.ba.queue.filter (fun a => a.model != i) } }
  | some m =>
    let c := m.ctx
    match admFence s c with
    | some st => failAdm s i st false
    | none =>
      let room := (ctxOf s c).quota - ctxFrames s c
      let vs := victims s c i
      let sum := fun (l : List (Nat × Model)) => l.foldl (fun a p => a + p.2.resident) 0
      if m.blocks ≤ room ∧ ctxFrames s c ≤ (ctxOf s c).quota then startFill s i m
      else if m.blocks ≤ room + sum (vs.filter (fun p => !held s p.1)) then
        let s := evictUntil s c m.blocks (vs.filter (fun p => !held s p.1))
        startFill s i m
      else if m.blocks ≤ room + sum vs then
        { s with ba := { s.ba with queue := s.ba.queue.map (fun a => if a.model = i then { a with waiting := true } else a) } }
      else failAdm s i St.QUOTA_EXCEEDED false

/-- ADMISSION (R85, R92): the admission at the head of the fill order is judged. -/
def execAdmission (s : State) : Out :=
  .next <| match s.ba.queue with
  | a :: _ => if a.filling ∨ a.waiting then s else judgeAdm s a.model
  | [] => s

/-- HOLD_END_ADMISSION_RESUME (R92): a waiting admission is judged again. -/
def execHoldEndAdmissionResume (s : State) : Out :=
  .next <| match s.ba.queue with
  | a :: _ => if a.waiting then judgeAdm (releaseHeld s) a.model else releaseHeld s
  | [] => releaseHeld s

/-! ### BLOCK_RESIDENT (R85, R86), LOAD_FAILURE (R97) -/

/-- The lowest-numbered frame that is free and healthy (R78). -/
def lowFrame (s : State) : Option Nat :=
  firstFrom (fun f => (frameOf s f).model == 0 && !(frameOf s f).retired) 0 (Config.frames s.fuse.variant)

/-- A Deflate lane free for a Barrel fill (R85, R289). -/
def laneFree (s : State) : Bool :=
  Config.dfPresent s.fuse.variant && !fnFenced s Fun.DEFLATE &&
  (List.range 8).any (fun l => let x := tget ({} : Lane) s.df.lanes l; !x.retired && x.job.isNone && !x.isOpen)

/-- A block written into a frame: resident in order, its event recorded. -/
def blockIn (s : State) (i : Nat) (m : Model) (data : List Byte) : State :=
  match lowFrame s with
  | none => s
  | some f =>
    let s := setFrame s f { frameOf s f with model := i + 1, block := m.resident }
    let s := { s with ba := { s.ba with bytes := memWr s.ba.bytes (f * 131072) data } }
    let m := { m with resident := m.resident + 1, count := m.count + 1 }
    let s := addWide (tickFor (setModel s i m) m.ctx 0) Reg.BA_FILL_TICKS_LO 1
    let s := { s with rg := { s.rg with jobs := s.rg.jobs.map (fun p =>
      if p.2.st == .running && p.2.obj == i && (p.2.code == Cmd.MODEL_LOAD || p.2.code == Cmd.MODEL_PIN) then
        (p.1, { p.2 with done := m.resident }) else p) } }
    let s := wakeOps (recordEv s m.ev (.set false m.count))
    if m.resident = m.blocks then
      endWaiters { s with ba := { s.ba with queue := s.ba.queue.filter (fun a => a.model != i) } } i St.SUCCESS
    else s

/-- The filling admission has met a failure (R97). -/
def markAdm (s : State) (i cause : Nat) : State :=
  { s with ba := { s.ba with queue := s.ba.queue.map (fun a => if a.model = i then { a with failed := some cause } else a) } }

/-- BLOCK_RESIDENT (R85, R86): the next block of the admission being filled. -/
def execBlockResident (s : State) : Out :=
  .next <| match s.ba.queue with
  | [] => s
  | a :: _ =>
    match modelOf s a.model with
    | none => s
    | some m =>
      if a.filling = false ∨ a.failed.isSome then s
      else match admFence s m.ctx with
        | some st => failAdm s a.model st false
        | none =>
          let w : Who := { stream := 4, ctx := m.ctx, eng := 0 }
          let i := a.model
          if m.compressed = false then
            let va := m.image + m.blocksOff + 131072 * m.resident
            withMem s w [{ va := va, len := 131072, kind := 0 }]
              (fun s pm => if vaPoison s pm va 131072 ≠ 0 then markAdm s i 2 else blockIn s i m (vaRd s false pm va 131072))
              (fun s _ => markAdm s i 1)
          else if laneFree s = false then s
          else
            let tva := m.image + m.btabOff + 8 * m.resident
            match prepare s w [{ va := tva, len := 8, kind := 0 }] with
            | .wait s => s
            | .fault s _ => markAdm s i 1
            | .ok s0 pm =>
              let e := leNat (vaRd s0 false pm tva 8)
              let va := m.image + e % 2 ^ 40
              let n := e / 2 ^ 40
              withMem s w [{ va := tva, len := 8, kind := 0 }, { va := va, len := n, kind := 0 }]
                (fun s pm =>
                  if vaPoison s pm va n ≠ 0 then markAdm s i 2
                  else
                    let r := unframe m.framing (vaRd s false pm va n)
                    let s := addWide s Reg.DF_TICKS_LO n
                    if r.fin && r.out.length == 131072 then blockIn s i m r.out else markAdm s i 3)
                (fun s _ => markAdm s i 1)

/-- LOAD_FAILURE (R97): the admission that met a failure fails and its model is marked. -/
def execLoadFailure (s : State) : Out :=
  .next <| match s.ba.queue with
  | [] => s
  | a :: _ => if a.failed.isNone then s else failAdm (setFlag s Reg.BA_ERR 0 true) a.model St.LOAD_FAILED true

/-! ### Commands -/

/-- The fields of a model image header (Table BA-2) break no rule of R80. -/
def imageOk (h : List Byte) : Bool :=
  let flags := leAt h 4 4
  let comp := natBits flags 16 1 == 1
  leAt h 0 4 == 0x314C5242 && flags % 2 ^ 16 == 1 && natBits flags 19 13 == 0 && natBits flags 17 2 != 3 &&
  decide (1 ≤ leAt h 8 4) && decide (1 ≤ leAt h 12 4) && decide (leAt h 12 4 ≤ 65536) &&
  leAt h 0x10 8 % 64 == 0 && leAt h 0x18 8 % 64 == 0 && leAt h 0x20 8 % 64 == 0 &&
  (if comp then leAt h 0x18 8 == 0 else leAt h 0x20 8 == 0) && leAt h 0x28 24 == 0

/-- Records that the operation store holds (R83). -/
def storeUsed (s : State) : Nat := s.ba.models.foldl (fun a p => a + p.2.ops) 0

/-- MODEL_REGISTER (R83): reads through stream 60, waiting on pending translations. -/
def execModelRegister (mb : Nat) (s : State) : Out :=
  .next <| match cmdReq s mb Cmd.MODEL_REGISTER with
  | none => s
  | some r =>
    let c := wd r 4
    let va := wd64 r 6
    if ctxExists s c = false then refuse s mb St.NOT_FOUND
    else if (ctxOf s c).st ≠ .active then refuse s mb St.CTX_FENCED
    else if evOwned s c (wd r 5) = false then refuse s mb St.BAD_EVENT
    else if va % 64 ≠ 0 then refuse s mb St.BAD_IMAGE
    else
      let w : Who := { stream := 60, ctx := c, eng := 0 }
      match prepare s w [{ va := va, len := 64, kind := 0 }] with
      | .wait s => s
      | .fault s _ => refuse s mb St.IN_FAULT
      | .ok s0 pm =>
        let h := vaRd s0 false pm va 64
        if imageOk h = false then refuse s mb St.BAD_IMAGE
        else
          let ops := leAt h 12 4
          let lva := va + leAt h 0x10 8
          let comp := natBits (leAt h 4 4) 16 1 == 1
          withMem s w [{ va := va, len := 64, kind := 0 }, { va := lva, len := 128 * ops, kind := 0 }]
            (fun s pm =>
              if comp ∧ Config.dfPresent s.fuse.variant = false then answer s mb St.ABSENT_UNIT [0x00D00000, 0]
              else if Config.frames s.fuse.variant < leAt h 8 4 then refuse s mb St.TOO_LARGE
              else if 65536 < storeUsed s + ops then refuse s mb St.STORE_FULL
              else match nextWrap (fun i => (modelOf s i).isNone) s.ba.nextModel 4096 with
                | none => refuse s mb St.NO_MODEL_ID
                | some i =>
                  let m : Model :=
                    { ctx := c, image := va, pbase := wd64 r 8, ev := wd r 5, blocks := leAt h 8 4, ops := ops, compressed := comp, framing := natBits (leAt h 4 4) 17 2, blocksOff := leAt h 0x18 8, btabOff := leAt h 0x20 8, list := vaRd s false pm lva (128 * ops) }
                  let s := setModel s i m
                  answerOk { s with ba := { s.ba with nextModel := (i + 1) % 4096 } } mb [i, m.blocks, ops])
            (fun s _ => refuse s mb St.IN_FAULT)

/-- A model named by a request, with the refusals that MODEL_LOAD and MODEL_PIN share. -/
def admitCmd (s : State) (mb : Nat) (pin : Bool) (i : Nat) : State :=
  match modelOf s i with
  | none => refuse s mb St.NOT_FOUND
  | some m =>
    let extra := if m.pinned then 0 else m.blocks
    if (ctxOf s m.ctx).st ≠ .active then refuse s mb St.CTX_FENCED
    else if pin ∧ (ctxOf s m.ctx).quota < ctxPinned s m.ctx + extra then refuse s mb St.QUOTA_EXCEEDED
    else match freeJob s with
      | none => refuse s mb St.JOBS_FULL
      | some j =>
        let s := acceptJob s mb { ctx := some m.ctx, obj := i, total := m.blocks, done := m.resident }
        if isResident m then endJob (setModel s i { m with pinned := m.pinned || pin }) j St.SUCCESS
        else requestModel (setModel s i { m with pinned := m.pinned || pin, failed := false }) i

/-- MODEL_LOAD (R84, R95, R97). -/
def execModelLoad (mb : Nat) (s : State) : Out :=
  .next <| match cmdReq s mb Cmd.MODEL_LOAD with
  | none => s
  | some r => admitCmd s mb false (wd r 4)

/-- MODEL_PIN (R94). -/
def execModelPin (mb : Nat) (s : State) : Out :=
  .next <| match cmdReq s mb Cmd.MODEL_PIN with
  | none => s
  | some r => admitCmd s mb true (wd r 4)

/-- A running job is changing the model. -/
def modelBusy (s : State) (i : Nat) : Bool :=
  (runningJobs s).any (fun p => p.2.obj == i && decide (Cmd.MODEL_LOAD ≤ p.2.code) && decide (p.2.code ≤ Cmd.MODEL_UNLOAD))

/-- MODEL_UNPIN (R94). -/
def execModelUnpin (mb : Nat) (s : State) : Out :=
  .next <| match cmdReq s mb Cmd.MODEL_UNPIN with
  | none => s
  | some r => match modelOf s (wd r 4) with
    | none => refuse s mb St.NOT_FOUND
    | some m =>
      if modelBusy s (wd r 4) then refuse s mb St.OBJECT_BUSY
      else answerOk (setModel s (wd r 4) { m with pinned := false }) mb []

/-- MODEL_EVICT (R95): a job that JOB_DONE ends once the holds have ended. -/
def execModelEvict (mb : Nat) (s : State) : Out :=
  .next <| match cmdReq s mb Cmd.MODEL_EVICT with
  | none => s
  | some r => match modelOf s (wd r 4) with
    | none => refuse s mb St.NOT_FOUND
    | some m =>
      if m.pinned then refuse s mb St.PINNED
      else acceptJob s mb { ctx := some m.ctx, obj := wd r 4, total := 1 }

/-- MODEL_UNLOAD (R95). -/
def execModelUnload (mb : Nat) (s : State) : Out :=
  .next <| match cmdReq s mb Cmd.MODEL_UNLOAD with
  | none => s
  | some r => match modelOf s (wd r 4) with
    | none => refuse s mb St.NOT_FOUND
    | some m => acceptJob s mb { ctx := some m.ctx, obj := wd r 4, total := modelFrames s (wd r 4, m) }

/-- MODEL_STATUS (Table MB-5). -/
def execModelStatus (mb : Nat) (s : State) : Out :=
  .next <| match cmdReq s mb Cmd.MODEL_STATUS with
  | none => s
  | some r =>
    let i := wd r 4
    match modelOf s i with
    | none => refuse s mb St.NOT_FOUND
    | some m =>
      let adm := s.ba.queue.find? (fun a => a.model == i)
      let st := if isResident m then 2 else if filling s i then 1 else if m.failed then 3 else 0
      let b := if adm.isSome then m.startCount else m.count
      answerOk s mb ([st + 4 * b2n m.pinned + 8 * b2n ((adm.map (·.waiting)).getD false), m.resident] ++ lohi b)

/-- BARREL_QUOTA (R89, R90). -/
def execBarrelQuota (mb : Nat) (s : State) : Out :=
  .next <| match cmdReq s mb Cmd.BARREL_QUOTA with
  | none => s
  | some r =>
    let c := wd r 4
    let n := wd r 5
    if ctxExists s c = false then refuse s mb St.NOT_FOUND
    else if (ctxOf s c).st = .destroying then refuse s mb St.CTX_FENCED
    else if healthyFrames s < quotaOthers s c + n then refuse s mb St.QUOTA_OVERCOMMIT
    else if n < ctxPinned s c then refuse s mb St.QUOTA_PINNED
    else match freeJob s with
      | none => refuse s mb St.JOBS_FULL
      | some j =>
        let total := ctxFrames s c - n
        let s := acceptJob s mb { ctx := some c, obj := c, arg := n, total := total }
        let s := setCtx s c { ctxOf s c with quota := n }
        let s := { s with ba := { s.ba with queue := s.ba.queue.map (fun a =>
          if ((modelOf s a.model).map (·.ctx)) = some c then { a with waiting := false } else a) } }
        if total = 0 then endJob s j St.SUCCESS else s

/-- R83, R95: a model leaves the store; its operations not yet selected complete with MODEL_GONE. -/
def unloadModel (s : State) (i : Nat) : State :=
  let s := { s with gw := { s.gw with ops := s.gw.ops.map (fun p =>
    if p.2.model == i && (p.2.phase == .params || p.2.phase == .blocks || p.2.phase == .eligible) then
      (p.1, { p.2 with fails := p.2.fails ++ [St.MODEL_GONE], phase := .ended }) else p) } }
  let s := evictModel s i
  { s with ba := { s.ba with
    models := tdel s.ba.models i
    queue := s.ba.queue.filter (fun a => a.model != i)
    freeAtHoldEnd := s.ba.freeAtHoldEnd.filter (· != i) } }

/-- MODEL_LOAD_DESCRIPTOR (R96). -/
def execModelLoadDescriptor (desc : Nat) (s : State) : Out :=
  .next <| match startedDesc s desc Op.MODEL_LOAD with
  | none => s
  | some d =>
    let w := leAt d.bytes 0x10 4
    let i := w % 4096
    let addr := leAt d.bytes 0x18 8
    let pin := natBits w 12 1 == 1
    if s.ba.loads.any (fun p => p.1 == desc) then s
    else if natBits w 13 19 ≠ 0 ∨ leAt d.bytes 0x14 4 ≠ 0 ∨ leAt d.bytes 0x20 32 ≠ 0 ∨ addr % 8 ≠ 0 ∨ 2 ^ 57 ≤ addr then
      endLoadDesc s desc St.BAD_OPERAND
    else match modelOf s i with
      | none => endLoadDesc s desc St.BAD_MODEL
      | some m =>
        let extra := if m.pinned then 0 else m.blocks
        if m.ctx ≠ d.ctx then endLoadDesc s desc St.BAD_MODEL
        else if pin ∧ (ctxOf s m.ctx).quota < ctxPinned s m.ctx + extra then endLoadDesc s desc St.QUOTA_EXCEEDED
        else
          let s := setModel s i { m with pinned := m.pinned || pin, failed := if isResident m then m.failed else false }
          if isResident m then endLoadDesc s desc St.SUCCESS
          else requestModel { s with ba := { s.ba with loads := s.ba.loads ++ [(desc, i)] } } i

/-! ### Memory errors (R98) -/

/-- A frame is retired: one frame less of health and of the quota of the context that held it, kept and recorded. -/
def retireFrame (s : State) (f : Nat) (holder : Option Nat) : State :=
  let s := setFrame s f { frameOf s f with retired := true, model := 0, block := 0 }
  let s := setFld s Reg.BA_HEALTHY 0 12 (healthyFrames s - 1)
  let s := match holder with
    | some c => setCtx s c { ctxOf s c with quota := (ctxOf s c).quota - 1 }
    | none => s
  chrono (retainedDirty (setFlag s Reg.BA_ERR 2 true)) Chr.BA_FRAME_RETIRED none Fun.BARREL f 0

/-- BARREL_ECC_ERROR (R98): an error in a bank word of a frame, read by operation `op`; `pass` tells whether the
frame's test passes. -/
def execBarrelEccError (frame _word : Nat) (double pass : Bool) (op : Nat) (s : State) : Out :=
  .next <|
    let s := noteScrub s 1 (frame / 8) double
    if double = false then countReg s Reg.BA_ECC_CORRECTED 32 1
    else
      let x := frameOf s frame
      let s := setFlag s Reg.BA_ERR 1 true
      let s := match tfind s.gw.ops op with
        | none => s
        | some o =>
          let j := match o.shadow, o.active with
            | some sl, _ => (sl.sg, sl.j)
            | none, some sl => (sl.sg, sl.j)
            | none, none => (0, 0)
          let o' := { o with fails := o.fails ++ [St.BARREL_ECC], badCols := o.badCols ++ [j] }
          { s with gw := { s.gw with ops := tset s.gw.ops op o' } }
      let i := x.model - 1
      let holder := if x.model = 0 then none else (modelOf s i).map (·.ctx)
      let s := if x.model = 0 then s else freeOrLater s i
      if (pass = false ∨ x.dbl = true) ∧ x.retired = false then
        retireFrame (setFrame s frame { frameOf s frame with dbl := true }) frame holder
      else setFrame s frame { frameOf s frame with dbl := true }

end Sys2Proof.Machine
end

