-- ==== Sys2Proof/Machine/Deflate.lean ====
section
/-! DEFINITION. The Deflate engine (chapter 16): jobs, streams, lanes, output buffers, completion. -/

namespace Sys2Proof.Machine

def laneOf (s : State) (l : Nat) : Lane := tget {} s.df.lanes l
def setLane (s : State) (l : Nat) (x : Lane) : State := { s with df := { s.df with lanes := tput {} s.df.lanes l x } }
def setDfJob (s : State) (d : Nat) (j : DfJob) : State := { s with df := { s.df with jobs := tset s.df.jobs d j } }

/-- Lanes not retired. -/
def lanesLeft (s : State) : Nat := ((List.range 8).filter (fun l => !(laneOf s l).retired)).length

/-- DF_CONFIG limits: 0 is treated as 1, above 6 as 6; and R299's bound by the lanes remaining. -/
def streamsMax (s : State) : Nat := Nat.min (Nat.min 6 (Nat.max 1 (rfld s Reg.DF_CONFIG 0 8))) (lanesLeft s - 2)
def ctxStreams (s : State) : Nat := Nat.min 6 (Nat.max 1 (rfld s Reg.DF_CONFIG 8 8))

/-- Jobs that open a stream and have passed the limit, but hold no lane yet. -/
def openers (s : State) : List DfJob :=
  (s.df.jobs.map (·.2)).filter (fun j => j.first && !j.last && !j.opening && j.lane.isNone)

/-- Open streams of the device, and of one context. -/
def openCount (s : State) : Nat := (s.df.lanes.filter (·.2.isOpen)).length + (openers s).length
def openOf (s : State) (c : Nat) : Nat :=
  (s.df.lanes.filter (fun l => l.2.isOpen && l.2.ctx == c)).length +
  ((s.df.jobs.map (·.2)).filter (fun j => j.first && !j.last && j.lane.isNone && j.ctx == c)).length

/-- The lane of a context's open stream. -/
def streamLane (s : State) (c tag : Nat) : Option Nat :=
  firstFrom (fun l => let x := laneOf s l; x.isOpen && x.ctx == c && x.tag == tag) 0 8

/-- R290: the addresses of a body and its alignment rules, beside reserved fields. -/
def dfBodyOk (d : Desc) (flush : Bool) : Bool :=
  let f := leAt d.bytes 0x10 4
  let va := fun n => decide (n < 2 ^ 57)
  let listN := leAt d.bytes 0x2C 4
  natBits f 8 17 == 0 && natBits listN 16 16 == 0 &&
  (if flush then natBits f 25 7 == 0 && leAt d.bytes 0x14 4 == 0 && leAt d.bytes 0x18 8 == 0
   else natBits f 30 2 != 3 && (hOpcode d.bytes == Op.COMPRESS || natBits f 29 1 == 0) && va (bodyVal d 0x18 8)) &&
  va (leAt d.bytes 0x20 8) && va (leAt d.bytes 0x30 8) && va (leAt d.bytes 0x38 8) &&
  leAt d.bytes 0x30 8 % 16 == 0 && leAt d.bytes 0x38 8 % 64 == 0 &&
  (natBits listN 0 16 != 0 || leAt d.bytes 0x30 8 == 0)

/-- Table DF-4 for a job. -/
structure DfRes where
  status : Nat := 0
  lane : Nat := 0
  close : Bool := false
  buffers : Nat := 0
  inDone : Nat := 0
  outDone : Nat := 0
  held : Nat := 0
  crc : Nat := 0
  adler : Nat := 0
  check : Nat := 0
  errOff : Option Nat := none
  stored : Nat := 0
  blocks : Nat := 0
  deriving DecidableEq, Repr

/-- The completion record of a job (Table DF-4). -/
def dfRecord (s : State) (ctx tag : Nat) (r : DfRes) : List Byte :=
  toLe (r.status + r.lane * 2 ^ 16 + ctx * 2 ^ 24) 4 ++ toLe (tag + r.buffers % 256 * 2 ^ 8 + b2n r.close * 2 ^ 16) 4 ++
  toLe r.inDone 8 ++ toLe r.outDone 8 ++ toLe r.held 4 ++ toLe r.crc 4 ++ toLe r.adler 4 ++ toLe r.check 4 ++
  toLe (r.errOff.getD (2 ^ 64 - 1)) 8 ++ toLe (r.blocks % 2 ^ 16 + r.stored % 2 ^ 16 * 2 ^ 16) 4 ++ toLe 0 4 ++ toLe (calTime s) 8

/-- A job of a descriptor ends with a record, at COMPL_ADDR when that is not 0 and valid. -/
def endDf (s : State) (id : Nat) (r : DfRes) : State :=
  let s := { s with df := { s.df with jobs := tdel s.df.jobs id } }
  match tfind s.esc.descs id with
  | none => s
  | some d =>
    let st := (fenceStatus s d.ctx d.eng).getD r.status
    let a := leAt d.bytes 0x38 8
    let rec_ := if a = 0 ∨ a % 64 ≠ 0 ∨ 2 ^ 57 ≤ a then none
      else some (a, dfRecord s d.ctx (leAt d.bytes 0x10 1) { r with status := st })
    endDesc (setDesc s id { d with record := rec_ }) id st

/-- A job refused: no effect on any open stream. -/
def refuseDf (s : State) (id status : Nat) : State := endDf s id { status := status }

/-- R291: the checks of a job; one that passes is queued, in age order. -/
def startDf (s : State) (id op : Nat) : State :=
  match startedDesc s id op with
  | none => s
  | some d =>
    if (tfind s.df.jobs id).isSome then s
    else
      let f := leAt d.bytes 0x10 4
      let flush := op == Op.FLUSH
      let tag := f % 256
      let framing := natBits f 30 2
      let first := natBits f 28 1 == 1
      let last := natBits f 27 1 == 1
      let k := s.df.clock + 1
      let mk := fun (lane : Option Nat) (opening : Bool) =>
        let j : DfJob :=
          { desc := id, ctx := d.ctx, ring := d.ring, opcode := op, framing := framing, dyn := natBits f 29 1 == 1, first := first, last := last, tag := tag, inBytes := if flush then 0 else bodyVal d 0x14 4, inAddr := bodyVal d 0x18 8, outAddr := leAt d.bytes 0x20 8, outBytes := leAt d.bytes 0x28 4, listCount := leAt d.bytes 0x2C 2, listAddr := leAt d.bytes 0x30 8, compl := leAt d.bytes 0x38 8, lane := lane, opening := opening, age := k }
        setDfJob { s with df := { s.df with clock := k } } id j
      if d.indBad then refuseDf s id St.BAD_OPERAND
      else if d.indFault then refuseDf s id St.IN_FAULT
      else if dfBodyOk d flush = false then refuseDf s id St.BAD_OPERAND
      else if first = false then
        match streamLane s d.ctx tag with
        | none => refuseDf s id St.NO_STREAM
        | some l =>
          let x := laneOf s l
          if flush then (if x.opcode = Op.COMPRESS then mk none false else refuseDf s id St.NO_STREAM)
          else if x.opcode = op ∧ x.framing = framing then mk none false else refuseDf s id St.NO_STREAM
      else if (streamLane s d.ctx tag).isSome then refuseDf s id St.STREAM_OPEN
      else if last then mk none false
      else if ctxStreams s ≤ openOf s d.ctx then refuseDf s id St.STREAMS_FULL
      else mk none (decide (streamsMax s ≤ openCount s))

/-- COMPRESS (R291, R292). -/
def execCompress (desc : Nat) (s : State) : Out := .next (startDf s desc Op.COMPRESS)
/-- DECOMPRESS (R291, R296). -/
def execDecompress (desc : Nat) (s : State) : Out := .next (startDf s desc Op.DECOMPRESS)
/-- FLUSH (R290, R293). -/
def execFlush (desc : Nat) (s : State) : Out := .next (startDf s desc Op.FLUSH)

/-- The oldest job of which `p` holds. -/
def oldestJob (s : State) (p : DfJob → Bool) : Option (Nat × DfJob) :=
  (s.df.jobs.filter (fun x => p x.2)).foldl (fun b x => match b with
    | none => some x
    | some y => if x.2.age < y.2.age then some x else some y) none

/-- STREAM_OPEN_WAIT_END (R288): the oldest opener proceeds once a stream has closed. -/
def execStreamOpenWaitEnd (s : State) : Out :=
  .next <| match oldestJob s (·.opening) with
  | none => s
  | some (id, j) => if openCount s < streamsMax s then setDfJob s id { j with opening := false } else s

/-- A lane that holds no stream and runs no job. -/
def idleLane (s : State) : Option Nat :=
  firstFrom (fun l => let x := laneOf s l; !x.retired && x.job.isNone && !x.isOpen) 0 8

/-- The lane a waiting job may take: its stream's own, or a free one. -/
def laneFor (s : State) (j : DfJob) : Option Nat :=
  if j.lane.isSome ∨ j.opening then none
  else if j.first then idleLane s
  else match streamLane s j.ctx j.tag with
    | some l => if (laneOf s l).job.isNone then some l else none
    | none => none

/-- LANE_GRANT (R289): the oldest job for which a lane is free takes it. -/
def execLaneGrant (s : State) : Out :=
  .next <| match oldestJob s (fun j => (laneFor s j).isSome) with
  | none => s
  | some (id, j) => match laneFor s j with
    | none => s
    | some l =>
      let x := laneOf s l
      let x := if j.first then
          { x with job := some id, isOpen := !j.last, ctx := j.ctx, tag := j.tag, opcode := j.opcode, framing := j.framing, seen := [], coded := 0, partialBits := [], bitPos := 0, dyn := j.dyn, begun := false }
        else { x with job := some id }
      setLane (setDfJob s id { j with lane := some l }) l x

/-! ### The work of a job -/

/-- What a lane's work on a job gives: output bytes, the lane after it, and the record's fields. -/
structure DfWork where
  out : List Byte
  lane : Lane
  res : DfRes
  deriving DecidableEq, Repr

/-- R292: the blocks that are ready, coded one after another: bits, position, coded bytes, blocks, stored blocks. -/
def codeBlocks (dynNext last flush : Bool) (data : List Byte) : Nat → Lane → List Bool → Nat → Nat → Lane × List Bool × Nat × Nat
  | 0, x, b, n, st => (x, b, n, st)
  | f + 1, x, b, n, st =>
    let rem := data.length - x.coded
    let one := fun (k : Nat) (fin : Bool) =>
      let c := codeBlock x.dyn x.bitPos (data.take x.coded) ((data.drop x.coded).take k) fin
      (({ x with coded := x.coded + k, bitPos := x.bitPos + c.1.length, dyn := dynNext } : Lane), c)
    if 65535 < rem then
      let r := one 65535 false
      codeBlocks dynNext last flush data f r.1 (b ++ r.2.1) (n + 1) (st + b2n r.2.2)
    else if last ∨ (flush ∧ 0 < rem) then
      let r := one rem last
      (r.1, b ++ r.2.1, n + 1, st + b2n r.2.2)
    else (x, b, n, st)

/-- R292, R293: the compression work of a job over its input. -/
def compressWork (x : Lane) (j : DfJob) (input : List Byte) : DfWork :=
  let flush := j.opcode == Op.FLUSH
  let x := if x.coded = x.seen.length ∧ !flush then { x with dyn := j.dyn } else x
  let data := x.seen ++ input
  let dynNext := if flush then x.dyn else j.dyn
  let head := if x.begun then [] else headerOf x.framing
  let r := codeBlocks dynNext j.last flush data (data.length / 65535 + 2) x x.partialBits 0 0
  let mark := if flush then storedBits r.1.bitPos [] false else []
  let bits := r.2.1 ++ mark
  let n := if j.last then ceilDiv bits.length 8 else bits.length / 8
  let tail := if j.last then trailerOf x.framing data else []
  let out := head ++ bytesOf bits n ++ tail
  let y := { r.1 with seen := data, partialBits := bits.drop (8 * n), bitPos := r.1.bitPos + mark.length, begun := true }
  { out := out, lane := y
    res := { close := j.last, inDone := input.length, held := data.length - y.coded, crc := crc32 data, adler := adler32 data, blocks := r.2.2.1 + b2n flush, stored := r.2.2.2 + b2n flush } }

/-- R296: the decompression work of a job over its input. -/
def decompressWork (x : Lane) (j : DfJob) (input : List Byte) : DfWork :=
  let before := unframe x.framing x.seen
  let data := x.seen ++ input
  let u := unframe x.framing data
  let err := if u.err ≠ 0 then u.err else if j.last ∧ u.fin = false then St.TRUNCATED else 0
  let off := if u.err ≠ 0 then u.used - x.seen.length else input.length
  { out := u.out.drop x.coded
    lane := { x with seen := data, coded := u.out.length, begun := true }
    res := { status := err, close := j.last || u.fin || err != 0, inDone := if u.fin then u.used - x.seen.length else if err ≠ 0 then off else input.length, crc := crc32 u.out, adler := adler32 u.out, check := u.check, errOff := if err = 0 then none else some off, blocks := u.blocks - before.blocks, stored := u.stored - before.stored } }

/-- What laying output over the buffers answers: the pieces to write, and the status met. -/
inductive Laid where
  | ok (pieces : List (Nat × List Byte)) (status : Nat)
  | wait (s : State)
  | fault (cause : Nat) (pieces : List (Nat × List Byte)) (s : State)

/-- R294: output laid over the first buffer and the list, entries read only when output reaches them. -/
def layOut (s : State) (w : Who) (listAddr : Nat) : Nat → Nat → List Byte → List (Nat × List Byte) → Laid
  | 0, _, out, acc => .ok acc (if out = [] then 0 else St.OUT_FULL)
  | n + 1, i, out, acc =>
    if out = [] then .ok acc 0
    else match prepare s w [{ va := listAddr + 16 * i, len := 16, kind := 0 }] with
      | .wait s => .wait s
      | .fault s c => .fault c acc s
      | .ok s0 m =>
        let e := vaRd s0 false m (listAddr + 16 * i) 16
        let a := leAt e 0 8
        let k := leAt e 8 4
        if k = 0 ∨ leAt e 12 4 ≠ 0 then .ok acc St.BAD_LIST
        else layOut s w listAddr n (i + 1) (out.drop k) (acc ++ [(a, out.take k)])

/-- Pieces cut at 4 KiB pages. -/
def pagePieces (ps : List (Nat × List Byte)) : List (Nat × List Byte) :=
  (ps.map (fun p => (accPages { va := p.1, len := p.2.length, kind := 1 }).map (fun q =>
    (q.2.1, (p.2.drop (q.2.1 - p.1)).take ((q.1 + 1) * 4096 - q.2.1))))).flatten

/-- Whether some piece still waits for its translation. -/
def piecesWait (s : State) (w : Who) : List (Nat × List Byte) → Option State
  | [] => none
  | p :: ps => match prepare s w [{ va := p.1, len := p.2.length, kind := 1 }] with
    | .wait s => some s
    | _ => piecesWait s w ps

/-- Pieces written up to the first that fails: bytes written and whether one failed. -/
def writePieces (s : State) (w : Who) : List (Nat × List Byte) → Nat → State × Nat × Bool
  | [], n => (s, n, false)
  | p :: ps, n => match prepare s w [{ va := p.1, len := p.2.length, kind := 1 }] with
    | .ok s m => writePieces (vaWr s false w m p.1 p.2) w ps (n + p.2.length)
    | .fault s _ => (s, n, true)
    | .wait s => (s, n, true)

/-- A job's lane is left: the stream kept open, or closed and the lane freed. -/
def leaveLane (s : State) (l : Nat) (x : Lane) (close : Bool) : State :=
  setLane s l (if close ∨ x.isOpen = false then { retired := x.retired, dbl := x.dbl } else { x with job := none })

/-- A job ends: lane, errors, ticks, record (R297). -/
def finishDf (s : State) (id l : Nat) (j : DfJob) (x : Lane) (r : DfRes) : State :=
  let bad := decide (St.BAD_FRAMING ≤ r.status) && decide (r.status ≤ St.TRUNCATED)
  let s := if bad then setFlag (countReg s Reg.DF_BAD_INPUT 32 1) Reg.DF_ERR 1 true else s
  let s := if r.status = St.IN_FAULT ∨ r.status = St.OUT_FAULT then setFlag s Reg.DF_ERR 0 true else s
  let s := if r.inDone = 0 then s else tickFor (addWide s Reg.DF_TICKS_LO r.inDone) j.ctx 3
  let close := r.close || r.status != 0
  endDf (leaveLane s l x close) id { r with lane := l, close := close }

/-- DEFLATE_JOB_COMPLETE (R292 to R297): a granted job does its work and completes; a fence ends it at once. -/
def execDeflateJobComplete (desc : Nat) (s : State) : Out :=
  .next <| match tfind s.df.jobs desc with
  | none => s
  | some j =>
    let fence := fenceStatus s j.ctx 3
    match j.lane with
    | none =>
      match fence with
      | some st => refuseDf s desc st
      | none =>
        if j.first = false ∧ (streamLane s j.ctx j.tag).isNone then refuseDf s desc St.NO_STREAM else s
    | some l =>
      let x := laneOf s l
      let err := ((tfind s.esc.descs desc).map (·.err)).getD 0
      match fence with
      | some st => finishDf s desc l j x { status := st }
      | none =>
        if err ≠ 0 then finishDf s desc l j x { status := err }
        else
          let w : Who := { stream := 44 + l, ctx := j.ctx, eng := 3, ring := some j.ring }
          match prepare s w [{ va := j.inAddr, len := j.inBytes, kind := 0 }] with
          | .wait s => s
          | .fault s _ => finishDf s desc l j x { status := St.IN_FAULT }
          | .ok s0 m =>
            let input := vaRd s0 false m j.inAddr j.inBytes
            let pz := vaPoison s0 m j.inAddr j.inBytes
            if pz ≠ 0 then finishDf s0 desc l j x { status := if pz = 2 then St.CACHE_ECC else St.MEMORY_ECC }
            else
              let work := if x.opcode = Op.COMPRESS then compressWork x j input else decompressWork x j input
              let first := if j.outBytes = 0 then [] else [(j.outAddr, work.out.take j.outBytes)]
              match layOut s w j.listAddr j.listCount 0 (work.out.drop j.outBytes) first with
              | .wait s => s
              | .fault _ ps s' =>
                let r := writePieces s' w (pagePieces ps) 0
                finishDf r.1 desc l j work.lane { work.res with status := St.IN_FAULT, outDone := r.2.1, buffers := ps.length }
              | .ok ps st =>
                let ps := ps.filter (fun p => p.2 != [])
                match piecesWait s w (pagePieces ps) with
                | some s => s
                | none =>
                  let r := writePieces s0 w (pagePieces ps) 0
                  let st := if r.2.2 then St.OUT_FAULT else if st ≠ 0 then st else work.res.status
                  finishDf r.1 desc l j work.lane { work.res with status := st, outDone := r.2.1, buffers := ps.length }

/-- LANE_ECC_ERROR (R299): an error in a lane's memory; `pass` tells whether the lane's test passes. -/
def execLaneEccError (lane : Nat) (double pass : Bool) (s : State) : Out :=
  .next <|
    let x := laneOf s lane
    if double = false then countReg s Reg.DF_ECC_CORRECTED 32 1
    else
      let s := setFlag s Reg.DF_ERR 2 true
      let s := match x.job with
        | some id => noteFail s id St.LANE_ECC
        | none => s
      let retire := (!pass || x.dbl) && !x.retired
      let x := { x with dbl := true, retired := x.retired || retire }
      let s := setLane s lane (if x.job.isNone then { retired := x.retired, dbl := x.dbl } else x)
      if retire then
        let s := chrono (retainedDirty (setFlag s Reg.DF_ERR 3 true)) Chr.DF_LANE_RETIRED none Fun.DEFLATE lane 0
        if lanesLeft s = 0 then fenceFn s Fun.DEFLATE 3 else s
      else s

end Sys2Proof.Machine
end

