-- ==== Sys2Proof/Machine/Numbers.lean ====
section
/-! DEFINITION. Number formats and output conversion (chapter 02): exact values, the formats of Table NF-1,
rounding, the accumulation of R25, the conversion of R27 to R31, and the arithmetic of R34. -/

namespace Sys2Proof.Machine

/-- One rounding direction of Table NF-5. -/
inductive Rnd where
  | rne | rtz
  deriving DecidableEq, Repr

namespace Num

def zero (neg : Bool) : Num := .fin neg 0 0

def isNan : Num → Bool
  | .nan => true | _ => false

/-- The sign; NaN has none. -/
def sign : Num → Bool
  | .nan => false | .inf n => n | .fin n _ _ => n

def neg : Num → Num
  | .nan => .nan | .inf n => .inf (!n) | .fin n m e => .fin (!n) m e

def abs : Num → Num
  | .nan => .nan | .inf _ => .inf false | .fin _ m e => .fin false m e

/-- An integer as an exact value. -/
def ofInt (i : Int) : Num := .fin (decide (i < 0)) i.natAbs 0

/-- `2^k` for a natural `k` out of an integer. -/
def pow2 (i : Int) : Nat := 2 ^ i.toNat

/-- Exact product (R25): a NaN factor or ∞ × 0 gives NaN. -/
def mul : Num → Num → Num
  | .nan, _ => .nan
  | _, .nan => .nan
  | .inf a, .inf b => .inf (a != b)
  | .inf a, .fin b m _ => if m = 0 then .nan else .inf (a != b)
  | .fin a m _, .inf b => if m = 0 then .nan else .inf (a != b)
  | .fin a m e, .fin b n f => .fin (a != b) (m * n) (e + f)

/-- The signed significand of a finite value at exponent `e`, which is at most its own. -/
def sigAt (n : Bool) (m : Nat) (f e : Int) : Int :=
  let x : Int := (m * pow2 (f - e) : Nat)
  if n then -x else x

/-- Exact sum: an exact zero is +0, except (−0) + (−0); (+∞) + (−∞) is NaN. -/
def add : Num → Num → Num
  | .nan, _ => .nan
  | _, .nan => .nan
  | .inf a, .inf b => if a = b then .inf a else .nan
  | .inf a, .fin _ _ _ => .inf a
  | .fin _ _ _, .inf b => .inf b
  | .fin a m e, .fin b n f =>
    let g := min e f
    let x := sigAt a m e g + sigAt b n f g
    if x = 0 then .fin (a && b && m == 0 && n == 0) 0 0 else .fin (decide (x < 0)) x.natAbs g

/-- Order of two values as reals with infinities; `none` when unordered. -/
def cmp : Num → Num → Option Ordering
  | .nan, _ => none
  | _, .nan => none
  | .inf a, .inf b => some (if a = b then .eq else if a then .lt else .gt)
  | .inf a, .fin _ _ _ => some (if a then .lt else .gt)
  | .fin _ _ _, .inf b => some (if b then .gt else .lt)
  | .fin a m e, .fin b n f =>
    let g := min e f
    some (compare (sigAt a m e g) (sigAt b n f g))

def lt (a b : Num) : Bool := cmp a b == some .lt
def le (a b : Num) : Bool := cmp a b == some .lt || cmp a b == some .eq
def eq (a b : Num) : Bool := cmp a b == some .eq

/-- A significand with `sh` low bits rounded away. -/
def shiftRound (r : Rnd) (m sh : Nat) : Nat :=
  let q := m / 2 ^ sh
  let rem := m % 2 ^ sh
  match r with
  | .rtz => q
  | .rne =>
    let half := 2 ^ (sh - 1)
    if sh = 0 then q
    else if half < rem ∨ (rem = half ∧ q % 2 = 1) then q + 1 else q

/-- A value rounded to `p` significant bits, and to multiples of `2^lo` when `lo` is given. -/
def round (r : Rnd) (p : Nat) (lo : Option Int) : Num → Num
  | .fin n m e =>
    if m = 0 then .fin n 0 0
    else
      let byWidth : Int := ((Nat.log2 m + 1 : Nat) : Int) - p
      let sh := match lo with
        | some q => max byWidth (q - e)
        | none => byWidth
      if sh ≤ 0 then .fin n m e else .fin n (shiftRound r m sh.toNat) (e + sh)
  | x => x

/-- A value rounded to an integer. -/
def toInt (r : Rnd) (n : Bool) (m : Nat) (e : Int) : Int :=
  let a := if 0 ≤ e then m * pow2 e else shiftRound r m (-e).toNat
  if n then -(a : Int) else a

/-- Is the magnitude of a finite value below `2^k`? -/
def below (m : Nat) (e k : Int) : Bool := lt (.fin false m e) (.fin false 1 k)

end Num

/-! ### Formats (Tables NF-1, NF-2) -/

/-- A floating format: exponent bits, mantissa bits, bias, and what its top exponent holds
(0 infinities and NaNs, 1 the single NaN of E4M3, 2 numbers alone). -/
structure FFmt where
  eb : Nat
  mb : Nat
  bias : Nat
  top : Nat
  deriving DecidableEq, Repr

def fp32 : FFmt := { eb := 8, mb := 23, bias := 127, top := 0 }
def fp16 : FFmt := { eb := 5, mb := 10, bias := 15, top := 0 }
def bf16 : FFmt := { eb := 8, mb := 7, bias := 127, top := 0 }
def e4m3 : FFmt := { eb := 4, mb := 3, bias := 7, top := 1 }
def e5m2 : FFmt := { eb := 5, mb := 2, bias := 15, top := 0 }
def e3m2 : FFmt := { eb := 3, mb := 2, bias := 3, top := 2 }

/-- The floating format of a code. -/
def ffmtOf (c : Nat) : Option FFmt :=
  match c with
  | 0 => some fp32 | 1 => some fp16 | 2 => some bf16 | 3 => some e4m3 | 4 => some e5m2 | 5 => some e3m2 | _ => none

/-- An integer format: bits and whether it is signed. -/
def ifmtOf (c : Nat) : Option (Nat × Bool) :=
  match c with
  | 6 => some (8, true) | 7 => some (8, false) | 8 => some (4, true) | 9 => some (16, false) | _ => none

/-- R17: the code is one of Table NF-1. -/
def fmtOk (c : Nat) : Bool := decide (c ≤ 9)

/-- Bits of an element. -/
def fmtBits (c : Nat) : Nat :=
  match c with
  | 0 => 32 | 1 => 16 | 2 => 16 | 3 => 8 | 4 => 8 | 5 => 6 | 6 => 8 | 7 => 8 | 8 => 4 | 9 => 16 | _ => 0

/-- The value of a floating encoding, subnormals included (R17, Table NF-2). -/
def fdecode (f : FFmt) (w : Nat) : Num :=
  let m := w % 2 ^ f.mb
  let e := natBits w f.mb f.eb
  let n := natBits w (f.mb + f.eb) 1 == 1
  let emax := 2 ^ f.eb - 1
  if e = emax ∧ f.top = 0 then (if m = 0 then .inf n else .nan)
  else if e = emax ∧ f.top = 1 ∧ m = 2 ^ f.mb - 1 then .nan
  else if e = 0 then .fin n m (1 - f.bias - f.mb)
  else .fin n (2 ^ f.mb + m) ((e : Int) - f.bias - f.mb)

/-- A subnormal encoding (R24). -/
def isSub (f : FFmt) (w : Nat) : Bool := natBits w f.mb f.eb == 0 && w % 2 ^ f.mb != 0

/-- The value of a floating encoding with a subnormal flushed to a zero of its sign. -/
def fload (f : FFmt) (w : Nat) : Num :=
  if isSub f w then Num.zero (natBits w (f.mb + f.eb) 1 == 1) else fdecode f w

/-- A two's complement or unsigned integer element. -/
def iload (n : Nat) (signed : Bool) (w : Nat) : Int :=
  let x := w % 2 ^ n
  if signed ∧ 2 ^ (n - 1) ≤ x then (x : Int) - 2 ^ n else x

/-- NaN produced (Table NF-2); FP6-E3M2 writes +0 (R31). -/
def nanOut (f : FFmt) : Nat :=
  if f.top = 1 then 0x7F else if f.top = 2 then 0
  else (2 ^ f.eb - 1) * 2 ^ f.mb + 2 ^ (f.mb - 1)

/-- Exponent of the least normal value. -/
def FFmt.emin (f : FFmt) : Int := 1 - f.bias
/-- The greatest finite value. -/
def FFmt.maxFin (f : FFmt) : Num :=
  if f.top = 0 then .fin false (2 ^ (f.mb + 1) - 1) ((2 ^ f.eb - 2 : Nat) - (f.bias : Int) - f.mb)
  else if f.top = 1 then .fin false (2 ^ (f.mb + 1) - 2) ((2 ^ f.eb - 1 : Nat) - (f.bias : Int) - f.mb)
  else .fin false (2 ^ (f.mb + 1) - 1) ((2 ^ f.eb - 1 : Nat) - (f.bias : Int) - f.mb)

/-- The encoding of a value that the format holds exactly: a zero, a normal value, an infinity or NaN. -/
def fencode (f : FFmt) : Num → Nat
  | .nan => nanOut f
  | .inf n => b2n n * 2 ^ (f.eb + f.mb) + (2 ^ f.eb - 1) * 2 ^ f.mb
  | .fin n m e =>
    let sgn := b2n n * 2 ^ (f.eb + f.mb)
    if m = 0 then sgn
    else
      let len := Nat.log2 m
      let ex := e + len + f.bias
      let sig := if f.mb ≤ len then m / 2 ^ (len - f.mb) else m * 2 ^ (f.mb - len)
      sgn + ex.toNat * 2 ^ f.mb + sig % 2 ^ f.mb

/-- A value rounded to a binary format as IEEE 754 rounds it, then a result below the least normal value flushed
to a zero of its sign (R25, R29, R34); past the greatest value an infinity under RNE. -/
def roundF (f : FFmt) (x : Num) : Num :=
  match Num.round .rne (f.mb + 1) (some (f.emin - f.mb)) x with
  | .fin n m e =>
    if m = 0 then .fin n 0 0
    else if Num.below m e f.emin then Num.zero n
    else if Num.lt f.maxFin (.fin false m e) then .inf n
    else .fin n m e
  | y => y

def round32 (x : Num) : Num := roundF fp32 x

/-- The FP32 encoding of a value. -/
def enc32 (x : Num) : Word := BitVec.ofNat 32 (fencode fp32 x)
/-- The FP32 value of a word, subnormals flushed. -/
def dec32 (w : Word) : Num := fload fp32 w.toNat

/-! ### Conversion (R29 to R31) -/

/-- What one conversion adds to the counters of Table NF-8. -/
structure Census where
  sat : Nat := 0
  inFlush : Nat := 0
  outFlush : Nat := 0
  nan : Nat := 0
  deriving DecidableEq, Repr

def Census.plus (a b : Census) : Census :=
  { sat := satTo 0xFFFFFFFF (a.sat + b.sat), inFlush := satTo 0xFFFFFFFF (a.inFlush + b.inFlush)
    outFlush := satTo 0xFFFFFFFF (a.outFlush + b.outFlush), nan := satTo 0xFFFFFFFF (a.nan + b.nan) }

/-- Steps 5 to 7 of R29 for a value that is not NaN: encoding, changed by saturation, flushed. `ieee` is the overflow mode. -/
def narrow (fmt : Nat) (r : Rnd) (ieee : Bool) (x : Num) : Nat × Bool × Bool :=
  match ffmtOf fmt with
  | some f =>
    let sat := fun (n : Bool) => if ieee && f.top == 0 then fencode f (.inf n) else fencode f (if n then f.maxFin.neg else f.maxFin)
    match Num.round r (f.mb + 1) none x with
    | .fin n m e =>
      if m = 0 then (fencode f (Num.zero n), false, false)
      else if Num.below m e f.emin then (fencode f (Num.zero n), false, true)
      else if Num.lt f.maxFin (.fin false m e) then (sat n, true, false)
      else (fencode f (.fin n m e), false, false)
    | .inf n => if ieee && f.top == 0 then (fencode f (.inf n), false, false) else (sat n, true, false)
    | .nan => (nanOut f, false, false)
  | none =>
    match ifmtOf fmt with
    | none => (0, false, false)
    | some (b, sg) =>
      let hi : Int := if sg then 2 ^ (b - 1) - 1 else 2 ^ b - 1
      let lo : Int := if sg then -(2 ^ (b - 1)) else 0
      let put := fun (i : Int) => (i % 2 ^ b).toNat
      match x with
      | .nan => (0, false, false)
      | .inf n => (put (if n then lo else hi), true, false)
      | .fin n m e =>
        let i := Num.toInt r n m e
        if i < lo then (put lo, true, false) else if hi < i then (put hi, true, false) else (put i, false, false)

/-- R31: the encoding of a NaN in a format. -/
def nanFmt (fmt : Nat) : Nat := match ffmtOf fmt with
  | some f => nanOut f
  | none => 0

/-- Any element of a format as a value, with floating subnormals flushed. -/
def loadFmt (fmt w : Nat) : Num :=
  match ffmtOf fmt with
  | some f => fload f w
  | none => match ifmtOf fmt with
    | some (b, sg) => Num.ofInt (iload b sg w)
    | none => .nan

/-- An element whose loading flushes a subnormal (R24). -/
def flushes (fmt w : Nat) : Bool := match ffmtOf fmt with
  | some f => isSub f w
  | none => false

/-- The activation table of Table NF-6 as read: words 0 to 47. -/
abbrev ActTable := List Word

def actB (t : ActTable) (i : Nat) : Num := dec32 (t.getD (i - 1) 0)
def actM (t : ActTable) (i : Nat) : Num := dec32 (t.getD (16 + i) 0)
def actC (t : ActTable) (i : Nat) : Num := dec32 (t.getD (32 + i) 0)

def isFin : Num → Bool
  | .fin _ _ _ => true | _ => false

/-- R28: the table is accepted. -/
def actOk (t : ActTable) : Bool :=
  (List.range 15).all (fun i => isFin (actB t (i + 1))) &&
  (List.range 14).all (fun i => Num.lt (actB t (i + 1)) (actB t (i + 2))) &&
  (List.range 16).all (fun i => isFin (actM t i) && isFin (actC t i)) &&
  t.getD 15 0 == 0

/-- R28: the piecewise-linear activation. -/
def pwl (t : ActTable) (x : Num) : Num :=
  if x.isNan then .nan
  else
    let seg := ((List.range 15).filter (fun i => Num.le (actB t (i + 1)) x)).length
    let m := actM t seg
    if Num.eq m (Num.zero false) then actC t seg
    else round32 (Num.add (Num.mul m x) (actC t seg))

/-- Parameters of one conversion (Table NF-5): scale and bias of the column as FP32 words. -/
structure Conv where
  fmt : Nat
  scale : Word
  bias : Option Word
  act : Option ActTable
  clipMin : Word
  clipMax : Word
  rnd : Rnd
  ieee : Bool
  deriving DecidableEq, Repr

/-- R29: one output element of an exact accumulator: its encoding and what it adds to the counters.
`accSat` says that the accumulator saturated (R33). -/
def convert (c : Conv) (acc : Num) (accSat : Bool) : Nat × Census :=
  let x := round32 (Num.mul acc (dec32 c.scale))
  let x := match c.bias with
    | some b => round32 (Num.add x (dec32 b))
    | none => x
  let x := match c.act with
    | some t => pwl t x
    | none => x
  let lo := dec32 c.clipMin
  let hi := dec32 c.clipMax
  let x := if x.isNan then x else
    let y := if Num.lt x lo then lo else x
    if Num.lt hi y then hi else y
  if x.isNan then (nanFmt c.fmt, { sat := b2n accSat, nan := 1 })
  else
    let r := narrow c.fmt c.rnd c.ieee x
    (r.1, { sat := b2n (accSat || r.2.1), outFlush := b2n r.2.2 })

/-! ### Accumulation (R20 to R25) -/

/-- Table NF-3: the pairing of formats is legal; the answer is its rate class (8, 4 or 16 bits) and whether
block scaling is permitted. -/
def pairing (a w : Nat) : Option (Nat × Bool) :=
  let small := fun c => c == 3 || c == 4 || c == 5
  if small a && small w then some (8, true)
  else if a = 6 ∧ w = 6 then some (8, true)
  else if a = 7 ∧ w = 6 then some (8, false)
  else if a = 8 ∧ w = 8 then some (4, true)
  else if a = 1 ∧ w = 1 then some (16, false)
  else if a = 2 ∧ w = 2 then some (16, false)
  else if a = 9 ∧ w = 6 then some (16, false)
  else none

/-- R22: an element's value under block scaling. -/
def scaledElem (fmt w : Nat) : Num :=
  match loadFmt fmt w with
  | .fin n m e => .fin n m (if fmt = 6 then e - 6 else if fmt = 8 then e - 2 else e)
  | x => x

/-- R23: a product times the two block scales. -/
def scaleProd (p : Num) (xa xw : Nat) : Num :=
  if xa = 0xFF ∨ xw = 0xFF then .nan
  else match p with
    | .fin n m e => .fin n m (e + xa + xw - 254)
    | x => x

/-- R25: the accumulator of the floating class over products in ascending k. -/
def accF : Num → List Num → Num
  | acc, [] => acc
  | acc, p :: ps => accF (round32 (Num.add acc p)) ps

/-- R25: the INT32 accumulator and whether it saturated at any add (R33). -/
def accI : Int × Bool → List Int → Int × Bool
  | a, [] => a
  | (acc, s), p :: ps =>
    let x := acc + p
    if x < -(2 ^ 31) then accI (-(2 ^ 31), true) ps
    else if 2 ^ 31 - 1 < x then accI (2 ^ 31 - 1, true) ps
    else accI (x, s) ps

/-- The pairing accumulates in FP32. -/
def fp32Class (a w : Nat) (scaled : Bool) : Bool := scaled || (ffmtOf a).isSome && (ffmtOf w).isSome

/-- R25: one output element's exact accumulator from elements, weights and, when scaled, their E8M0 scales. -/
def dotProduct (fa fw : Nat) (scaled : Bool) (els : List (Nat × Nat × Nat × Nat)) : Num × Bool :=
  if fp32Class fa fw scaled then
    (accF (Num.zero false) (els.map (fun x =>
      if scaled then scaleProd (Num.mul (scaledElem fa x.1) (scaledElem fw x.2.1)) x.2.2.1 x.2.2.2
      else Num.mul (loadFmt fa x.1) (loadFmt fw x.2.1))), false)
  else
    let val := fun c w => match ifmtOf c with
      | some (b, sg) => iload b sg w
      | none => 0
    let r := accI (0, false) (els.map (fun x => val fa x.1 * val fw x.2.1))
    (Num.ofInt r.1, r.2)

/-! ### Pinion arithmetic (R34) -/

/-- A packed element of a format in a bit string: element `i` from the little-endian bytes (R18). -/
def elemAt (fmt : Nat) (b : List Byte) (i : Nat) : Nat :=
  if fmt = 5 then natBits (leAt b (3 * (i / 4)) 3) (6 * (i % 4)) 6
  else if fmt = 8 then natBits (leAt b (i / 2) 1) (4 * (i % 2)) 4
  else leAt b (i * (fmtBits fmt / 8)) (fmtBits fmt / 8)

/-- Bytes that `n` packed elements take (R18). -/
def packedBytes (fmt n : Nat) : Nat :=
  if fmt = 5 then ceilDiv n 4 * 3 else ceilDiv (n * fmtBits fmt) 8

/-- A row of packed elements (R18); unused bits are zero. -/
def packElems (fmt : Nat) (es : List Nat) : List Byte :=
  if fmt = 5 then
    ((List.range (ceilDiv es.length 4)).map (fun g =>
      toLe ((List.range 4).foldl (fun a j => a + (es.getD (4 * g + j) 0) % 64 * 2 ^ (6 * j)) 0) 3)).flatten
  else if fmt = 8 then
    (List.range (ceilDiv es.length 2)).map (fun g =>
      BitVec.ofNat 8 ((es.getD (2 * g) 0) % 16 + (es.getD (2 * g + 1) 0) % 16 * 16))
  else (es.map (fun e => toLe e (fmtBits fmt / 8))).flatten

/-- Bitwise integer square root: the greatest `r` with `r * r ≤ n`, from bit `k - 1` down. -/
def isqrt (n : Nat) : Nat → Nat → Nat
  | 0, r => r
  | k + 1, r => isqrt n k (if (r + 2 ^ k) * (r + 2 ^ k) ≤ n then r + 2 ^ k else r)

/-- Correctly rounded quotient: the low bit kept sticky below every bit that rounding looks at. -/
def fdivN (f : FFmt) (a b : Num) : Num :=
  match a, b with
  | .nan, _ => .nan
  | _, .nan => .nan
  | .inf _, .inf _ => .nan
  | .inf x, .fin y _ _ => .inf (x != y)
  | .fin x _ _, .inf y => Num.zero (x != y)
  | .fin x m e, .fin y n g =>
    if n = 0 then (if m = 0 then .nan else .inf (x != y))
    else
      let k := 2 * f.mb + 8
      let q := m * 2 ^ k / n
      let sticky := b2n (decide (m * 2 ^ k % n ≠ 0))
      roundF f (.fin (x != y) (2 * q + sticky) (e - g - k - 1))

/-- Correctly rounded square root. -/
def fsqrtN (f : FFmt) (a : Num) : Num :=
  match a with
  | .nan => .nan
  | .inf n => if n then .nan else .inf false
  | .fin n m e =>
    if m = 0 then Num.zero n
    else if n then .nan
    else
      let k : Nat := 2 * f.mb + 8 + (e % 2).toNat
      let x := m * 2 ^ k
      let r := isqrt x (Nat.log2 x / 2 + 1) 0
      roundF f (.fin false (2 * r + b2n (decide (r * r ≠ x))) ((e - k) / 2 - 1))

/-- minimumNumber and maximumNumber: a NaN loses to a number, and −0 is less than +0. -/
def minNum (a b : Num) : Num :=
  if a.isNan then b else if b.isNan then a
  else if Num.lt a b then a else if Num.lt b a then b else if a.sign then a else b

def maxNum (a b : Num) : Num :=
  if a.isNan then b else if b.isNan then a
  else if Num.lt a b then b else if Num.lt b a then a else if a.sign then b else a

end Sys2Proof.Machine
end

