-- ==== Sys2Proof/Machine/Operands.lean ====
section
/-! DEFINITION. Operand forms of the Pinion instructions (R156, R158): the fields of an instruction word, the
registers, predicates and guard of a beat, source modifiers, register runs and pairs. -/

namespace Sys2Proof.Machine

/-- The fields of a 64-bit instruction word, by every format of Table PN-8. -/
structure Ins where
  op : Nat
  guard : Nat
  /-- DST or DATA. -/
  dst : Nat
  /-- SRC0 or ADDR. -/
  s0 : Nat
  s1 : Nat
  s2 : Nat
  /-- TYPE of format A. -/
  ty : Nat
  mod : Nat
  /-- IMM of format I. -/
  imm : Word
  /-- WIDTH, FLAGS and OFFSET of format M. -/
  width : Nat
  flags : Nat
  offset : Nat
  /-- COND and target of format B. -/
  cond : Nat
  target : Nat
  deriving DecidableEq, Repr

/-- R158: an instruction word taken apart. -/
def insOf (w : Dword) : Ins :=
  { op := bits w 56 8, guard := bits w 52 4, dst := bits w 44 8, s0 := bits w 36 8, s1 := bits w 28 8, s2 := bits w 20 8
    ty := bits w 16 4, mod := bits w 0 16, imm := BitVec.ofNat 32 (bits w 28 4 * 2 ^ 28 + bits w 0 28)
    width := bits w 32 4, flags := bits w 28 4 * 16 + bits w 24 4, offset := bits w 0 24
    cond := bits w 50 2, target := bits w 0 32 }

/-- A field of `n` bits as a two's complement number. -/
def sext (n x : Nat) : Int := if x < 2 ^ (n - 1) then x else (x : Int) - 2 ^ n

/-- OFFSET in bytes. -/
def Ins.off (i : Ins) : Int := sext 24 i.offset

/-- An address a signed distance away, modulo 2^64. -/
def addOff (a : Nat) (o : Int) : Nat := ((a : Int) + o).toNat % 2 ^ 64

/-- Table PN-9: the opcode is assigned. -/
def opAssigned (op : Nat) : Bool :=
  decide (op ≤ 0x05) || (decide (0x10 ≤ op) && decide (op ≤ 0x1D)) || (decide (0x20 ≤ op) && decide (op ≤ 0x37)) ||
  (decide (0x40 ≤ op) && decide (op ≤ 0x49)) || (decide (0x50 ≤ op) && decide (op ≤ 0x59)) ||
  (decide (0x5C ≤ op) && decide (op ≤ 0x61)) || (decide (0x70 ≤ op) && decide (op ≤ 0x77))

/-! ### The registers of a beat -/

/-- Mask of all 32 lanes. -/
def allLanes : Nat := 2 ^ 32 - 1

/-- Register `r` of lane `l`; one not yet written holds a free value (assumption log 3). -/
def Beat.reg (b : Beat) (r l : Nat) : Word :=
  match tfind b.regs (32 * r + l) with
  | some w => w
  | none => Config.regInit b.seed (32 * r + l)

/-- Register `r` of lane `l` written. -/
def Beat.setReg (b : Beat) (r l : Nat) (w : Word) : Beat := { b with regs := tset b.regs (32 * r + l) w }

/-- R156: predicate `n`; P0 reads as all ones. -/
def Beat.pred (b : Beat) (n : Nat) : Nat :=
  if n = 0 then allLanes
  else match tfind b.preds n with
    | some m => m
    | none => (Config.regInit b.seed (8192 + n)).toNat

/-- R156: predicate `n` written; a write to P0 is ignored. -/
def Beat.setPred (b : Beat) (n m : Nat) : Beat :=
  if n = 0 then b else { b with preds := tset b.preds n (m % 2 ^ 32) }

/-- R156: the lanes in which an instruction acts. -/
def guardLanes (b : Beat) (g : Nat) : Nat :=
  let p := b.pred (g % 8)
  b.active &&& (if 8 ≤ g then allLanes ^^^ p else p)

/-- The lanes of a mask, ascending. -/
def lanesOf (m : Nat) : List Nat := (List.range 32).filter (fun l => natBits m l 1 == 1)

/-- A lane belongs to a mask. -/
def inMask (m l : Nat) : Bool := natBits m l 1 == 1

/-- Register `r` written in each lane of a mask with the value `f` gives for the lane. -/
def writeLanes (b : Beat) (m r : Nat) (f : Nat → Word) : Beat :=
  (lanesOf m).foldl (fun c l => c.setReg r l (f l)) b

/-- Predicate `n` takes, in the lanes of a mask, the bits `f` gives; other lanes keep theirs. -/
def writePred (b : Beat) (m n : Nat) (f : Nat → Bool) : Beat :=
  b.setPred n ((List.range 32).foldl (fun p l => p + (if inMask m l then b2n (f l) else natBits (b.pred n) l 1) <<< l) 0)

/-- The 64-bit value of the register pair at `r`, low register first. -/
def Beat.pair (b : Beat) (r l : Nat) : Nat := (b.reg r l).toNat + 2 ^ 32 * (b.reg (r + 1) l).toNat

/-- A 64-bit value written to the register pair at `r`. -/
def Beat.setPair (b : Beat) (r l v : Nat) : Beat :=
  (b.setReg r l (BitVec.ofNat 32 v)).setReg (r + 1) l (BitVec.ofNat 32 (v / 2 ^ 32))

/-- Registers that data of a WIDTH code takes. -/
def runLen (width : Nat) : Nat := if width ≤ 2 then 1 else if width = 3 then 2 else 4

/-- Bytes of a WIDTH code. -/
def widthBytes (width : Nat) : Nat := 2 ^ width

/-- The bytes that a lane's data run holds, lowest first. -/
def Beat.runBytes (b : Beat) (r l n : Nat) : List Byte :=
  ((List.range ((n + 3) / 4)).map (fun i => toLe (b.reg (r + i) l).toNat 4)).flatten.take n

/-- A lane's data run loaded from bytes; a run shorter than a register is zero-extended. -/
def Beat.setRun (b : Beat) (r l : Nat) (d : List Byte) : Beat :=
  (List.range ((d.length + 3) / 4)).foldl (fun c i => c.setReg (r + i) l (BitVec.ofNat 32 (leAt d (4 * i) 4))) b

/-- R158: every register named lies below VREGS. -/
def regsOk (vregs : Nat) (rs : List Nat) : Bool := rs.all (fun r => decide (r < vregs))

/-- R158: a register run is aligned to its length, and lies below VREGS. -/
def runOk (vregs r n : Nat) : Bool := decide (r % n = 0) && decide (r + n ≤ vregs)

/-! ### Source modifiers (MOD of R158) -/

/-- ABS and NEG of source `k` on a word whose sign bit is bit `n - 1`. -/
def modBits (mod k n x : Nat) : Nat :=
  let x := if natBits mod (2 * k + 1) 1 = 1 then x % 2 ^ (n - 1) else x
  if natBits mod (2 * k) 1 = 1 then x ^^^ 2 ^ (n - 1) else x

/-- An FP32 source: modified, then its value with a subnormal flushed (R34). -/
def src32 (mod k : Nat) (w : Word) : Num := dec32 (BitVec.ofNat 32 (modBits mod k 32 w.toNat))

/-- Half `h` of a packed FP16 source. -/
def src16 (mod k h : Nat) (w : Word) : Num := fload fp16 (modBits mod k 16 (bits w (16 * h) 16))

/-- SAT: a result clamped to [0, 1]; a NaN is left. -/
def satNum (mod : Nat) (x : Num) : Num :=
  if natBits mod 6 1 = 0 ∨ x.isNan = true then x
  else if Num.lt x (Num.zero false) then Num.zero false
  else if Num.lt (Num.ofInt 1) x then Num.ofInt 1 else x

/-- An FP32 result: rounded once, flushed, clamped under SAT. -/
def res32 (mod : Nat) (x : Num) : Word := enc32 (satNum mod (round32 x))

/-- A result of one FP16 half. -/
def res16 (mod : Nat) (x : Num) : Nat := fencode fp16 (satNum mod (roundF fp16 x))

/-- Two halves packed into a register. -/
def pack16 (lo hi : Nat) : Word := BitVec.ofNat 32 (lo % 2 ^ 16 + 2 ^ 16 * (hi % 2 ^ 16))

/-- The rounding direction and overflow mode named by MOD. -/
def modRnd (mod : Nat) : Rnd := if natBits mod 7 1 = 1 then .rtz else .rne
def modIeee (mod : Nat) : Bool := natBits mod 8 1 == 1

end Sys2Proof.Machine
end

