-- ==== Sys2Proof/Machine/Flags.lean ====
section
/-! DEFINITION. Conditions (R157, R158): what a compare of numbers or integers answers, and when a branch is taken. -/

namespace Sys2Proof.Machine

/-- R158: a compare condition on two floating values: EQ, NE, LT, LE, GT, GE, ORD, UNORD. NaN is unordered: it
answers NE and UNORD alone. -/
def fcond (c : Nat) (a b : Num) : Bool :=
  let un := a.isNan || b.isNan
  if c = 0 then Num.eq a b
  else if c = 1 then !Num.eq a b
  else if c = 2 then Num.lt a b
  else if c = 3 then Num.le a b
  else if c = 4 then Num.lt b a
  else if c = 5 then Num.le b a
  else if c = 6 then !un
  else un

/-- A compare condition on two integers; integers are always ordered. -/
def icond (c : Nat) (a b : Int) : Bool :=
  if c = 0 then decide (a = b)
  else if c = 1 then decide (a ≠ b)
  else if c = 2 then decide (a < b)
  else if c = 3 then decide (a ≤ b)
  else if c = 4 then decide (b < a)
  else if c = 5 then decide (b ≤ a)
  else c == 6

/-- A condition code of R158. -/
def condOk (c : Nat) : Bool := decide (c ≤ 7)

/-- R157: a branch with COND is taken, for guard lanes `g` of a beat whose active mask is `a`. -/
def branchTaken (cond g a : Nat) : Bool :=
  if cond = 0 then true else if cond = 1 then g != 0 else if cond = 2 then g == a else g == 0

end Sys2Proof.Machine
end

