-- ==== Sys2Proof/Machine/Workgroups.lean ====
section
/-! DEFINITION. Pinions as a place for work (chapter 08): programs, dispatches, workgroups and their queues,
admission, stealing, memory errors, tests and spares. -/

namespace Sys2Proof.Machine

/-! ### Programs (R149, R150) -/

/-- A program header read (Table PN-4). -/
structure Prog where
  kind : Nat
  vregs : Nat
  loc : Nat
  codeBytes : Nat
  wgx : Nat
  wgy : Nat
  wgz : Nat
  deriving DecidableEq, Repr

def progOf (h : List Byte) : Prog :=
  { kind := leAt h 7 1, vregs := 8 * leAt h 6 1, loc := natBits (leAt h 4 4) 0 9, codeBytes := leAt h 8 4
    wgx := leAt h 0xC 2, wgy := leAt h 0xE 2, wgz := leAt h 0x10 2 }

/-- R145, R149: a header keeps Table PN-4, suits the field that names it, and a workgroup of it fits an empty Pinion. -/
def progOk (h : List Byte) (kind minRegs : Nat) : Bool :=
  let p := progOf h
  let dim := fun n => decide (1 ≤ n) && decide (n ≤ 1024)
  leAt h 0 4 == 0x31504E50 && p.kind == kind && decide (8 ≤ p.vregs) && decide (p.vregs ≤ 256) &&
  natBits (leAt h 4 4) 9 7 == 0 && decide (p.loc ≤ 256) && decide (8 ≤ p.codeBytes) && decide (p.codeBytes ≤ 16777216) &&
  p.codeBytes % 8 == 0 && leAt h 0x12 2 == 0 && leAt h 0x14 44 == 0 && decide (minRegs ≤ p.vregs) &&
  (if kind = 0 then dim p.wgx && dim p.wgy && dim p.wgz && decide (p.wgx * p.wgy * p.wgz ≤ 1024) &&
      decide (ceilDiv (ceilDiv (p.wgx * p.wgy * p.wgz) 32) 4 ≤ Nat.min 16 (512 / p.vregs))
   else p.wgx == 0 && p.wgy == 0 && p.wgz == 0 && p.loc == 0)

/-! ### Pinions and trains (R144, R169, R170) -/

def pinionOf (s : State) (t p : Nat) : Pinion := tget {} s.pn.pinions (9 * t + p)
def setPinion (s : State) (t p : Nat) (x : Pinion) : State :=
  { s with pn := { s.pn with pinions := tput {} s.pn.pinions (9 * t + p) x } }

/-- R144: the position is enabled by fuse. -/
def pinFused (v : Variant) (t p : Nat) : Bool :=
  decide (t < Config.trains v) && (decide (p < 8) || (p == 8 && decide (t < Config.pnSpares v)))

/-- An active Pinion. -/
def pinActive (s : State) (t p : Nat) : Bool :=
  pinFused s.fuse.variant t p && !(pinionOf s t p).retired && (decide (p < 8) || (pinionOf s t p).promoted)

/-- The train's healthy hot spare, not yet active. -/
def spareReady (s : State) (t : Nat) : Bool :=
  pinFused s.fuse.variant t 8 && !(pinionOf s t 8).retired && !(pinionOf s t 8).promoted

/-- R169: the Pinion may admit work; a hot spare does so while one of its train drains. -/
def pinAdmits (s : State) (t p : Nat) : Bool :=
  (pinActive s t p && !(pinionOf s t p).draining) ||
  (p == 8 && spareReady s t && (List.range 9).any (fun q => pinActive s t q && (pinionOf s t q).draining))

/-- Active Pinions of a train. -/
def trainActive (s : State) (t : Nat) : Nat := ((List.range 9).filter (pinActive s t)).length

/-! ### Workgroups on Pinions (R145, R146) -/

def wgOf (s : State) (w : Nat) : Option Wg := tfind s.pn.wgs w
def setWg (s : State) (w : Nat) (x : Wg) : State := { s with pn := { s.pn with wgs := tset s.pn.wgs w x } }
def dropWg (s : State) (w : Nat) : State := { s with pn := { s.pn with wgs := tdel s.pn.wgs w } }

/-- Workgroups resident on a Pinion. -/
def resident (s : State) (t p : Nat) : List Wg :=
  (s.pn.wgs.filter (fun x => x.2.phase == .resident && x.2.train == t && x.2.pos == p)).map (·.2)

/-- Beats of a workgroup on SIMD unit `u`. -/
def unitBeats (w : Wg) (u : Nat) : Nat := (w.beats.length + 3 - u) / 4

/-- R145, R146: a workgroup fits a Pinion beside what is resident. -/
def wgFits (s : State) (t p : Nat) (w : Wg) : Bool :=
  let r := resident s t p
  decide (r.length < 16) &&
  (List.range 4).all (fun u =>
    decide ((r.map (fun x => unitBeats x u)).sum + unitBeats w u ≤ 16) &&
    decide ((r.map (fun x => unitBeats x u * x.vregs)).sum + unitBeats w u * w.vregs ≤ 512)) &&
  decide ((r.map (·.loc)).sum + w.loc ≤ 256) &&
  (w.kind == 0 || decide ((((r.filter (·.kind != 0)).map (·.beats.length)).sum + w.beats.length) +
    Nat.min 64 (rfld s Reg.PN_CONFIG 16 7) ≤ 64))

/-- R146: the class of a waiting workgroup: graphics, FOREGROUND compute, other compute. -/
def wgClass (w : Wg) : Nat := if w.kind ≠ 0 then 0 else if w.fg then 1 else 2

/-- Workgroups waiting in a train's queue, oldest first. -/
def trainQueue (s : State) (t : Nat) : List (Nat × Wg) := s.pn.wgs.filter (fun x => x.2.phase == .queued && x.2.aff == t)

/-- R146: the workgroup that a Pinion admits next from its own train's queue. -/
def ownCand (s : State) (t p : Nat) : Option (Nat × Wg) :=
  (List.range 3).findSome? (fun c => match (trainQueue s t).find? (fun x => wgClass x.2 == c) with
    | some x => if wgFits s t p x.2 then some x else none
    | none => none)

/-- R154: the train's queue holds a compute workgroup that the Pinion may admit. -/
def hasOwnCompute (s : State) (t p : Nat) : Bool := (trainQueue s t).any (fun x => x.2.kind == 0 && wgFits s t p x.2)

/-- R154, R171: the steal delay of each Pinion runs while its own queue holds nothing for it. -/
def syncSteal (s : State) : State :=
  let ks := ((List.range (Config.trains s.fuse.variant)).map (fun t => (List.range 9).map (fun p => (t, p)))).flatten
  let l := ks.foldl (fun (l : Tbl Nat) k =>
    if hasOwnCompute s k.1 k.2 then tdel l (9 * k.1 + k.2)
    else match tfind l (9 * k.1 + k.2) with
      | some _ => l
      | none => tset l (9 * k.1 + k.2) (s.time.dev + 1)) s.pn.idleSince
  { s with pn := { s.pn with idleSince := l } }

def setDisp (s : State) (d : Nat) (x : Disp) : State := { s with pn := { s.pn with disps := tset s.pn.disps d x } }

/-- A workgroup becomes resident on a Pinion. -/
def placeWg (s : State) (id : Nat) (w : Wg) (t p : Nat) : State :=
  let k := s.pn.admClock + 1
  let s := setWg { s with pn := { s.pn with admClock := k } } id { w with phase := .resident, train := t, pos := p, admitted := k }
  let s := if t = w.aff then s
    else
      let s := countReg s Reg.PN_STEALS 32 1
      match tfind s.pn.disps w.owner with
      | some d => if w.kind = 0 then setDisp s w.owner { d with stolen := satTo (2 ^ 32 - 1) (d.stolen + 1) } else s
      | none => s
  syncSteal s

/-- The Pinions take new work: neither the function nor the train is fenced, and bring-up is over. -/
def pinionsUp (s : State) (t : Nat) : Bool :=
  !fnNotReady s Fun.PINIONS && !fnFenced s Fun.PINIONS && !trainFenced s (16 + t)

/-- WORKGROUP_ADMISSION (R145, R146). -/
def execWorkgroupAdmission (train pos : Nat) (s : State) : Out :=
  .next <|
    if pinionsUp s train && pinAdmits s train pos then
      match ownCand s train pos with
      | some (id, w) => placeWg s id w train pos
      | none => s
    else s

/-- R154: the delay has run. -/
def stealDue (s : State) (t p : Nat) : Bool :=
  let d := rfld s Reg.PN_CONFIG 0 16
  d != 0xFFFF && !hasOwnCompute s t p &&
  match tfind s.pn.idleSince (9 * t + p) with
  | some a => decide (a - 1 + d ≤ s.time.dev)
  | none => d == 0

/-- R154: a workgroup that a train may steal. -/
def stealable (t : Nat) (w : Wg) : Bool := w.kind != 2 && !w.noSteal && natBits w.trains t 1 == 1

/-- R154: the workgroup a Pinion steals, from the first queue in ring order that holds one it may admit. -/
def stealCand (s : State) (t p : Nat) : Option (Nat × Wg) :=
  let n := Config.trains s.fuse.variant
  (List.range (n - 1)).findSome? (fun k =>
    (trainQueue s ((t + k + 1) % n)).find? (fun x => stealable t x.2 && wgFits s t p x.2))

/-- WORKGROUP_STEAL (R154). -/
def execWorkgroupSteal (train pos : Nat) (s : State) : Out :=
  .next <|
    if pinionsUp s train && pinAdmits s train pos && stealDue s train pos then
      match stealCand s train pos with
      | some (id, w) => placeWg s id w train pos
      | none => s
    else s

/-! ### Workgroups formed and ended -/

/-- A beat formed: its active lanes, its first registers, and a fresh draw for the rest (assumption log 3). -/
def newBeat (seed active helpers : Nat) (frag : List (Nat × Nat × Nat)) (init : List (Nat × Nat × Word)) : Beat :=
  init.foldl (fun b x => b.setReg x.1 x.2.1 x.2.2) { active := active, helpers := helpers, seed := seed, frag := frag }

/-- R150, R168: the outputs of an abandoned workgroup are undefined: its lanes end with free values. -/
def abandonBeats (seed : Nat) (bs : List Beat) : List Beat :=
  (bs.zip (List.range bs.length)).map (fun x =>
    { x.1 with active := 0, ended := x.1.active ||| x.1.ended, regs := [], preds := [], seed := seed + x.2, waiting := false, atBar := false })

/-- A workgroup leaves its Pinion: counted for its dispatch, or kept for its pass to collect. -/
def leaveWg (s : State) (id : Nat) (w : Wg) : State :=
  let s := { s with evs := { s.evs with waits := s.evs.waits.filter (fun x => !(x.kind == 1 && x.id / 32 == id)) }
                    al := { s.al with queue := s.al.queue.filter (fun q => !(q.desc.isNone && q.wg == id)) } }
  let s := if w.kind = 0 then
      match tfind s.pn.disps w.owner with
      | some d => setDisp (dropWg s id) w.owner { d with ended := d.ended + 1 }
      | none => dropWg s id
    else setWg s id { w with phase := .done }
  syncSteal s

/-- R168: a workgroup is abandoned. -/
def abandonWg (s : State) (id : Nat) (code : Nat) : State :=
  match wgOf s id with
  | none => s
  | some w =>
    if w.phase = .done then s
    else
      let s := noteFail s w.owner code
      let bs := abandonBeats s.free w.beats
      leaveWg { s with free := s.free + bs.length } id { w with beats := bs }

/-- Every workgroup of which `p` holds is abandoned. -/
def abandonAll (s : State) (code : Nat) (p : Wg → Bool) : State :=
  ((s.pn.wgs.filter (fun x => p x.2)).map (·.1)).foldl (fun s id => abandonWg s id code) s

/-- A workgroup added, waiting in its train's queue. Graphics work formed while the Pinions or its train are fenced
is abandoned at once, as the fence abandons what is resident (Table ER-3). -/
def addWg (s : State) (w : Wg) : State :=
  let id := s.pn.nextWg
  let s := setWg { s with pn := { s.pn with nextWg := id + 1 }, free := s.free + w.beats.length } id w
  if w.kind ≠ 0 ∧ (fnFenced s Fun.PINIONS || trainFenced s (16 + w.aff)) = true then abandonWg s id St.PINION_FAULT
  else syncSteal s

/-- A workgroup all of whose beats are inactive. -/
def wgOver (w : Wg) : Bool := w.beats.all (fun b => b.active == 0)

/-- WORKGROUP_END (R157). -/
def execWorkgroupEnd (wg : Nat) (s : State) : Out :=
  .next <| match wgOf s wg with
  | none => s
  | some w => if w.phase = .resident ∧ wgOver w = true then leaveWg s wg w else s

/-! ### Dispatches (R151 to R153) -/

/-- R151: the body keeps Table PN-6. -/
def dispOk (s : State) (d : Desc) : Bool :=
  let f := leAt d.bytes 0x28 4
  let va := fun n => decide (n < 2 ^ 57) && n % 64 == 0
  let yz := bodyVal d 0x24 4
  natBits f 31 1 == 0 && natBits f 12 12 == 0 && va (leAt d.bytes 0x10 8) && va (leAt d.bytes 0x18 8) && va (leAt d.bytes 0x38 8) &&
  bodyVal d 0x20 4 != 0 && yz % 2 ^ 16 != 0 && yz / 2 ^ 16 != 0 &&
  (f % 2 ^ 12 == 0 || f % 2 ^ Config.trains s.fuse.variant != 0)

/-- The completion record of a dispatch (Table PN-7). -/
def dispRecord (s : State) (status stolen ended ticks : Nat) : List Byte :=
  toLe status 4 ++ toLe stolen 4 ++ toLe ended 8 ++ toLe ticks 8 ++ toLe (calTime s) 8

/-- R153: a dispatch completes with its record. -/
def endDisp (s : State) (id status stolen ended ticks : Nat) : State :=
  let s := { s with pn := { s.pn with disps := tdel s.pn.disps id } }
  match tfind s.esc.descs id with
  | none => s
  | some d =>
    let st := (fenceStatus s d.ctx d.eng).getD status
    let a := leAt d.bytes 0x38 8
    let r := if a = 0 ∨ a % 64 ≠ 0 ∨ 2 ^ 57 ≤ a then none else some (a, dispRecord s st stolen ended ticks)
    endDesc (setDesc s id { d with record := r }) id st

/-- DISPATCH (R151): its header is read and checked through stream 43. -/
def execDispatch (desc : Nat) (s : State) : Out :=
  .next <| match startedDesc s desc Op.DISPATCH with
  | none => s
  | some d =>
    if (tfind s.pn.disps desc).isSome then s
    else if d.indBad then endDisp s desc St.BAD_OPERAND 0 0 0
    else if dispOk s d = false then endDisp s desc (if d.indFault then St.IN_FAULT else St.BAD_DISPATCH) 0 0 0
    else
      let va := leAt d.bytes 0x10 8
      let w : Who := { stream := 43, ctx := d.ctx, eng := d.eng, ring := some d.ring }
      withMem s w [{ va := va, len := 64, kind := 0 }]
        (fun s m =>
          let h := vaRd s false m va 64
          if progOk h 0 0 = false then endDisp s desc St.BAD_PROGRAM 0 0 0
          else
            let p := progOf h
            let f := leAt d.bytes 0x28 4
            let yz := bodyVal d 0x24 4
            let all := 2 ^ Config.trains s.fuse.variant - 1
            let x : Disp :=
              { ctx := d.ctx, ring := d.ring, vregs := p.vregs, loc := p.loc, code := va + 64, codeBytes := p.codeBytes, wgx := p.wgx, wgy := p.wgy, wgz := p.wgz
                const := leAt d.bytes 0x18 8, gx := bodyVal d 0x20 4, gy := yz % 2 ^ 16, gz := yz / 2 ^ 16
                affMode := natBits f 26 2, affStep := leAt d.bytes 0x2C 4, affBase := bodyVal d 0x30 8
                noSteal := natBits f 25 1 == 1, fg := natBits f 24 1 == 1
                trains := if f % 2 ^ 12 = 0 then all else f &&& all, compl := leAt d.bytes 0x38 8 }
            let s := setDisp s desc x
            if d.indFault then noteFail s desc St.IN_FAULT else s)
        (fun s _ => endDisp s desc St.IN_FAULT 0 0 0)

/-- R152: the next permitted and unfenced train from `t` on, in ascending ring order. -/
def nextTrain (s : State) (mask t : Nat) : Option Nat :=
  let n := Config.trains s.fuse.variant
  (firstFrom (fun k => natBits mask ((t + k) % n) 1 == 1 && !trainFenced s (16 + (t + k) % n)) 0 n).map (fun k => (t + k) % n)

/-- R271: the system cache slice of a physical address. -/
def sliceOf (a : Nat) : Nat :=
  let la := a / 128
  natBits la 0 4 ^^^ natBits la 4 4 ^^^ natBits la 8 4 ^^^ natBits la 12 4

/-- Compute workgroups waiting in a train's queue. -/
def queued (s : State) (t : Nat) : Nat := ((trainQueue s t).filter (fun x => x.2.kind == 0)).length

/-- The beats of workgroup `w` of a dispatch: V0 to V2 hold the local coordinates (R150). -/
def dispBeats (seed : Nat) (d : Disp) : List Beat :=
  let n := d.wgx * d.wgy * d.wgz
  (List.range (ceilDiv n 32)).map (fun b =>
    let ls := (List.range 32).filter (fun l => decide (32 * b + l < n))
    newBeat (seed + b) (ls.foldl (fun m l => m + 2 ^ l) 0) 0 [] ((ls.map (fun l =>
      let i := 32 * b + l
      [(0, l, BitVec.ofNat 32 (i % d.wgx)), (1, l, BitVec.ofNat 32 (i / d.wgx % d.wgy)), (2, l, BitVec.ofNat 32 (i / d.wgx / d.wgy))])).flatten))

/-- R152: workgroup `d.next` of a dispatch joins the queue of its affinity train, where there is room. -/
def expandTo (s : State) (id : Nat) (d : Disp) (t : Nat) : State :=
  match nextTrain s d.trains t with
  | none => s
  | some t =>
    if 256 ≤ queued s t then s
    else
      let w := d.next
      let s := addWg s
        { kind := 0, owner := id, ctx := d.ctx, ring := d.ring, eng := 2, xyz := (w % d.gx, w / d.gx % d.gy, w / d.gx / d.gy), vregs := d.vregs
          loc := d.loc, code := d.code, codeBytes := d.codeBytes, const := d.const, fg := d.fg, noSteal := d.noSteal, trains := d.trains, aff := t
          beats := dispBeats s.free d }
      setDisp s id { d with next := w + 1 }

/-- WORKGROUP_EXPANSION (R152). -/
def execWorkgroupExpansion (desc : Nat) (s : State) : Out :=
  .next <| match tfind s.pn.disps desc with
  | none => s
  | some d =>
    let n := Config.trains s.fuse.variant
    if d.gx * d.gy * d.gz ≤ d.next ∨ fnFenced s Fun.PINIONS = true then s
    else
      let key := d.affBase + d.next * d.affStep
      if d.affMode = 0 then expandTo s desc d (d.next % n)
      else if d.affMode = 1 then expandTo s desc d (key % n)
      else if d.affMode = 2 then expandTo s desc d (key % Config.plGroups s.fuse.variant * n / Config.plGroups s.fuse.variant)
      else
        let va := key % 2 ^ 64
        withMem s { stream := 43, ctx := d.ctx, eng := 2, ring := some d.ring } [{ va := va, len := 1, kind := 0 }]
          (fun s m => expandTo s desc d (sliceOf (((m.find? (fun q => q.1 == va / 4096)).map (·.2)).getD 0 + va % 4096) * n / 16))
          (fun s _ => expandTo (noteFail s desc St.IN_FAULT) desc d 0)

/-- DISPATCH_COMPLETE (R153): every workgroup has ended, or a function fence ends the dispatch (Table ER-3). -/
def execDispatchComplete (desc : Nat) (s : State) : Out :=
  .next <| match tfind s.pn.disps desc with
  | none => s
  | some d =>
    let err := ((tfind s.esc.descs desc).map (·.err)).getD 0
    if d.ended = d.gx * d.gy * d.gz then endDisp s desc err d.stolen d.ended d.ticks
    else if (engineFence s 2).isSome then
      let s := { s with pn := { s.pn with wgs := s.pn.wgs.filter (fun x => !(x.2.kind == 0 && x.2.owner == desc)) } }
      endDisp s desc err d.stolen d.ended d.ticks
    else s

/-! ### Errors, tests and spares (R168 to R170) -/

/-- PN_ACTIVE and PN_HEALTH follow the Pinions (R170, R172). -/
def syncPinions (s : State) : State :=
  let ts := List.range (Config.trains s.fuse.variant)
  let s := setFld s Reg.PN_ACTIVE 0 8 ((ts.map (trainActive s)).sum)
  let s := setFld s Reg.PN_ACTIVE 8 8 ((s.pn.pinions.filter (·.2.retired)).length)
  let s := setFld s Reg.PN_ACTIVE 16 8 ((ts.filter (spareReady s)).length)
  s.pn.pinions.foldl (fun s x => setFlag s (Reg.PN_HEALTH0 + 4 * (x.1 / 32)) (x.1 % 32) x.2.retired) s

/-- R170: a Pinion is retired: recorded, and kept in the retained settings block. -/
def retirePinion (s : State) (t p : Nat) : State :=
  let s := syncPinions (setPinion s t p { pinionOf s t p with retired := true, draining := false })
  let s := setFlag s Reg.PN_ERR 2 true
  chrono (retainedDirty s) Chr.PN_RETIRED none Fun.PINIONS (9 * t + p) 0

/-- PINION_ECC_ERROR (R168): an error in the register file or local store of a Pinion; `pass` tells whether the
test after a double-bit error passes. -/
def execPinionEccError (train pos : Nat) (double pass : Bool) (s : State) : Out :=
  .next <|
    if double = false then countReg s Reg.PN_ECC_CORRECTED 32 1
    else
      let s := setFlag s Reg.PN_ERR 1 true
      let s := abandonAll s St.PINION_FAULT (fun w => w.phase == .resident && w.train == train && w.pos == pos)
      let x := pinionOf s train pos
      let s := setPinion s train pos { x with dbl := true }
      if (pass = false ∨ x.dbl = true) ∧ x.retired = false then retirePinion s train pos else s

/-- The Pinion under or before a pattern test. -/
def drainingPin (s : State) : Option (Nat × Nat) :=
  (s.pn.pinions.find? (fun x => x.2.draining && pinActive s (x.1 / 9) (x.1 % 9))).map (fun x => (x.1 / 9, x.1 % 9))

/-- CHECK_INTERVAL in ns; 0 is treated as 1 ms. -/
def checkInterval (s : State) : Nat := Nat.max 1 (rfld s Reg.GW_CONFIG 0 16) * 1000000

/-- PINION_PATTERN_TEST (R169): on expiry of CHECK_INTERVAL the next active Pinion stops admitting; once it holds
nothing, its test ends with `pass`. -/
def execPinionPatternTest (pass : Bool) (s : State) : Out :=
  .next <| match drainingPin s with
  | some (t, p) =>
    if resident s t p ≠ [] then s
    else if pass then setPinion s t p { pinionOf s t p with draining := false } else retirePinion s t p
  | none =>
    if isDue s 3 (checkInterval s) = false then s
    else match nextWrap (fun n => pinActive s (n / 9) (n % 9)) s.pn.testNext 108 with
      | none => s
      | some n =>
        let s := markDone s 3
        setPinion { s with pn := { s.pn with testNext := (n + 1) % 108 } } (n / 9) (n % 9) { pinionOf s (n / 9) (n % 9) with draining := true }

/-- R170: a train with no active Pinion is fenced together with its tile engine. -/
def fenceTrain (s : State) (t : Nat) : State :=
  let s := setFlag (setFlag s Reg.ER_TRAIN_FENCED t true) Reg.ER_IRQ 0 true
  let s := abandonAll s St.PINION_FAULT (fun w => w.kind == 2 && w.aff == t)
  let move (x : Nat × Wg) : Nat × Wg :=
    if x.2.phase == .queued && x.2.aff == t then (x.1, { x.2 with aff := (nextTrain s x.2.trains t).getD t }) else x
  let stop (p : Nat × Desc) : Nat × Desc :=
    if p.2.eng == 16 + t && p.2.phase != .started && p.2.phase != .finished then
      (p.1, { p.2 with phase := .finished, status := (fenceStatus s p.2.ctx p.2.eng).getD (St.FN_FENCED Fun.TILE_ENGINES) }) else p
  { s with pn := { s.pn with wgs := s.pn.wgs.map move }, esc := { s.esc with descs := s.esc.descs.map stop } }

/-- PINION_RETIRE (R170): the hot spare of a train that has lost a Pinion becomes active; a train left with no
active Pinion is fenced. -/
def execPinionRetire (train : Nat) (s : State) : Out :=
  .next <|
    if Config.trains s.fuse.variant ≤ train then s
    else if spareReady s train && (List.range 8).any (fun p => (pinionOf s train p).retired) then
      syncPinions (setPinion s train 8 { pinionOf s train 8 with promoted := true })
    else if trainActive s train = 0 ∧ trainFenced s (16 + train) = false then fenceTrain s train
    else s

end Sys2Proof.Machine
end

