-- ==== Sys2Proof/Machine/Pinion.lean ====
section
/-! DEFINITION. Issue of a Pinion instruction (R147, R149, R156, R158): the beat fetches the word at its place in
the code; the instruction acts in the guard lanes; the beat moves on. -/

namespace Sys2Proof.Machine

/-- A beat that issues: its workgroup and number, the instruction, and the guard lanes. -/
structure Here where
  id : Nat
  bi : Nat
  w : Wg
  b : Beat
  i : Ins
  g : Nat
  deriving DecidableEq, Repr

/-- What a beat's fetch answers: nothing to issue for this command, or the beat that issues. -/
inductive Fetched where
  | no (s : State)
  | here (s : State) (h : Here)

/-- R158: a beat of a resident workgroup may issue: it has active lanes and does not stand at a barrier. -/
def beatReady (w : Wg) (b : Beat) : Bool := w.phase == .resident && b.active != 0 && !b.atBar

/-- Who makes the loads and fetches, and the stores and atomics, of a workgroup (Table TU-1). -/
def loadWho (w : Wg) : Who := { stream := 19 + 2 * w.train, ctx := w.ctx, eng := w.eng, ring := some w.ring }
def storeWho (w : Wg) : Who := { stream := 20 + 2 * w.train, ctx := w.ctx, eng := w.eng, ring := some w.ring }

/-- A beat of a workgroup replaced. -/
def putBeat (s : State) (id bi : Nat) (b : Beat) : State :=
  match wgOf s id with
  | some w => setWg s id { w with beats := w.beats.set bi b }
  | none => s

/-- R157: a barrier opens once every beat of the workgroup stands at it or has ended. -/
def openBar (w : Wg) : Wg :=
  if w.beats.any (·.atBar) && w.beats.all (fun b => b.atBar || b.active == 0) then
    { w with beats := w.beats.map (fun b => { b with atBar := false }) }
  else w

/-- A workgroup ends with an error of its program: no lane yields an output. -/
def endWgErr (s : State) (id : Nat) (code : Nat) : State :=
  match wgOf s id with
  | none => s
  | some w =>
    let s := noteFail (setFlag s Reg.PN_ERR 0 true) w.owner code
    setWg s id { w with beats := w.beats.map (fun b => { b with active := 0, ended := 0, atBar := false, waiting := false }) }

/-- A beat-instruction issued, as the tick counters count it (R172, R153, R232). -/
def countIssue (s : State) (w : Wg) : State :=
  let s := addWide (addWide s Reg.PN_TICKS_LO 1) (Reg.PN_TRAIN_TICKS_LO w.train) 1
  let s := tickFor s w.ctx 2
  match tfind s.pn.disps w.owner with
  | some d => if w.kind = 0 then setDisp s w.owner { d with ticks := d.ticks + 1 } else s
  | none => s

/-- The beat has issued: its new state stands at instruction `pc`. -/
def retireTo (s : State) (h : Here) (b : Beat) (pc : Nat) : State :=
  let s := putBeat s h.id h.bi { b with pc := pc }
  let s := dropArrived (dropArrived s (loadWho h.w).stream h.w.ctx) (storeWho h.w).stream h.w.ctx
  countIssue s h.w

/-- The beat has issued and goes on with the next instruction. -/
def retire (s : State) (h : Here) (b : Beat) : State := retireTo s h b (h.b.pc + 1)

/-- The word at a beat's place in the code, read through the train's load stream; a fetch that fails reads zero (R163). -/
def codeWord (s : State) (w : Wg) (b : Beat) : Prep × (State → PageMap → Dword) :=
  let va := w.code + 8 * b.pc
  (prepare s (loadWho w) [{ va := va, len := 8, kind := 0 }], fun s m => BitVec.ofNat 64 (leNat (vaRd s false m va 8)))

/-- R149, R158: a beat fetches its next instruction for a command that names opcode `op`. The end of the code and a
reserved opcode end the workgroup; a word of another opcode is left to its own command. -/
def fetchIns (s : State) (id bi op : Nat) : Fetched :=
  match wgOf s id with
  | none => .no s
  | some w =>
    match w.beats[bi]? with
    | none => .no s
    | some b =>
      if beatReady w b = false then .no s
      else if w.codeBytes ≤ 8 * b.pc then .no (endWgErr s id St.BAD_PROGRAM)
      else
        let take := fun (s0 s1 : State) (word : Dword) =>
          let i := insOf word
          if opAssigned i.op = false then Fetched.no (endWgErr s1 id St.ILLEGAL_OP)
          else if i.op ≠ op then Fetched.no s0
          else Fetched.here s1 { id := id, bi := bi, w := w, b := b, i := i, g := guardLanes b i.guard }
        let c := codeWord s w b
        match c.1 with
        | .wait s' => .no s'
        | .fault s' _ => take s (noteFail s' w.owner St.IN_FAULT) 0
        | .ok s' m => take s s' (c.2 s' m)

/-- An instruction that writes a register in each guard lane from registers of the lane; `rs` lists the registers it
names (R158). -/
def aluReg (op : Nat) (rs : Ins → List Nat) (f : Here → Nat → Word) (id bi : Nat) (s : State) : State :=
  match fetchIns s id bi op with
  | .no s => s
  | .here s h =>
    if regsOk h.w.vregs (rs h.i) then retire s h (writeLanes h.b h.g h.i.dst (f h))
    else endWgErr s id St.ILLEGAL_OP

/-- An instruction that writes predicate DST[2:0] in the guard lanes. -/
def aluPred (op : Nat) (rs : Ins → List Nat) (f : Here → Nat → Bool) (id bi : Nat) (s : State) : State :=
  match fetchIns s id bi op with
  | .no s => s
  | .here s h =>
    if regsOk h.w.vregs (rs h.i) && condOk h.i.ty then retire s h (writePred h.b h.g (h.i.dst % 8) (f h))
    else endWgErr s id St.ILLEGAL_OP

/-- Registers named by format A with one, two or three sources. -/
def rs1 (i : Ins) : List Nat := [i.dst, i.s0]
def rs2 (i : Ins) : List Nat := [i.dst, i.s0, i.s1]
def rs3 (i : Ins) : List Nat := [i.dst, i.s0, i.s1, i.s2]

/-- Source words of a lane. -/
def Here.a (h : Here) (l : Nat) : Word := h.b.reg h.i.s0 l
def Here.c (h : Here) (l : Nat) : Word := h.b.reg h.i.s1 l
def Here.d (h : Here) (l : Nat) : Word := h.b.reg h.i.s2 l

end Sys2Proof.Machine
end

