-- ==== Sys2Proof/Machine/PinionMem.lean ====
section
/-! DEFINITION. Memory, Plate, ring, event and allocator instructions of the Pinions (R159 to R167). -/

namespace Sys2Proof.Machine

/-- Guard lanes that are no helpers: stores, atomics, Plate writes, records and submissions act in these (R150). -/
def Here.live (h : Here) : List Nat := (lanesOf h.g).filter (fun l => !inMask h.b.helpers l)

/-- A lane's context VA: the pair at ADDR plus OFFSET. -/
def Here.va (h : Here) (l : Nat) : Nat := addOff (h.b.pair h.i.s0 l) h.i.off

/-- R158: DATA of a WIDTH code is an aligned run below VREGS, and ADDR an aligned pair. -/
def Here.runPairOk (h : Here) : Bool :=
  decide (h.i.width ≤ 4) && runOk h.w.vregs h.i.dst (runLen h.i.width) && runOk h.w.vregs h.i.s0 2

/-- R158: DATA of a WIDTH code is an aligned run below VREGS, and ADDR one register. -/
def Here.runRegOk (h : Here) : Bool :=
  decide (h.i.width ≤ 4) && runOk h.w.vregs h.i.dst (runLen h.i.width) && regsOk h.w.vregs [h.i.s0]

/-- R400: a read that met poison: noted with the code of where it was met. -/
def notePoison (s : State) (owner : Nat) (p : Nat) : State :=
  if p = 2 then noteFail s owner St.CACHE_ECC else if p = 1 then noteFail s owner St.MEMORY_ECC else s

/-- R271: the slice of a line address. -/
def lineSlice (la : Nat) : Nat := sliceOf (la * 128)

/-- R277: an L1 fill takes a directory entry, replacing one of the slice where all 4,096 are taken; a line whose
invalidation is under way is not filled. -/
def l1Fill (s : State) (train la : Nat) (host : Bool) : State :=
  match s.ca.dir.find? (fun p => p.2.addr == la && p.2.host == host) with
  | some (k, e) =>
    if e.invSent ≠ 0 ∨ natBits e.trains train 1 = 1 then s
    else { s with ca := { s.ca with dir := tput {} s.ca.dir k { e with trains := e.trains + 2 ^ train } } }
  | none =>
    let q := lineSlice la * 4096
    let k := (firstFrom (fun i => (tfind s.ca.dir i).isNone) q 4096).getD (q + Config.openVal 13 [la, s.free] % 4096)
    { s with ca := { s.ca with dir := tput {} s.ca.dir k { addr := la, host := host, trains := 2 ^ train } } }

/-- The L1 fills of a load (R159, Table CA-2): lines of this device's memory, and of host memory under CXL.cache. -/
def l1Fills (s : State) (train : Nat) (m : PageMap) (a : Acc) : State :=
  (accPages a).foldl (fun s p => match m.find? (fun q => q.1 == p.1) with
    | none => s
    | some q =>
      let n := Nat.min (a.va + a.len) ((p.1 + 1) * 4096) - p.2.1
      let fill := fun (host : Bool) (x : Nat) => (List.range ((x + n - 1) / 128 - x / 128 + 1)).foldl (fun s i => l1Fill s train (x / 128 + i) host) s
      match routeOf s (q.2 + p.2.1 % 4096) with
      | .dev x => if classOn s false then fill false x else s
      | .host x => if classOn s true && s.hl.cacheEn then fill true x else s
      | _ => s) s

/-- Loads of `n` bytes at an address per lane, laid into the run at `r`; a failed one gives +0 (R163). -/
def loadLanes (s : State) (h : Here) (ls : List Nat) (r n : Nat) (va : Nat → Nat) : State :=
  match laneMem s (loadWho h.w) (ls.map (fun l => (l, { va := va l, len := n, kind := 0 }))) with
  | .wait s => s
  | .go s m bad =>
    let get := fun l => if bad.contains l then List.replicate n 0 else vaRd s false m (va l) n
    let b := ls.foldl (fun b l => b.setRun r l (get l)) h.b
    let s := ls.foldl (fun s l => if bad.contains l then s else notePoison s h.w.owner (vaPoison s m (va l) n)) s
    let s := ls.foldl (fun s l => if bad.contains l then s else l1Fills s h.w.train m { va := va l, len := n, kind := 0 }) s
    retire (if bad = [] then s else noteFail s h.w.owner St.IN_FAULT) h b

/-- LD (R162). -/
def execLd (wg beat : Nat) (s : State) : Out :=
  .next <| match fetchIns s wg beat 0x50 with
  | .no s => s
  | .here s h =>
    if h.runPairOk then loadLanes s h (lanesOf h.g) h.i.dst (widthBytes h.i.width) h.va else endWgErr s wg St.ILLEGAL_OP

/-- ST (R162): lanes in ascending order. -/
def execSt (wg beat : Nat) (s : State) : Out :=
  .next <| match fetchIns s wg beat 0x51 with
  | .no s => s
  | .here s h =>
    if h.runPairOk then
      let n := widthBytes h.i.width
      let w := storeWho h.w
      match laneMem s w (h.live.map (fun l => (l, { va := h.va l, len := n, kind := 1 }))) with
      | .wait s => s
      | .go s m bad =>
        let s := h.live.foldl (fun s l => if bad.contains l then s else vaWr s false w m (h.va l) (h.b.runBytes h.i.dst l n)) s
        retire (if bad = [] then s else noteFail s h.w.owner St.OUT_FAULT) h h.b
    else endWgErr s wg St.ILLEGAL_OP

/-- A lane's constant address: the constants of its program plus ADDR plus OFFSET. -/
def Here.constVa (h : Here) (l : Nat) : Nat := addOff (h.w.const + (h.b.reg h.i.s0 l).toNat) h.i.off

/-- LDC (R150): with no constants the values are free. -/
def execLdc (wg beat : Nat) (s : State) : Out :=
  .next <| match fetchIns s wg beat 0x54 with
  | .no s => s
  | .here s h =>
    let n := widthBytes h.i.width
    if h.runRegOk = false then endWgErr s wg St.ILLEGAL_OP
    else if h.w.const = 0 then
      let get := fun l => toLe (Config.openVal 4 [(h.b.reg h.i.s0 l).toNat, h.i.offset]) n
      retire s h ((lanesOf h.g).foldl (fun b l => b.setRun h.i.dst l (get l)) h.b)
    else loadLanes s h (lanesOf h.g) h.i.dst n h.constVa

/-! ### Local store (R159, R162) -/

/-- A lane's local address, or its byte in the Plate's space: ADDR plus OFFSET, modulo 2^32. -/
def Here.addr32 (h : Here) (l : Nat) : Nat := addOff (h.b.reg h.i.s0 l).toNat h.i.off % 2 ^ 32

/-- The address bits below the width ignored. -/
def alignDown (a n : Nat) : Nat := a - a % n

/-- `n` bytes at a local address lie in the workgroup's allocation. -/
def inLocal (w : Wg) (a n : Nat) : Bool := decide (a + n ≤ 512 * w.loc)

/-- The local store of a workgroup replaced. -/
def setLocal (s : State) (id : Nat) (m : Tbl Byte) : State :=
  match wgOf s id with
  | some w => setWg s id { w with mem := m }
  | none => s

/-- LDS (R162). -/
def execLds (wg beat : Nat) (s : State) : Out :=
  .next <| match fetchIns s wg beat 0x52 with
  | .no s => s
  | .here s h =>
    if h.runRegOk then
      let n := widthBytes h.i.width
      let a := fun l => alignDown (h.addr32 l) n
      let get := fun l => if inLocal h.w (a l) n then memRd h.w.mem (a l) n else List.replicate n 0
      let out := (lanesOf h.g).any (fun l => !inLocal h.w (a l) n)
      retire (if out then noteFail s h.w.owner St.LOCAL_RANGE else s) h
        ((lanesOf h.g).foldl (fun b l => b.setRun h.i.dst l (get l)) h.b)
    else endWgErr s wg St.ILLEGAL_OP

/-- STS (R162). -/
def execSts (wg beat : Nat) (s : State) : Out :=
  .next <| match fetchIns s wg beat 0x53 with
  | .no s => s
  | .here s h =>
    if h.runRegOk then
      let n := widthBytes h.i.width
      let a := fun l => alignDown (h.addr32 l) n
      let m := h.live.foldl (fun m l => if inLocal h.w (a l) n then memWr m (a l) (h.b.runBytes h.i.dst l n) else m) h.w.mem
      let out := h.live.any (fun l => !inLocal h.w (a l) n)
      let s := setLocal s wg m
      retire (if out then noteFail s h.w.owner St.LOCAL_RANGE else s) h h.b
    else endWgErr s wg St.ILLEGAL_OP

/-! ### Atomics (R161) -/

/-- The operation of an atomic: FLAGS[7:4] (assumption log 22). -/
def Here.aop (h : Here) : Nat := h.i.flags / 16

/-- R161: the new value of an atomic of `n` bytes: old value, operand, and the operand of CAS that is stored. -/
def atomNew (op n old d d1 : Nat) : Nat :=
  let m := 2 ^ (8 * n)
  let sg := fun x => sext (8 * n) (x % m)
  if op = 0 then (old + d) % m
  else if op = 1 then (if sg d < sg old then d else old)
  else if op = 2 then (if sg old < sg d then d else old)
  else if op = 3 then Nat.min old d
  else if op = 4 then Nat.max old d
  else if op = 5 then old &&& d
  else if op = 6 then old ||| d
  else if op = 7 then old ^^^ d
  else if op = 8 then d
  else if op = 9 then (if old = d then d1 else old)
  else (enc32 (round32 ((dec32 (BitVec.ofNat 32 old)).add (dec32 (BitVec.ofNat 32 d))))).toNat

/-- R161: the widths of an atomic: 4 or 8 bytes, 4 alone for FADD; and its registers. -/
def Here.atomOk (h : Here) (addrRegs : Nat) : Bool :=
  let k := runLen h.i.width
  decide (h.aop ≤ 10) && (h.i.width == 2 || (h.i.width == 3 && h.aop != 10)) &&
  runOk h.w.vregs h.i.dst k && (h.aop != 9 || decide (h.i.dst + 2 * k ≤ h.w.vregs)) && runOk h.w.vregs h.i.s0 addrRegs

/-- Operand and CAS operand of a lane. -/
def Here.atomArg (h : Here) (l : Nat) : Nat × Nat :=
  let n := widthBytes h.i.width
  (leNat (h.b.runBytes h.i.dst l n), leNat (h.b.runBytes (h.i.dst + runLen h.i.width) l n))

/-- R352: where a remote atomic stands: its answer, or a wait, the request being sent once. -/
def remoteAtom (s : State) (w : Who) (d off n op : Nat) (data : List Byte) (page : Nat) : State × Option (List Byte) :=
  match s.nl.arrived.find? (fun r => r.stream == w.stream && r.ctx == w.ctx && r.dev == d && r.off == off) with
  | some r => (s, some r.data)
  | none =>
    if s.nl.reqs.any (fun r => r.stream == w.stream && r.ctx == w.ctx && r.dev == d && r.off == off) then (s, none)
    else
      let t := s.nl.nextTag
      let q : RemReq := { tag := t, dev := d, off := off, len := n, write := true, atomic := true, stream := w.stream, ctx := w.ctx, page := page, eng := w.eng, ring := w.ring }
      (sendPkt { s with nl := { s.nl with reqs := s.nl.reqs ++ [q], nextTag := t + 1 } } 0 d (.atomic t off op data), none)

/-- The device and offset of a remote access under a page map. -/
def remoteOf (s : State) (m : PageMap) (va : Nat) : Option (Nat × Nat) :=
  match m.find? (fun q => q.1 == va / 4096) with
  | some q => match routeOf s (q.2 + va % 4096) with
    | .remote d off => some (d, off)
    | _ => none
  | none => none

/-- ATOM (R161): lanes in ascending order; a misaligned lane has no effect and gets zero, and so does one whose
translation fails. -/
def execAtom (wg beat : Nat) (s : State) : Out :=
  .next <| match fetchIns s wg beat 0x55 with
  | .no s => s
  | .here s h =>
    if h.atomOk 2 = false then endWgErr s wg St.ILLEGAL_OP
    else
      let n := widthBytes h.i.width
      let w := storeWho h.w
      let mis := h.live.filter (fun l => h.va l % n != 0)
      let ls := h.live.filter (fun l => h.va l % n == 0)
      -- kind 1 asks for no remote read: remote atomics are sent whole
      match laneMem s w (ls.map (fun l => (l, { va := h.va l, len := n, kind := 1 }))) with
      | .wait s => s
      | .go s1 m bad =>
        let data := fun l => let a := h.atomArg l
          toLe a.1 n ++ (if h.aop = 9 then toLe a.2 n else [])
        let asked := ls.foldl (fun (acc : State × Bool) l => match remoteOf s1 m (h.va l) with
          | some (d, off) => if bad.contains l then acc else
            let r := remoteAtom acc.1 w d off n h.aop (data l) (h.va l / 4096)
            (r.1, acc.2 || r.2.isNone)
          | none => acc) (s1, false)
        if asked.2 then asked.1
        else
          let one := fun (acc : State × Beat) l =>
            if bad.contains l then (acc.1, acc.2.setRun h.i.dst l (List.replicate n 0))
            else match remoteOf s1 m (h.va l) with
              | some (d, off) =>
                let r := (remoteAtom acc.1 w d off n h.aop (data l) 0).2
                (acc.1, acc.2.setRun h.i.dst l (r.getD []))
              | none =>
                let old := vaRd acc.1 false m (h.va l) n
                let a := h.atomArg l
                (vaWr acc.1 false w m (h.va l) (toLe (atomNew h.aop n (leNat old) a.1 a.2) n), acc.2.setRun h.i.dst l old)
          let r := ls.foldl one (asked.1, mis.foldl (fun b l => b.setRun h.i.dst l (List.replicate n 0)) h.b)
          let s := if bad = [] then r.1 else noteFail r.1 h.w.owner St.IN_FAULT
          retire (if mis = [] then s else noteFail s h.w.owner St.MISALIGNED) h r.2

/-- ATOMS (R161, R162). -/
def execAtoms (wg beat : Nat) (s : State) : Out :=
  .next <| match fetchIns s wg beat 0x56 with
  | .no s => s
  | .here s h =>
    if h.atomOk 1 = false then endWgErr s wg St.ILLEGAL_OP
    else
      let n := widthBytes h.i.width
      let mis := h.live.any (fun l => h.addr32 l % n != 0)
      let out := h.live.any (fun l => h.addr32 l % n == 0 && !inLocal h.w (h.addr32 l) n)
      let one := fun (acc : Tbl Byte × Beat) l =>
        if h.addr32 l % n = 0 ∧ inLocal h.w (h.addr32 l) n = true then
          let old := memRd acc.1 (h.addr32 l) n
          let a := h.atomArg l
          (memWr acc.1 (h.addr32 l) (toLe (atomNew h.aop n (leNat old) a.1 a.2) n), acc.2.setRun h.i.dst l old)
        else (acc.1, acc.2.setRun h.i.dst l (List.replicate n 0))
      let r := h.live.foldl one (h.w.mem, h.b)
      let s := setLocal s wg r.1
      let s := if mis then noteFail s h.w.owner St.MISALIGNED else s
      retire (if out then noteFail s h.w.owner St.LOCAL_RANGE else s) h r.2

/-- FENCE (R160): every access of this model but a remote write is performed when its instruction issues, so order
already holds; a release at system scope waits for the context's remote writes to be answered. -/
def execFence (wg beat : Nat) (s : State) : Out :=
  .next <| match fetchIns s wg beat 0x57 with
  | .no s => s
  | .here s1 h =>
    if h.g != 0 && natBits h.i.flags 3 1 == 1 && h.i.flags % 4 == 2 && s.nl.reqs.any (fun r => r.write && r.ctx == h.w.ctx) then s
    else retire s1 h h.b

/-! ### The Plate (R164) -/

/-- The slot and byte of a lane's Plate address, its low bits ignored below the width; `none` beyond bits [29:0]. -/
def Here.plate (h : Here) (l : Nat) : Option (Nat × Nat) :=
  let a := alignDown (h.addr32 l) (widthBytes h.i.width)
  if a / 2 ^ 30 = 0 then some (natBits a 14 16, natBits a 0 14) else none

/-- The code that a lane's Plate access earns; 0 when it is performed. -/
def Here.plateErr (h : Here) (s : State) (l : Nat) : Nat :=
  match h.plate l with
  | some p => plateCode s h.w.ctx p.1
  | none => St.PLATE_RANGE

/-- What refused lanes leave: the register bits, and the failure of the owner. -/
def plateNote (s : State) (h : Here) (ls : List Nat) : State :=
  ls.foldl (fun t l =>
    let c := h.plateErr s l
    if c = 0 then t else noteFail (plateViol t h.w.ctx ((h.plate l).getD (2 ^ 16, 0)).1 c) h.w.owner c) s

/-- PLD (R164). -/
def execPld (wg beat : Nat) (s : State) : Out :=
  .next <| match fetchIns s wg beat 0x58 with
  | .no s => s
  | .here s h =>
    if h.runRegOk then
      let n := widthBytes h.i.width
      let get := fun l => match h.plate l with
        | some p => plateRd s h.w.ctx p.1 p.2 n
        | none => List.replicate n 0
      retire (plateNote s h (lanesOf h.g)) h ((lanesOf h.g).foldl (fun b l => b.setRun h.i.dst l (get l)) h.b)
    else endWgErr s wg St.ILLEGAL_OP

/-- PST (R164). -/
def execPst (wg beat : Nat) (s : State) : Out :=
  .next <| match fetchIns s wg beat 0x59 with
  | .no s => s
  | .here s h =>
    if h.runRegOk then
      let n := widthBytes h.i.width
      let t := h.live.foldl (fun t l => match h.plate l with
        | some p => if h.plateErr s l = 0 then plateWr t h.w.ctx p.1 p.2 (h.b.runBytes h.i.dst l n) else t
        | none => t) s
      retire (plateNote t h h.live) h h.b
    else endWgErr s wg St.ILLEGAL_OP

/-! ### Rings (R165) -/

/-- What RSUB does in each live lane: the value DATA takes, and the entry it fills. -/
def rsubPlan (x : Ring) : List Nat → List (Nat × Option Word) × Ring
  | [] => ([], x)
  | l :: ls => match reserveIn x with
    | none => let r := rsubPlan x ls
      ((l, none) :: r.1, r.2)
    | some (i, x') => let r := rsubPlan x' ls
      ((l, some i) :: r.1, r.2)

/-- RSUB (R165): entries reserved lane by lane, descriptors copied, the entries published, the doorbell rung once.
A lane whose ADDR is not 64-byte aligned submits nothing and gets a free value. -/
def execRsub (wg beat : Nat) (s : State) : Out :=
  .next <| match fetchIns s wg beat 0x5C with
  | .no s => s
  | .here s h =>
    let r := h.i.offset % 1024
    if (runOk h.w.vregs h.i.dst 1 && runOk h.w.vregs h.i.s0 2) = false then endWgErr s wg St.ILLEGAL_OP
    else
      let va := fun l => h.b.pair h.i.s0 l
      let al := h.live.filter (fun l => va l % 64 == 0)
      let b0 := (h.live.filter (fun l => va l % 64 != 0)).foldl (fun b l =>
        b.setReg h.i.dst l (BitVec.ofNat 32 (Config.openVal 6 [va l]))) h.b
      let s := if al = h.live then s else noteFail s h.w.owner St.MISALIGNED
      let mine := match ringOf s r with
        | some x => if x.ctx = h.w.ctx ∧ x.mode ≠ 0 then some x else none
        | none => none
      match mine with
      | none =>
        let b := al.foldl (fun b l => b.setReg h.i.dst l 0xFFFFFFFE) b0
        retire (if al = [] then s else noteFail s h.w.owner St.BAD_RING) h b
      | some x =>
        let p := rsubPlan x al
        let ents := p.1.filterMap (fun e => e.2.map (fun i => (e.1, i)))
        let rd := ents.map (fun e => (e.1, ({ va := va e.1, len := 64, kind := 0 } : Acc)))
        let wr := ents.map (fun e => (e.1, ({ va := entryVa x e.2, len := 64, kind := 1 } : Acc)))
        match laneMem s (loadWho h.w) rd with
        | .wait s => s
        | .go s1 m bad =>
          match laneMem s (storeWho h.w) wr with
          | .wait s => s
          | .go _ _ _ =>
            match laneMem s1 (storeWho h.w) wr with
            | .wait _ => s
            | .go s2 m2 bad2 =>
              let s2 := setRing s2 r p.2
              let s2 := ents.foldl (fun s e =>
                let d := if bad.contains e.1 then List.replicate 64 0 else vaRd s1 false m (va e.1) 64
                let s := if bad2.contains e.1 then s else vaWr s false (storeWho h.w) m2 (entryVa x e.2) d
                match ringOf s r with
                | some y => publishIn s r y e.2
                | none => s) s2
              let b := p.1.foldl (fun b e => b.setReg h.i.dst e.1 (e.2.getD 0xFFFFFFFF)) b0
              let s2 := if bad = [] then s2 else noteFail s2 h.w.owner St.IN_FAULT
              retire (if bad2 = [] then s2 else noteFail s2 h.w.owner St.OUT_FAULT) h b

/-! ### Events (R166) -/

/-- The event a lane names. -/
def Here.event (h : Here) (l : Nat) : Nat := bits (h.b.reg h.i.s0 l) 0 16

/-- R160, R231: a record at system scope waits for the context's remote writes. -/
def Here.sysHeld (h : Here) (s : State) : Bool :=
  h.live.any (fun l => evOwned s h.w.ctx (h.event l) && ((evOf s (h.event l)).sys || (evOf s (h.event l)).linkEn)) &&
  s.nl.reqs.any (fun r => r.write && r.ctx == h.w.ctx)

/-- EVREC (R166). -/
def execEvrec (wg beat : Nat) (s : State) : Out :=
  .next <| match fetchIns s wg beat 0x5D with
  | .no s => s
  | .here s1 h =>
    if (runOk h.w.vregs h.i.dst 2 && regsOk h.w.vregs [h.i.s0]) = false then endWgErr s1 wg St.ILLEGAL_OP
    else if h.sysHeld s1 then s
    else
      let bad := h.live.any (fun l => !evOwned s1 h.w.ctx (h.event l))
      let t := h.live.foldl (fun t l =>
        if evOwned s1 h.w.ctx (h.event l) then recordEv t (h.event l) (setKind (h.b.pair h.i.dst l)) else t) s1
      retire (if bad then noteFail t h.w.owner St.BAD_EVENT else t) h h.b

/-- EVRD (R166): the 64-bit value, flag in bit 63 (R222). -/
def execEvrd (wg beat : Nat) (s : State) : Out :=
  .next <| match fetchIns s wg beat 0x5F with
  | .no s => s
  | .here s h =>
    if (runOk h.w.vregs h.i.dst 2 && regsOk h.w.vregs [h.i.s0]) = false then endWgErr s wg St.ILLEGAL_OP
    else
      let own := fun l => evOwned s h.w.ctx (h.event l)
      let val := fun l => let e := evOf s (h.event l)
        e.count + b2n e.flag * 2 ^ 63
      let b := (lanesOf h.g).foldl (fun b l => if own l then b.setPair h.i.dst l (val l) else b) h.b
      retire (if (lanesOf h.g).any (fun l => !own l) then noteFail s h.w.owner St.BAD_EVENT else s) h b

/-- The name of a beat among the waits of beats. -/
def beatId (wg beat : Nat) : Nat := 32 * wg + beat

/-- The waits of a beat. -/
def beatWaits (s : State) (wg beat : Nat) : List XWait := s.evs.waits.filter (fun w => w.kind == 1 && w.id == beatId wg beat)

/-- The waits of a beat ended. -/
def dropBeatWaits (s : State) (wg beat : Nat) : State :=
  { s with evs := { s.evs with waits := s.evs.waits.filter (fun w => !(w.kind == 1 && w.id == beatId wg beat)) } }

/-- A beat ends because its context is fenced (Table PN-10). -/
def endBeat (s : State) (h : Here) : State :=
  let s := putBeat s h.id h.bi { h.b with active := 0, waiting := false }
  match wgOf s h.id with
  | some w => setWg s h.id (openBar w)
  | none => s

/-- EVWAIT met in every lane: predicate OFFSET[2:0] reports the error flags. -/
def evwaitDone (s : State) (h : Here) (ws : List XWait) : State :=
  let owned := (lanesOf h.g).filter (fun l => ws.any (fun w => w.lane == l))
  let mask := owned.foldl (fun m l => m + 2 ^ l) 0
  let b := writePred h.b mask (h.i.offset % 8) (fun l => ws.any (fun w => w.lane == l && w.st == .err))
  let bad := owned.length < (lanesOf h.g).length ∨ ws.any (fun w => w.st == .gone) = true
  retire (if bad then noteFail s h.w.owner St.BAD_EVENT else s) h { b with waiting := false }

/-- EVWAIT (R166, R225): the waits begin at the first issue; the beat goes on once every lane's is over. -/
def execEvwait (wg beat : Nat) (s : State) : Out :=
  .next <| match fetchIns s wg beat 0x5E with
  | .no s => s
  | .here s h =>
    if (runOk h.w.vregs h.i.dst 2 && regsOk h.w.vregs [h.i.s0]) = false then endWgErr s wg St.ILLEGAL_OP
    else if h.b.waiting then
      let ws := beatWaits s wg beat
      if ws.any (fun w => w.st == .pending) then
        (if (fenceStatus s h.w.ctx 2).isSome then endBeat (dropBeatWaits s wg beat) h else s)
      else evwaitDone (dropBeatWaits s wg beat) h ws
    else
      let ws := ((lanesOf h.g).filter (fun l => evOwned s h.w.ctx (h.event l))).map (fun l =>
        let t := h.b.pair h.i.dst l
        ({ kind := 1, id := beatId wg beat, lane := l, ev := h.event l, target := t, st := evalWait (evOf s (h.event l)) t .pending } : XWait))
      if ws.any (fun w => w.st == .pending) then
        putBeat { s with evs := { s.evs with waits := s.evs.waits ++ ws } } wg beat { h.b with waiting := true }
      else evwaitDone s h ws

/-! ### The allocator (R167, R197) -/

/-- Requests of a beat's lanes, in ascending order, join the context's allocator. -/
def askAlloc (s : State) (h : Here) (isFree : Bool) (arg : Nat → Nat) (dst : Nat) : State :=
  let q := (lanesOf h.g).map (fun l =>
    ({ ctx := h.w.ctx, desc := none, wg := h.id, beat := h.bi, lane := l, dst := dst, isFree := isFree, arg := arg l } : AllocReq))
  putBeat { s with al := { s.al with queue := s.al.queue ++ q } } h.id h.bi { h.b with waiting := true }

/-- A beat that waits on the allocator ends when its context is fenced (Table CX-7); its requests not yet served go. -/
def allocHeld (s : State) (h : Here) : State :=
  if (fenceStatus s h.w.ctx 2).isSome then
    endBeat { s with al := { s.al with queue := s.al.queue.filter (fun q => !(q.desc.isNone && q.wg == h.id && q.beat == h.bi)) } } h
  else s

/-- MALLOC (R167): DATA holds the bytes asked for, and the pair at ADDR receives the VA (assumption log 22). -/
def execMalloc (wg beat : Nat) (s : State) : Out :=
  .next <| match fetchIns s wg beat 0x60 with
  | .no s => s
  | .here s h =>
    if (regsOk h.w.vregs [h.i.dst] && runOk h.w.vregs h.i.s0 2) = false then endWgErr s wg St.ILLEGAL_OP
    else if h.b.waiting then allocHeld s h
    else if (ctxOf s h.w.ctx).mode = 0 then retire s h ((lanesOf h.g).foldl (fun b l => b.setPair h.i.s0 l 0) h.b)
    else if h.g = 0 then retire s h h.b
    else askAlloc s h false (fun l => (h.b.reg h.i.dst l).toNat) h.i.s0

/-- MFREE (R167). -/
def execMfree (wg beat : Nat) (s : State) : Out :=
  .next <| match fetchIns s wg beat 0x61 with
  | .no s => s
  | .here s h =>
    if runOk h.w.vregs h.i.s0 2 = false then endWgErr s wg St.ILLEGAL_OP
    else if h.b.waiting then allocHeld s h
    else if (ctxOf s h.w.ctx).mode = 0 ∨ h.g = 0 then retire s h h.b
    else askAlloc s h true (fun l => h.b.pair h.i.s0 l) h.i.s0

end Sys2Proof.Machine
end

