-- ==== Sys2Proof/Machine/Allocator.lean ====
section
/-! DEFINITION. The device-side allocator (R194 to R199): ALLOC and FREE descriptors, and the service of one
request of a context's allocator. -/

namespace Sys2Proof.Machine

/-- R196: bytes of metadata of a heap. -/
def heapMeta (bytes : Nat) : Nat := ceilDiv (ceilDiv bytes 2048) 65536 * 65536

/-- R196: bytes that a request takes. -/
def allocSize (n : Nat) : Nat := ceilDiv n 256 * 256

/-- R196: alignment of an allocation of `s` bytes. -/
def allocAlign (s : Nat) : Nat := if 65536 ≤ s then 65536 else 256

/-- The next multiple of `k` from `a` on. -/
def alignUp (a k : Nat) : Nat := ceilDiv a k * k

/-- R196: the lowest aligned VA from `a` on that begins a free run of `n` bytes, past the live allocations in
rising order. -/
def findRun (n k top : Nat) : Nat → Tbl Nat → Option Nat
  | a, [] => if alignUp a k + n ≤ top then some (alignUp a k) else none
  | a, (va, len) :: t =>
    if alignUp a k + n ≤ va then some (alignUp a k) else findRun n k top (Nat.max a (va + len)) t

/-- R196: where an allocation of `n` bytes is placed; `none` where it fails. -/
def placeAlloc (x : Ctx) (n : Nat) : Option Nat :=
  let h := heapMeta x.heapBytes
  if n = 0 ∨ x.heapBytes - h < n then none
  else findRun (allocSize n) (allocAlign (allocSize n)) (x.heapVa + x.heapBytes) (x.heapVa + h) x.allocs

/-- The metadata bytes of a range of the heap: one bit for each 256 bytes. -/
def metaAcc (x : Ctx) (va len : Nat) : Acc :=
  let a := (va - x.heapVa) / 2048
  let b := (va + len - 1 - x.heapVa) / 2048
  { va := x.heapVa + a, len := b - a + 1, kind := 1 }

/-- The metadata of a range written: its bits are the allocator's own, free to this model (assumption log 3). -/
def writeMeta (s : State) (w : Who) (m : PageMap) (a : Acc) : State :=
  vaWr s false w m a.va ((List.range a.len).map (fun i => BitVec.ofNat 8 (Config.openVal 8 [s.free, i])))

def allocWho (c : Nat) (ring : Option Nat) : Who := { stream := 43, ctx := c, eng := 2, ring := ring }

/-- R199: the bodies of ALLOC and FREE keep Tables CX-4 and CX-5. -/
def allocBodyOk (d : Desc) : Bool :=
  if hOpcode d.bytes = Op.ALLOC then
    decide (bodyVal d 0x10 8 < 2 ^ 36) && leAt d.bytes 0x18 8 % 8 == 0 && decide (leAt d.bytes 0x18 8 < 2 ^ 57) &&
    natBits (leAt d.bytes 0x20 4) 1 30 == 0 && leAt d.bytes 0x24 28 == 0
  else natBits (leAt d.bytes 0x18 4) 0 31 == 0 && leAt d.bytes 0x1C 36 == 0

/-- R194, R199: an ALLOC or FREE descriptor joins its context's allocator. -/
def startAlloc (s : State) (id op : Nat) : State :=
  match startedDesc s id op with
  | none => s
  | some d =>
    if s.al.queue.any (fun q => q.desc == some id) then s
    else if (ctxOf s d.ctx).mode = 0 then endDesc s id St.NO_ALLOCATOR
    else if d.indBad then endDesc s id St.BAD_OPERAND
    else if allocBodyOk d = false then endDesc s id (if d.indFault then St.IN_FAULT else St.BAD_OPERAND)
    else
      let s := if d.indFault then noteFail s id St.IN_FAULT else s
      let q : AllocReq := { ctx := d.ctx, desc := some id, isFree := op == Op.FREE, arg := bodyVal d 0x10 8 }
      { s with al := { s.al with queue := s.al.queue ++ [q] } }

/-- ALLOC. -/
def execAlloc (desc : Nat) (s : State) : Out := .next (startAlloc s desc Op.ALLOC)
/-- FREE. -/
def execFree (desc : Nat) (s : State) : Out := .next (startAlloc s desc Op.FREE)

/-- The oldest request of a context's allocator, and the queue without it. -/
def takeReq (c : Nat) : List AllocReq → Option (AllocReq × List AllocReq)
  | [] => none
  | q :: t => if q.ctx = c then some (q, t) else (takeReq c t).map (fun x => (x.1, q :: x.2))

/-- A beat's request served: the pair takes the VA, and the beat goes on after its last one. -/
def serveBeat (s : State) (q : AllocReq) (va : Option Nat) (code : Nat) : State :=
  match wgOf s q.wg with
  | none => s
  | some w => match w.beats[q.beat]? with
    | none => s
    | some b =>
      let b := match va with
        | some v => b.setPair q.dst q.lane v
        | none => b
      let s := if code = 0 then s else noteFail s w.owner code
      if s.al.queue.any (fun r => r.desc.isNone && r.wg == q.wg && r.beat == q.beat) then putBeat s q.wg q.beat b
      else countIssue (putBeat s q.wg q.beat { b with waiting := false, pc := b.pc + 1 }) w

/-- A request served: its answer goes to its descriptor or its beat. -/
def answerReq (s : State) (q : AllocReq) (va : Option Nat) (code : Nat) : State :=
  match q.desc with
  | some id => endRun (if code = 0 then s else noteFail s id code) id
  | none => serveBeat s q va code

/-- ALLOCATOR_REQUEST (R197): the context's allocator serves its oldest request; a request whose metadata, result
or zeroing awaits a translation waits. A descriptor of a fenced context ends unserved. -/
def execAllocatorRequest (ctx : Nat) (s : State) : Out :=
  .next <| match takeReq ctx s.al.queue with
  | none => s
  | some (q, rest) =>
    let x := ctxOf s ctx
    let pop := fun (s : State) => { s with al := { s.al with queue := rest } }
    let desc := q.desc.bind (fun id => tfind s.esc.descs id)
    let ring := match desc with
      | some d => some d.ring
      | none => (wgOf s q.wg).map (·.ring)
    let w := allocWho ctx ring
    if (fenceStatus s ctx 2).isSome then answerReq (pop s) q none 0
    else if q.isFree then
      match tfind x.allocs q.arg with
      | none => answerReq (pop s) q none St.BAD_FREE
      | some len =>
        let a := metaAcc x q.arg len
        withMem s w [a]
          (fun s m => answerReq (pop (setCtx (writeMeta s w m a) ctx { ctxOf s ctx with allocs := tdel x.allocs q.arg })) q none 0)
          (fun s _ => answerReq (pop s) q none St.IN_FAULT)
    else
      let res := match desc with
        | some d => [(1, ({ va := leAt d.bytes 0x18 8, len := 8, kind := 1 } : Acc))]
        | none => []
      let zero := match desc with
        | some d => natBits (leAt d.bytes 0x20 4) 0 1 == 1
        | none => false
      let put := fun (s : State) (m : PageMap) (bad : List Nat) (v : Nat) => match res with
        | (_, a) :: _ => if bad.contains 1 then s else vaWr s false w m a.va (toLe v 8)
        | [] => s
      match placeAlloc x q.arg with
      | none =>
        match laneMem s w res with
        | .wait s => s
        | .go s m bad =>
          let code := match desc with
            | some _ => St.HEAP_FULL
            | none => 0
          answerReq (pop (put s m bad 0)) q (some 0) code
      | some va =>
        let n := allocSize q.arg
        let a := metaAcc x va n
        let z := if zero then [(2, ({ va := va, len := n, kind := 1 } : Acc))] else []
        match laneMem s w ([(0, a)] ++ res ++ z) with
        | .wait s => s
        | .go s m bad =>
          if bad.contains 0 then answerReq (pop (put s m bad 0)) q (some 0) St.IN_FAULT
          else
            let s := writeMeta s w m a
            let s := if zero && !bad.contains 2 then vaWr s false w m va (List.replicate n 0) else s
            let s := put s m bad va
            let s := setCtx s ctx { ctxOf s ctx with allocs := tset x.allocs va n }
            answerReq (pop s) q (some va) (if bad = [] then 0 else St.OUT_FAULT)

end Sys2Proof.Machine
end

