-- ==== Sys2Proof/Machine/Images.lean ====
section
/-! DEFINITION. Images of a render pass (R105 to R111), their bytes in the Plate, and colour formats (R139). -/

namespace Sys2Proof.Machine

/-- An image table entry (Table PL-2). -/
abbrev Img := List Byte

def Img.word0 (b : Img) : Nat := leAt b 0 4
def Img.external (b : Img) : Bool := natBits b.word0 31 1 == 1
def Img.apron (b : Img) : Nat := natBits b.word0 24 5
def Img.samples (b : Img) : Nat := 2 ^ natBits b.word0 22 2
def Img.planes (b : Img) : Nat := natBits b.word0 19 3 + 1
def Img.format (b : Img) : Nat := natBits b.word0 8 8
def Img.cls (b : Img) : Nat := natBits b.word0 0 4
def Img.channels (b : Img) : Nat := leAt b 4 2
def Img.frameW (b : Img) : Nat := leAt b 8 2
def Img.frameH (b : Img) : Nat := leAt b 0xA 2
def Img.th (b : Img) : Nat := leAt b 0xC 1 + 1
def Img.tw (b : Img) : Nat := leAt b 0xD 1 + 1
def Img.slotBase (b : Img) : Nat := leAt b 0x10 2
def Img.ringTiles (b : Img) : Nat := leAt b 0x12 2
def Img.extEvent (b : Img) : Nat := leAt b 0x14 2
def Img.relEvent (b : Img) : Nat := leAt b 0x16 2
def Img.extBase (b : Img) : Nat := leAt b 0x18 8
def Img.relBase (b : Img) : Nat := leAt b 0x20 8
def Img.planeFmt (b : Img) (p : Nat) : Nat := leAt b (0x28 + p) 1
/-- R108: the tile grid. -/
def Img.gx (b : Img) : Nat := ceilDiv b.frameW b.tw
def Img.gy (b : Img) : Nat := ceilDiv b.frameH b.th
def Img.tilesOf (b : Img) : Nat := b.gx * b.gy
/-- R108: tile buffers. -/
def Img.ring (b : Img) : Nat := if b.ringTiles = 0 then b.tilesOf else b.ringTiles

/-! ### Colour formats (Table TR-9) -/

/-- How a channel is held: its component (0 red to 3 alpha), first bit, bits, and kind: 0 unorm, 1 SRGB, 2 FP16,
3 FP32, 4 unsigned integer, 5 unsigned float with 6 or 5 mantissa bits. -/
structure Chan where
  comp : Nat
  lo : Nat
  len : Nat
  kind : Nat
  deriving DecidableEq, Repr

/-- A run of channels of one width and kind, from component 0. -/
def runOf (n len kind : Nat) : List Chan := (List.range n).map (fun i => { comp := i, lo := len * i, len := len, kind := kind })

/-- Table TR-9: the channels of a format code; none for a code it does not list. -/
def colourChans (c : Nat) : List Chan :=
  if c = 0x01 then runOf 1 8 0 else if c = 0x02 then runOf 2 8 0 else if c = 0x03 then runOf 4 8 0
  else if c = 0x04 then runOf 3 8 1 ++ [⟨3, 24, 8, 0⟩]
  else if c = 0x05 then [⟨2, 0, 8, 0⟩, ⟨1, 8, 8, 0⟩, ⟨0, 16, 8, 0⟩, ⟨3, 24, 8, 0⟩]
  else if c = 0x06 then [⟨0, 0, 10, 0⟩, ⟨1, 10, 10, 0⟩, ⟨2, 20, 10, 0⟩, ⟨3, 30, 2, 0⟩]
  else if c = 0x07 then runOf 1 16 0 else if c = 0x08 then runOf 4 16 0
  else if c = 0x09 then runOf 1 16 2 else if c = 0x0A then runOf 2 16 2 else if c = 0x0B then runOf 4 16 2
  else if c = 0x0C then [⟨0, 0, 11, 5⟩, ⟨1, 11, 11, 5⟩, ⟨2, 22, 10, 5⟩]
  else if c = 0x0D then runOf 1 32 3 else if c = 0x0E then runOf 2 32 3 else if c = 0x0F then runOf 4 32 3
  else if c = 0x10 then runOf 1 32 4 else if c = 0x11 then runOf 4 8 4 else if c = 0x12 then runOf 4 16 4
  else []

/-- Bytes of a sample of a colour format. -/
def colourBytes (c : Nat) : Nat := ((colourChans c).map (·.len)).sum / 8

/-- Table TR-9: the format is blendable, and the most samples it takes. -/
def colourBlend (c : Nat) : Bool := decide (c ≤ 0x0D)
def colourMax (c : Nat) : Nat := if c ≤ 0x0D then 8 else if c ≤ 0x0F then 4 else 1

/-- Table TR-9: the activation view of a format: element format code and channels. -/
def colourView (c : Nat) : Option (Nat × Nat) :=
  if c = 0x01 then some (7, 1) else if c = 0x02 then some (7, 2)
  else if c = 0x03 ∨ c = 0x04 ∨ c = 0x05 ∨ c = 0x11 then some (7, 4)
  else if c = 0x07 then some (9, 1) else if c = 0x08 ∨ c = 0x12 then some (9, 4)
  else if c = 0x09 then some (1, 1) else if c = 0x0A then some (1, 2) else if c = 0x0B then some (1, 4) else none

/-- The unsigned small floats of RG11B10: 5 exponent bits. -/
def uf (len : Nat) : FFmt := { eb := 5, mb := len - 5, bias := 15, top := 0 }

/-- The value of a channel. -/
def chanNum (k : Chan) (raw : Nat) : Num :=
  if k.kind = 0 then fdivN fp32 (Num.ofInt raw) (Num.ofInt (2 ^ k.len - 1))
  else if k.kind = 1 then dec32 (Config.srgbDecode (BitVec.ofNat 8 raw))
  else if k.kind = 2 then fload fp16 raw
  else if k.kind = 3 then fload fp32 raw
  else if k.kind = 4 then Num.ofInt raw
  else fload (uf k.len) raw

/-- A value clamped to [0, 1]; NaN becomes 0. -/
def clamp01 (x : Num) : Num :=
  if x.isNan then Num.zero false else if Num.lt x (Num.zero false) then Num.zero false
  else if Num.lt (Num.ofInt 1) x then Num.ofInt 1 else x

/-- A value of [0, 1] as an unorm of `n` bits, by RNE. -/
def unormOf (n : Nat) (x : Num) : Nat :=
  match (clamp01 x).mul (Num.ofInt (2 ^ n - 1)) with
  | .fin s m e => (Num.toInt .rne s m e).toNat
  | _ => 0

/-- A channel encoded from a value, by RNE. An unsigned integer channel takes the register's integer, and a free value
where the channel cannot hold it. -/
def chanRaw (k : Chan) (x : Num) (word : Word) : Nat :=
  if k.kind = 0 then unormOf k.len x
  else if k.kind = 1 then (Config.srgbEncode (enc32 (clamp01 x))).toNat
  else if k.kind = 2 then fencode fp16 (roundF fp16 x)
  else if k.kind = 3 then fencode fp32 (round32 x)
  else if k.kind = 4 then (if word.toNat < 2 ^ k.len then word.toNat else Config.openVal 9 [k.len, word.toNat] % 2 ^ k.len)
  else if x.sign then 0 else fencode (uf k.len) (roundF (uf k.len) x)

/-- The value of a component of a pixel's bytes; a component the format does not hold reads as 0, alpha as 1. -/
def compOf (fmt : Nat) (b : List Byte) (c : Nat) : Num :=
  match (colourChans fmt).find? (·.comp == c) with
  | some k => chanNum k (natBits (leNat b) k.lo k.len)
  | none => if c = 3 then Num.ofInt 1 else Num.zero false

/-- A pixel's bytes with the masked components replaced. -/
def putComps (fmt : Nat) (b : List Byte) (mask : Nat) (f : Nat → Num) (w : Nat → Word) : List Byte :=
  let v := (colourChans fmt).foldl (fun v k =>
    if natBits mask k.comp 1 = 1 then
      v - natBits v k.lo k.len * 2 ^ k.lo + chanRaw k (f k.comp) (w k.comp) % 2 ^ k.len * 2 ^ k.lo
    else v) (leNat b)
  toLe v (colourBytes fmt)

/-! ### Bytes of a tile (R107, R108) -/

/-- Bytes of one sample in plane `p`. -/
def Img.planeBytes (b : Img) (p : Nat) : Nat :=
  if b.cls = 0 then colourBytes b.format
  else if b.cls = 1 then (if p = 1 then 1 else if b.format = 0 then 2 else 4)
  else if b.cls = 2 then colourBytes (b.planeFmt p)
  else if b.cls = 3 then b.channels else if b.cls = 4 then 2 * b.channels else 4 * b.channels

/-- Number of planes. -/
def Img.nPlanes (b : Img) : Nat := if b.cls = 1 then (if b.format = 2 then 2 else 1) else if b.cls = 2 then b.planes else 1

/-- Rows and columns of the stored region. -/
def Img.rows (b : Img) : Nat := b.th + 2 * b.apron
def Img.cols (b : Img) : Nat := b.tw + 2 * b.apron

/-- Bytes of plane `p` of a tile. -/
def Img.planeSize (b : Img) (p : Nat) : Nat := b.rows * b.cols * b.planeBytes p * b.samples

/-- Where plane `p` begins: each plane after the first at the next 1 KiB boundary. -/
def Img.planeOff (b : Img) : Nat → Nat
  | 0 => 0
  | p + 1 => ceilDiv (b.planeOff p + b.planeSize p) 1024 * 1024

/-- Bytes of a tile. -/
def Img.tileBytes (b : Img) : Nat := b.planeOff (b.nPlanes - 1) + b.planeSize (b.nPlanes - 1)

/-- Slots of a tile buffer. -/
def Img.slots (b : Img) : Nat := ceilDiv b.tileBytes 16384

/-- First partition slot of the buffer of tile `i`. -/
def Img.buf (b : Img) (i : Nat) : Nat := b.slotBase + i % b.ring * b.slots

/-- The slot range of an image. -/
def Img.range (b : Img) : Nat × Nat := (b.slotBase, b.slotBase + b.ring * b.slots - 1)

/-- R107: the byte of sample `j` of the pixel at region position (y, x), apron included, in plane `p`. -/
def Img.byteAt (b : Img) (p y x j : Nat) : Nat :=
  b.planeOff p + (y * b.cols + x) * (b.planeBytes p * b.samples) + j * b.planeBytes p

/-- Bytes of a tile read by a client of a context; each slot is checked (R115). -/
def tileRd (s : State) (c : Nat) (b : Img) (tile q n : Nat) : List Byte :=
  (List.range n).map (fun i => (plateRd s c (b.buf tile + (q + i) / 16384) ((q + i) % 16384) 1).headD 0)

/-- Pieces of a byte run cut at slots: slot, offset, bytes. -/
def slotCuts (base q : Nat) (d : List Byte) : List (Nat × Nat × List Byte) :=
  let first := q / 16384
  let last := (q + d.length - 1) / 16384
  if d = [] then [] else
  (List.range (last - first + 1)).map (fun i =>
    let a := Nat.max q ((first + i) * 16384)
    (base + first + i, a % 16384, (d.drop (a - q)).take (16384 - a % 16384)))

/-- Bytes of a tile written. -/
def tileWr (s : State) (c : Nat) (b : Img) (tile q : Nat) (d : List Byte) : State :=
  (slotCuts (b.buf tile) q d).foldl (fun s k => plateWr s c k.1 k.2.1 k.2.2) s

/-- The first refusal that an access to a tile of an image earns, if any (R103, R115, R116). -/
def tileCode (s : State) (c : Nat) (b : Img) (tile : Nat) : Nat :=
  ((List.range b.slots).findSome? (fun k => let e := plateCode s c (b.buf tile + k); if e = 0 then none else some e)).getD 0

/-! ### The image table (R105 to R108, R111) -/

/-- Width and height of a TILE_SIZE code. -/
def tileDims (t : Nat) : Nat × Nat := if t = 0 then (32, 32) else if t = 1 then (64, 64) else if t = 2 then (128, 64) else (128, 128)

/-- R105 to R107: an entry breaks no rule of its own. -/
def Img.ok (b : Img) (tile : Nat) : Bool :=
  let w := b.word0
  let d := tileDims tile
  let frame := fun n => decide (1 ≤ n) && decide (n ≤ 16384)
  natBits w 29 2 == 0 && natBits w 16 3 == 0 && natBits w 4 4 == 0 && leAt b 6 2 == 0 && leAt b 0xE 2 == 0 && leAt b 0x30 16 == 0 &&
  frame b.frameW && frame b.frameH && decide (b.apron ≤ 16) && (b.cls == 2 || b.planes == 1) &&
  (if b.cls = 0 then colourChans b.format != [] && decide (b.samples ≤ colourMax b.format) && b.channels == 0
   else if b.cls = 1 then decide (b.format ≤ 2) && b.channels == 0
   else if b.cls = 2 then b.format == 0 && b.channels == 0 &&
     (List.range b.planes).all (fun p => colourChans (b.planeFmt p) != [] && decide (b.samples ≤ colourMax (b.planeFmt p)))
   else if b.cls = 3 then [3, 4, 6, 7].contains b.format && decide (1 ≤ b.channels) && decide (b.channels ≤ 4096)
   else if b.cls = 4 then [1, 2, 9].contains b.format && decide (1 ≤ b.channels) && decide (b.channels ≤ 4096)
   else b.cls == 5 && b.format == 0 && decide (1 ≤ b.channels) && decide (b.channels ≤ 4096)) &&
  (decide (3 ≤ b.cls) || (b.tw == d.1 && b.th == d.2 && b.apron == 0)) && (!b.external || b.apron == 0) &&
  decide (1 ≤ b.slots) && decide (b.slots ≤ 128)

/-- R108: every entry has the grid of the first. -/
def gridOk (imgs : List Img) : Bool :=
  imgs.all (fun b => b.gx == (imgs.headD []).gx && b.gy == (imgs.headD []).gy)

/-- Two slot ranges overlap. -/
def rangesMeet (a b : Nat × Nat) : Bool := decide (a.1 ≤ b.2) && decide (b.1 ≤ a.2)

/-- R111: rules 1 and 3 to 5, for the images that issues write and those they neighbour-read, by index. -/
def ringsOk (imgs : List Img) (bw : Nat) (written nbr : List Nat) : Bool :=
  (List.range imgs.length).all (fun i =>
    let b := imgs.getD i []
    let t := b.tilesOf
    if nbr.contains i then
      !written.contains i && decide (Nat.min (2 * b.gx + bw + 2) t ≤ b.ring) &&
      (List.range imgs.length).all (fun k => k == i || !rangesMeet b.range (Img.range (imgs.getD k [])))
    else if written.contains i || decide (b.cls ≤ 2) then decide (Nat.min bw t ≤ b.ring)
    else !b.external || decide (Nat.min b.gx t ≤ b.ring))

end Sys2Proof.Machine
end

