-- ==== Sys2Proof/Machine/Geometry.lean ====
section
/-! DEFINITION. Geometry of the raster pipeline (R125, R133): expansion of lines and points, clipping, mapping to
the frame, facing, edge functions and sample places. Each new coordinate is exact and then rounded once to FP32
(assumption log 25). -/

namespace Sys2Proof.Machine

/-- The quotient of two exact values rounded once to FP32. -/
def ratio (a b : Num) : Num :=
  match a, b with
  | .fin x m e, .fin y n g =>
    if n = 0 then (if m = 0 then .nan else .inf (x != y))
    else
      let k := fp32.mb + 8 + Nat.log2 n + 1
      let q := m * 2 ^ k / n
      round32 (.fin (x != y) (2 * q + b2n (decide (m * 2 ^ k % n ≠ 0))) (e - g - k - 1))
  | _, _ => fdivN fp32 a b

/-- A vertex on its way through the Binner: its key, its clip-space position and its varyings. Keys of the batch's
own vertices are their numbers; vertices made on the way take keys from `newKey` on. -/
structure BVert where
  key : Nat
  x : Num
  y : Num
  z : Num
  w : Num
  vary : List Word
  deriving DecidableEq, Repr

def newKey : Nat := 2 ^ 20

/-- A shaded vertex with its number in the batch. -/
def bvertOf (v : Vtx) (k : Nat) : BVert :=
  let p := fun i => dec32 (v.pos.getD i 0)
  { key := k, x := p 0, y := p 1, z := p 2, w := p 3, vary := v.vary }

/-! ### Lines and points (R125, step 1) -/

/-- A vertex moved in the frame by a distance of `n` half pixels (an exact value) along x and y. -/
def moveBy (v : BVert) (key : Nat) (dx dy : Num) (fw fh : Nat) : BVert :=
  { v with key := key
           x := round32 (Num.add v.x (ratio (Num.mul dx v.w) (Num.ofInt fw)))
           y := round32 (Num.add v.y (ratio (Num.mul dy v.w) (Num.ofInt fh))) }

/-- A point as two triangles: a square of `size` pixels about it. -/
def pointTris (v : BVert) (size : Num) (fw fh : Nat) : List (List BVert) :=
  let n := size.neg
  let a := moveBy v newKey n n fw fh
  let b := moveBy v (newKey + 1) n size fw fh
  let c := moveBy v (newKey + 2) size size fw fh
  let d := moveBy v (newKey + 3) size n fw fh
  [[a, b, c], [a, c, d]]

/-- The line is longer along x than along y in the frame. -/
def xMajor (a b : BVert) (fw fh : Nat) : Bool :=
  let d := fun (p q : Num) => Num.add (Num.mul q a.w) (Num.mul p b.w).neg
  Num.le (Num.mul (d a.y b.y).abs (Num.ofInt fh)) (Num.mul (d a.x b.x).abs (Num.ofInt fw))

/-- A line as two triangles: a parallelogram of `width` pixels along its minor axis. -/
def lineTris (a b : BVert) (width : Num) (fw fh : Nat) : List (List BVert) :=
  let z := Num.zero false
  let (dx, dy) := if xMajor a b fw fh then (z, width) else (width, z)
  let p := moveBy a newKey dx.neg dy.neg fw fh
  let q := moveBy a (newKey + 1) dx dy fw fh
  let r := moveBy b (newKey + 2) dx dy fw fh
  let t := moveBy b (newKey + 3) dx.neg dy.neg fw fh
  [[p, q, r], [p, r, t]]

/-! ### Clipping (R125, step 2) -/

/-- The point of an edge on a plane, from the distances of its ends. -/
def crossAt (a b : BVert) (da db : Num) (key : Nat) : BVert :=
  let den := Num.add db da.neg
  let mix := fun (p q : Num) => ratio (Num.add (Num.mul p db) (Num.mul q da).neg) den
  { key := key, x := mix a.x b.x, y := mix a.y b.y, z := mix a.z b.z, w := mix a.w b.w
    vary := (a.vary.zip b.vary).map (fun v => enc32 (mix (dec32 v.1) (dec32 v.2))) }

/-- A polygon clipped to the half space where `dist` is not negative; new vertices take keys from `key` on. -/
def clipTo (dist : BVert → Num) (key : Nat) (poly : List BVert) : List BVert :=
  ((poly.zip (poly.drop 1 ++ poly.take 1)).zip (List.range poly.length)).flatMap (fun e =>
    let a := e.1.1
    let b := e.1.2
    let ina := Num.le (Num.zero false) (dist a)
    let inb := Num.le (Num.zero false) (dist b)
    (if ina then [a] else []) ++ (if ina != inb then [crossAt a b (dist a) (dist b) (key + e.2)] else []))

/-- The guard band of ±32,768 pixels on one axis, as two distances. -/
def guardLo (x w : Num) (size : Nat) : Num := Num.add (Num.mul x (Num.ofInt size)) (Num.mul w (Num.ofInt (size + 65536)))
def guardHi (x w : Num) (size : Nat) : Num :=
  Num.add (Num.mul x.neg (Num.ofInt size)) (Num.mul w (Num.ofInt (65536 - (size : Int))))

/-- Step 2: a triangle clipped, as a fan of up to 7 triangles. -/
def clipTri (t : List BVert) (clamp : Bool) (fw fh key : Nat) : List (List BVert) :=
  let p := if clamp then t else clipTo (fun v => Num.add v.w v.z.neg) (key + 16) (clipTo (fun v => v.z) key t)
  let p := clipTo (fun v => guardLo v.x v.w fw) (key + 32) p
  let p := clipTo (fun v => guardHi v.x v.w fw) (key + 48) p
  let p := clipTo (fun v => guardLo v.y v.w fh) (key + 64) p
  let p := clipTo (fun v => guardHi v.y v.w fh) (key + 80) p
  match p with
  | a :: r => (r.zip (r.drop 1)).map (fun e => [a, e.1, e.2])
  | [] => []

/-! ### The frame (R125, steps 3 and 4) -/

/-- The nearest integer to a quotient, ties to even; `b` is positive. -/
def nearInt (a b : Int) : Int :=
  let q := a / b
  let r := a % b
  if b < 2 * r ∨ (2 * r = b ∧ q % 2 = 1) then q + 1 else q

/-- Step 3: (x/w + 1) × size / 2 in units of 1/256 pixel. -/
def snap (x w : Num) (size : Nat) : Int :=
  match (Num.add x w).mul (Num.ofInt (128 * size)), w with
  | .fin na ma ea, .fin nb mb eb =>
    let g := min ea eb
    let d := Num.sigAt nb mb eb g
    if d ≤ 0 then 0 else nearInt (Num.sigAt na ma ea g) d
  | _, _ => 0

/-- A vertex in the frame: snapped x and y in 1/256 pixel, and the FP32 words of z and 1/w. -/
structure FVert where
  key : Nat
  x : Int
  y : Int
  z : Word
  rw : Word
  vary : List Word
  deriving DecidableEq, Repr

def toFrame (v : BVert) (fw fh : Nat) : FVert :=
  { key := v.key, x := snap v.x v.w fw, y := snap v.y v.w fh, z := enc32 (ratio v.z v.w), rw := enc32 (ratio (Num.ofInt 1) v.w), vary := v.vary }

/-- The vertex divides: its position is finite, with w positive. -/
def divides (v : BVert) : Bool := isFin v.x && isFin v.y && isFin v.z && isFin v.w && Num.lt (Num.zero false) v.w

/-- A place in the frame, in 1/256 pixel. -/
abbrev Pt := Int × Int

/-- Twice the signed area, negative for a counter-clockwise triangle as the frame shows it (y points down). -/
def area2 (a b c : Pt) : Int := (b.1 - a.1) * (c.2 - a.2) - (b.2 - a.2) * (c.1 - a.1)

/-- R133: the edge function of edge p to q of a counter-clockwise triangle: positive inside. -/
def edgeFn (p q s : Pt) : Int := (q.2 - p.2) * (s.1 - p.1) - (q.1 - p.1) * (s.2 - p.2)

/-- R133: the edge is a top or a left edge. -/
def topLeft (p q : Pt) : Bool := decide (p.2 < q.2) || (p.2 == q.2 && decide (q.1 < p.1))

/-- R133: a sample place lies inside an edge. -/
def insideEdge (p q s : Pt) : Bool := decide (0 < edgeFn p q s) || (edgeFn p q s == 0 && topLeft p q)

/-- R133: a sample place lies inside a counter-clockwise triangle. -/
def insideTri (a b c s : Pt) : Bool := insideEdge a b s && insideEdge b c s && insideEdge c a s

/-- Standard sample locations of Vulkan 1.3, in 1/16 pixel (assumption log 26). -/
def samplePos (n j : Nat) : Nat × Nat :=
  if n = 1 then (8, 8)
  else if n = 2 then [(12, 12), (4, 4)].getD j (8, 8)
  else if n = 4 then [(6, 2), (14, 6), (2, 10), (10, 14)].getD j (8, 8)
  else [(9, 5), (7, 11), (13, 9), (5, 3), (3, 13), (1, 7), (11, 15), (15, 1)].getD j (8, 8)

/-- The place of sample `j` of `n` of pixel (x, y). -/
def sampleAt (n j x y : Nat) : Pt :=
  let p := samplePos n j
  ((256 * x + 16 * p.1 : Nat), (256 * y + 16 * p.2 : Nat))

/-- The corners of a rectangle of the frame, in 1/256 pixel. -/
def corners (x0 y0 x1 y1 : Nat) : List Pt := [(x0, y0), (x1, y0), (x0, y1), (x1, y1)]

/-- R125, step 5: an edge of the triangle excludes the whole rectangle. -/
def excludes (a b c : Pt) (cs : List Pt) : Bool :=
  [(a, b), (b, c), (c, a)].any (fun e => cs.all (fun s => decide (edgeFn e.1 e.2 s < 0)))

/-- The triangle covers the whole rectangle. -/
def coversAll (a b c : Pt) (cs : List Pt) : Bool :=
  [(a, b), (b, c), (c, a)].all (fun e => cs.all (fun s => decide (0 ≤ edgeFn e.1 e.2 s)))

end Sys2Proof.Machine
end

