-- ==== Sys2Proof/Machine/Binner.lean ====
section
/-! DEFINITION. The Binner (R119, R121, R124 to R129): BIN_PASS, batches, bin lists, segments and parking. -/

namespace Sys2Proof.Machine

/-! ### Waits of passes (R225) -/

/-- A wait of a pass or of a stream on an event of its context: registered while it pends, used up once decided. -/
def awaitEv (s : State) (kind id lane c ev target : Nat) : State × WaitSt :=
  let mine (w : XWait) : Bool := w.kind == kind && w.id == id && w.lane == lane
  match s.evs.waits.find? mine with
  | some w =>
    if w.st = .pending then (s, .pending)
    else ({ s with evs := { s.evs with waits := s.evs.waits.filter (fun x => !mine x) } }, w.st)
  | none =>
    if evOwned s c ev = false then (s, .gone)
    else
      let st := evalWait (evOf s ev) target .pending
      if st = .pending then
        ({ s with evs := { s.evs with waits := s.evs.waits ++ [{ kind := kind, id := id, lane := lane, ev := ev, target := target }] } }, .pending)
      else (s, st)

/-- The waits of a kind and number are dropped. -/
def dropWaits (s : State) (kind id : Nat) : State :=
  { s with evs := { s.evs with waits := s.evs.waits.filter (fun w => !(w.kind == kind && w.id == id)) } }

/-- A record on an event of a context: nothing where the event is no longer the context's. -/
def recordOwn (s : State) (c ev : Nat) (k : RecKind) : State := if evOwned s c ev then recordEv s ev k else s

/-! ### Records (Tables TR-3 to TR-5) -/

def drState (b : List Byte) : Nat := leAt b 2 2
def drTopo (b : List Byte) : Nat := natBits (leAt b 0 4) 2 2
def drIdx16 (b : List Byte) : Bool := natBits (leAt b 0 4) 1 1 == 1
def drIndexed (b : List Byte) : Bool := natBits (leAt b 0 4) 0 1 == 1
def drCount (b : List Byte) : Nat := leAt b 4 4
def drInsts (b : List Byte) : Nat := leAt b 8 4
def drFirst (b : List Byte) : Nat := leAt b 0xC 4
def drIndexAddr (b : List Byte) : Nat := leAt b 0x10 8
def drProg (b : List Byte) : Nat := leAt b 0x18 8
def drConst (b : List Byte) : Nat := leAt b 0x20 8
def drVary (b : List Byte) : Nat := leAt b 0x2C 1

def stCull (b : List Byte) : Nat := natBits (leAt b 0 4) 30 2
def stFrontCw (b : List Byte) : Bool := natBits (leAt b 0 4) 29 1 == 1
def stDepthTest (b : List Byte) : Bool := natBits (leAt b 0 4) 28 1 == 1
def stDepthWrite (b : List Byte) : Bool := natBits (leAt b 0 4) 27 1 == 1
def stDepthCmp (b : List Byte) : Nat := natBits (leAt b 0 4) 24 3
def stStencil (b : List Byte) : Bool := natBits (leAt b 0 4) 23 1 == 1
def stClamp (b : List Byte) : Bool := natBits (leAt b 0 4) 22 1 == 1
def stNoHsr (b : List Byte) : Bool := natBits (leAt b 0 4) 21 1 == 1
def stEffects (b : List Byte) : Bool := natBits (leAt b 0 4) 20 1 == 1
def stBlendEn (b : List Byte) : Nat := leAt b 0 2
def stMask (b : List Byte) : Nat := leAt b 0x10 8
def stProg (b : List Byte) : Nat := leAt b 0x18 8
def stConst (b : List Byte) : Nat := leAt b 0x20 8
def stBlendTable (b : List Byte) : Nat := leAt b 0x28 8
/-- Scissor: left, top, right and bottom. -/
def stScissor (b : List Byte) : Nat × Nat × Nat × Nat := (leAt b 0x38 2, leAt b 0x3A 2, leAt b 0x3C 2, leAt b 0x3E 2)

/-- An address field: a context VA aligned to `n` bytes (R58). -/
def vaOk (n a : Nat) : Bool := decide (a < 2 ^ 57) && a % n == 0

/-- R124: the body of a BIN_PASS keeps Table TR-3. -/
def binBodyOk (b : List Byte) : Bool :=
  let dim := fun n => decide (1 ≤ n) && decide (n ≤ 16384)
  natBits (leAt b 0x10 4) 16 14 == 0 && leAt b 0x26 2 == 0 && leAt b 0x3C 4 == 0 && dim (leAt b 0x14 2) && dim (leAt b 0x16 2) &&
  decide (leAt b 0x20 4 ≤ 2 ^ 24) && vaOk 64 (leAt b 0x18 8) && vaOk 64 (leAt b 0x28 8) && vaOk 4096 (leAt b 0x30 8)

/-- R124: a draw record keeps Table TR-4. -/
def drawOk (b : List Byte) : Bool :=
  natBits (leAt b 0 4) 4 12 == 0 && decide (1 ≤ drInsts b) && natBits (leAt b 0x2C 4) 8 24 == 0 && decide (drVary b ≤ 32) &&
  leAt b 0x38 8 == 0 && (!drIndexed b || vaOk (if drIdx16 b then 2 else 4) (drIndexAddr b)) && vaOk 64 (drProg b) && vaOk 64 (drConst b)

/-- R124: a state record keeps Table TR-5. -/
def stateOk (b : List Byte) : Bool :=
  natBits (leAt b 0 4) 16 4 == 0 && leAt b 4 1 == 0 && natBits (leAt b 8 4) 12 4 == 0 && natBits (leAt b 8 4) 28 4 == 0 &&
  leAt b 0x34 4 == 0 && vaOk 64 (stProg b) && vaOk 64 (stConst b) && vaOk 64 (stBlendTable b)

/-- Registers that Table PN-5 names for a fragment program: its varyings, the locations its state writes, and depth
and sample mask under FS_EFFECTS (assumption log 27). -/
def fragRegs (st : List Byte) (vary : Nat) : Nat :=
  let locs := (List.range 16).foldl (fun n a => if natBits (stMask st) (4 * a) 4 = 0 then n else 4 * a + 4) 0
  Nat.max (Nat.max (4 * vary) locs) (if stEffects st then 66 else 0)

/-- Tiles of a frame at a TILE_SIZE. -/
def gridOf (tile fw fh : Nat) : Nat × Nat := (ceilDiv fw (tileDims tile).1, ceilDiv fh (tileDims tile).2)

/-- R128: the least size of a heap. -/
def heapMin (t : Nat) : Nat := 256 + 16 * t + 256 * t + 65536

/-- R127: where the dynamic area of a heap begins. -/
def dynBase (t : Nat) : Nat := ceilDiv (256 + 16 * t) 256 * 256

def BinPass.grid (p : BinPass) : Nat × Nat := gridOf p.tile p.frameW p.frameH
def BinPass.tiles (p : BinPass) : Nat := p.grid.1 * p.grid.2

/-! ### BIN_PASS (R124) -/

def binWho (d : Desc) : Who := { stream := 5, ctx := d.ctx, eng := 1, ring := some d.ring }
def binOf (s : State) (id : Nat) : Option BinPass := tfind s.ra.bins id
def setBin (s : State) (id : Nat) (p : BinPass) : State := { s with ra := { s.ra with bins := tset s.ra.bins id p } }
def setSegMap (s : State) (m : SegMap) : State :=
  { s with ra := { s.ra with segs := s.ra.segs.filter (fun x => !(x.ctx == m.ctx && x.heap == m.heap)) ++ [m] } }

/-- The placement of a heap's records. -/
def segMapOf (s : State) (c heap : Nat) : SegMap :=
  (s.ra.segs.find? (fun x => x.ctx == c && x.heap == heap)).getD { ctx := c, heap := heap, prims := [], verts := [] }

/-- A refused BIN_PASS: the bit of BN_ERR that shows it, and the status. -/
def refuseBin (s : State) (id code : Nat) : State :=
  let s := if code = St.BAD_DRAW then setFlag s Reg.BN_ERR 2 true
    else if code = St.HEAP_TOO_SMALL then setFlag s Reg.BN_ERR 1 true else s
  endDesc s id code

/-- The state indices of a list of draws, each once. -/
def drawStates (ds : List (List Byte)) : List Nat := (ds.map drState).eraseDups

/-- The pass opened. -/
def binOpen (d : Desc) (draws : List (List Byte)) (states : Tbl (List Byte)) (segBase relBase age : Nat) : BinPass :=
  let b := d.bytes
  { ctx := d.ctx, ring := d.ring, tile := natBits (leAt b 0x10 4) 30 2, segEvent := leAt b 0x10 2, relEvent := leAt b 0x24 2
    frameW := leAt b 0x14 2, frameH := leAt b 0x16 2, stateTable := leAt b 0x28 8, heap := leAt b 0x30 8
    heapBytes := 4096 * leAt b 0x38 4, draws := draws, states := states, segBase := segBase, relBase := relBase, age := age }

/-- BIN_PASS (R121, R124, R128): its draws, their states and the headers of their programs are read and checked, and
the pass opens. -/
def execBinPass (desc : Nat) (s : State) : Out :=
  .next <| match startedDesc s desc Op.BIN_PASS with
  | none => s
  | some d =>
    let b := d.bytes
    let g := gridOf (natBits (leAt b 0x10 4) 30 2) (leAt b 0x14 2) (leAt b 0x16 2)
    if (binOf s desc).isSome ∨ 8 ≤ s.ra.bins.length then s
    else if binBodyOk b = false then endDesc s desc St.BAD_BIN_PASS
    else if 4096 * leAt b 0x38 4 < heapMin (g.1 * g.2) then refuseBin s desc St.HEAP_TOO_SMALL
    else if evOwned s d.ctx (leAt b 0x10 2) = false ∨ evOwned s d.ctx (leAt b 0x24 2) = false then endDesc s desc St.BAD_EVENT
    else
      let w := binWho d
      let n := leAt b 0x20 4
      let rd (a k : Nat) : Acc := { va := a, len := k, kind := 0 }
      let a1 := [rd (leAt b 0x18 8) (64 * n), rd (leAt b 0x30 8) 16]
      match prepare s w a1 with
      | .wait s' => s'
      | .fault s' _ => endDesc s' desc St.IN_FAULT
      | .ok s1 m1 =>
        let draws := (List.range n).map (fun i => vaRd s1 false m1 (leAt b 0x18 8 + 64 * i) 64)
        if draws.all drawOk = false then refuseBin s1 desc St.BAD_DRAW
        else
          let idx := drawStates draws
          let stVa (i : Nat) : Nat := leAt b 0x28 8 + 64 * i
          let a2 := a1 ++ idx.map (fun i => rd (stVa i) 64) ++ draws.map (fun x => rd (drProg x) 64)
          match prepare s w a2 with
          | .wait s' => s'
          | .fault s' _ => endDesc s' desc St.IN_FAULT
          | .ok s2 m2 =>
            let states : Tbl (List Byte) := idx.foldl (fun t i => tset t i (vaRd s2 false m2 (stVa i) 64)) []
            if states.all (fun p => stateOk p.2) = false then refuseBin s2 desc St.BAD_DRAW
            else
              withMem s w (a2 ++ states.map (fun p => rd (stProg p.2) 64))
                (fun s m =>
                  let hdr (a : Nat) : List Byte := vaRd s false m a 64
                  let vsOk := draws.all (fun x => progOk (hdr (drProg x)) 1 (4 + 4 * drVary x))
                  let fsOk := draws.all (fun x =>
                    let st := tget [] states (drState x)
                    progOk (hdr (stProg st)) 2 (fragRegs st (drVary x)))
                  if vsOk && fsOk then
                    let k := s.ra.clock + 1
                    let heap := leAt b 0x30 8
                    let p := binOpen d draws states (leNat (vaRd s false m heap 8)) (leNat (vaRd s false m (heap + 8) 8)) k
                    setSegMap (setBin { s with ra := { s.ra with clock := k } } desc p) { ctx := d.ctx, heap := heap, prims := [], verts := [] }
                  else endDesc s desc St.BAD_PROGRAM)
                (fun s _ => endDesc s desc St.IN_FAULT)

/-! ### Batches (R125) -/

/-- Primitives of one instance of a draw. -/
def drPrims (b : List Byte) : Nat :=
  let n := drCount b
  if drTopo b = 0 then n / 3 else if drTopo b = 1 then n - 2 else if drTopo b = 2 then n / 2 else n

/-- R125: the vertex positions of primitive `i` of a draw; a strip alternates winding. -/
def primVerts (topo i : Nat) : List Nat :=
  if topo = 0 then [3 * i, 3 * i + 1, 3 * i + 2]
  else if topo = 1 then [i, i + 1 + i % 2, i + 2 - i % 2]
  else if topo = 2 then [2 * i, 2 * i + 1] else [i]

/-- The next draw, instance and primitive from a place on that has a primitive; the draw count where none is left. -/
def nextPrim (draws : List (List Byte)) (draw inst prim : Nat) : Nat → Nat × Nat × Nat
  | 0 => (draws.length, 0, 0)
  | n + 1 =>
    let b := draws.getD draw []
    if draws.length ≤ draw then (draws.length, 0, 0)
    else if drPrims b = 0 ∨ drInsts b ≤ inst then nextPrim draws (draw + 1) 0 0 n
    else if prim < drPrims b then (draw, inst, prim)
    else if inst + 1 < drInsts b then (draw, inst + 1, 0)
    else nextPrim draws (draw + 1) 0 0 n

/-- Beats of 32 distinct vertices: V0 is the index, V1 the instance (R150). -/
def vertBeats (seed inst : Nat) (vs : List Nat) : List Beat :=
  (List.range (ceilDiv vs.length 32)).map (fun k =>
    let l := (vs.drop (32 * k)).take 32
    newBeat (seed + k) (2 ^ l.length - 1) 0 [] (((l.zip (List.range l.length)).map (fun x =>
      [(0, x.2, BitVec.ofNat 32 x.1), (1, x.2, BitVec.ofNat 32 inst)])).flatten))

/-- The vertex workgroups of a batch, of 4 beats each, placed train after train (assumption log 23). -/
def addVertWgs (s : State) (id : Nat) (p : BinPass) (code : Nat) (h : Prog) (const inst : Nat) (vs : List Nat) : State :=
  (List.range (ceilDiv vs.length 128)).foldl (fun s k =>
    let n := Config.trains s.fuse.variant
    let t := (nextTrain s (2 ^ n - 1) (s.pn.vertexSeq % n)).getD 0
    let w : Wg := { kind := 1, owner := id, ctx := p.ctx, ring := p.ring, eng := 1, vregs := h.vregs, code := code + 64, codeBytes := h.codeBytes, const := const, aff := t, beats := vertBeats s.free inst ((vs.drop (128 * k)).take 128) }
    addWg { s with pn := { s.pn with vertexSeq := s.pn.vertexSeq + 1 } } w) s

/-- Workgroups that came to be between two states, by number. -/
def newWgs (s0 s1 : State) : List Nat := (List.range (s1.pn.nextWg - s0.pn.nextWg)).map (· + s0.pn.nextWg)

/-- R125: a batch formed from a place on: its indices read through stream 5, where a failed read gives 0, and its
distinct vertices sent to the Pinions. -/
def formBatch (s : State) (id : Nat) (p : BinPass) (at_ : Nat × Nat × Nat) : State :=
  let (draw, inst, prim) := at_
  let b := p.draws.getD draw []
  let n := Nat.min 1024 (drPrims b - prim)
  let prims := (List.range n).map (fun i => (prim + i, primVerts (drTopo b) (prim + i)))
  let lo := ((prims.map (·.2)).flatten).foldl Nat.min (drCount b)
  let hi := ((prims.map (·.2)).flatten).foldl Nat.max 0
  let sz := if drIdx16 b then 2 else 4
  let ia := drIndexAddr b + sz * (drFirst b + lo)
  let hdr : Acc := { va := drProg b, len := 64, kind := 0 }
  let idxAcc : List Acc := if drIndexed b then [{ va := ia, len := sz * (hi + 1 - lo), kind := 0 }] else []
  let w : Who := { stream := 5, ctx := p.ctx, eng := 1, ring := some p.ring }
  let go (s : State) (h : List Byte) (idx : Nat → Nat) : State :=
    let key (i : Nat) : Nat :=
      if drIndexed b then (idx i + leAt b 0x28 4) % 2 ^ 32 else (drFirst b + i) % 2 ^ 32
    let ps := prims.map (fun x => (x.1, x.2.map key))
    let vs := ((ps.map (·.2)).flatten).eraseDups
    let s1 := addVertWgs s id p (drProg b) (progOf h) (drConst b) inst vs
    setBin s1 id { p with draw := draw, inst := inst, prim := prim + n, bDraw := draw, bInst := inst, bVerts := vs, bPrims := ps, bWgs := newWgs s s1, shaded := none, written := [] }
  let bad (s : State) : State :=
    go (setFlag (noteFail s id St.IN_FAULT) Reg.BN_ERR 0 true) [] (fun _ => 0)
  withMem s w (hdr :: idxAcc)
    (fun s m =>
      let bytes := if drIndexed b then vaRd s false m ia (sz * (hi + 1 - lo)) else []
      go s (vaRd s false m (drProg b) 64) (fun i => leAt bytes (sz * (i - lo)) sz))
    (fun s _ => bad s)

/-- R150: the vertices that a batch's ended workgroups hold, in order; a lane with no output holds free values. -/
def collectVerts (s : State) (p : BinPass) : List Vtx :=
  let n := 4 * drVary (p.draws.getD p.bDraw [])
  let beats := (p.bWgs.map (fun g => ((wgOf s g).map (·.beats)).getD [])).flatten
  let lanes := (beats.map (fun b => (List.range 32).map (fun l => (b, l)))).flatten
  (lanes.take p.bVerts.length).map (fun x =>
    { pos := (List.range 4).map (fun r => x.1.reg r x.2), vary := (List.range n).map (fun r => x.1.reg (4 + r) x.2) })

/-! ### Binning a primitive (R125, R126) -/

/-- Steps 1 and 2: the triangles of a primitive, each with whether it may be culled by its face. -/
def primTris (p : BinPass) (st dr : List Byte) (vs : List BVert) : List (List BVert) :=
  let raw := match vs with
    | [a] => pointTris a (dec32 (BitVec.ofNat 32 (leAt dr 0x30 4))) p.frameW p.frameH
    | [a, b] => lineTris a b (dec32 (BitVec.ofNat 32 (leAt dr 0x34 4))) p.frameW p.frameH
    | t => [t]
  ((raw.zip (List.range raw.length)).map (fun x => clipTri x.1 (stClamp st) p.frameW p.frameH (newKey + 1000 * (x.2 + 1)))).flatten

/-- A triangle that step 4 keeps: its vertices counter-clockwise, its face, and the tiles it enters with COVERS. -/
structure BTri where
  v : List FVert
  back : Bool
  tiles : List (Nat × Bool)
  deriving DecidableEq, Repr

/-- The part of the frame inside the scissor: left, top, right, bottom in pixels. -/
def drawRect (fw fh : Nat) (st : List Byte) : Nat × Nat × Nat × Nat :=
  let c := stScissor st
  (c.1, c.2.1, Nat.min fw c.2.2.1, Nat.min fh c.2.2.2)

/-- Steps 3 to 5: a triangle mapped to the frame; none where step 4 discards it. -/
def placeTri (p : BinPass) (st : List Byte) (isTri : Bool) (t : List BVert) : Option BTri :=
  if t.all divides = false then none
  else
    match t.map (fun v => toFrame v p.frameW p.frameH) with
    | [a, b, c] =>
      let s2 := area2 (a.x, a.y) (b.x, b.y) (c.x, c.y)
      let front := decide (s2 < 0) != stFrontCw st
      let r := drawRect p.frameW p.frameH st
      let xs := [a.x, b.x, c.x]
      let ys := [a.y, b.y, c.y]
      let x0 := max (xs.foldl min a.x) (256 * r.1 : Nat)
      let y0 := max (ys.foldl min a.y) (256 * r.2.1 : Nat)
      let x1 := min (xs.foldl max a.x) (256 * r.2.2.1 : Nat)
      let y1 := min (ys.foldl max a.y) (256 * r.2.2.2 : Nat)
      if s2 = 0 ∨ (isTri = true ∧ ((stCull st = 3) ∨ (stCull st = 1 ∧ front = false) ∨ (stCull st = 2 ∧ front = true))) ∨ x1 ≤ x0 ∨ y1 ≤ y0 then none
      else
        let (b, c) := if s2 < 0 then (b, c) else (c, b)
        let d := tileDims p.tile
        let tx0 := x0.toNat / 256 / d.1
        let ty0 := y0.toNat / 256 / d.2
        let nx := (x1 - 1).toNat / 256 / d.1 - tx0 + 1
        let ny := (y1 - 1).toNat / 256 / d.2 - ty0 + 1
        let pa : Pt := (a.x, a.y)
        let pb : Pt := (b.x, b.y)
        let pc : Pt := (c.x, c.y)
        let ts := ((List.range ny).map (fun j => (List.range nx).map (fun i => (tx0 + i, ty0 + j)))).flatten
        let hit := ts.filterMap (fun q =>
          let px0 := q.1 * d.1
          let py0 := q.2 * d.2
          let cs := corners (256 * px0) (256 * py0) (256 * (px0 + d.1)) (256 * (py0 + d.2))
          if excludes pa pb pc cs then none
          else
            let inRect := decide (r.1 ≤ px0) && decide (r.2.1 ≤ py0) && decide (px0 + d.1 ≤ r.2.2.1) && decide (py0 + d.2 ≤ r.2.2.2)
            some (q.2 * p.grid.1 + q.1, inRect && coversAll pa pb pc cs))
        some { v := [a, b, c], back := isTri && !front, tiles := hit }
    | _ => none

/-- Bytes that a primitive adds to a heap, with the pass and the placement after it. -/
structure Adds where
  p : BinPass
  map : SegMap
  /-- Offsets from the heap's base, and bytes. -/
  writes : List (Nat × List Byte) := []
  deriving DecidableEq, Repr

/-- A record of `n` bytes placed below the records already in the segment. -/
def Adds.place (a : Adds) (d : List Byte) : Adds × Nat :=
  let below := a.p.recBytes + d.length
  let off := a.p.heapBytes - below
  ({ a with p := { a.p with recBytes := below }, writes := a.writes ++ [(off, d)] }, off)

/-- The vertex record of a vertex: the one already written in the segment, or a new one. -/
def Adds.vert (a : Adds) (v : FVert) : Adds × Nat :=
  match tfind a.p.written v.key with
  | some i => (a, i)
  | none =>
    let f (x : Int) : Word := enc32 (.fin (decide (x < 0)) x.natAbs (-8))
    let d := toLe (f v.x).toNat 4 ++ toLe (f v.y).toNat 4 ++ toLe v.z.toNat 4 ++ toLe v.rw.toNat 4 ++
      (v.vary.map (fun w => toLe w.toNat 4)).flatten
    let r := a.place d
    let i := a.p.verts
    ({ r.1 with p := { r.1.p with verts := i + 1, written := tset r.1.p.written v.key i }
                map := { r.1.map with verts := r.1.map.verts ++ [(r.2, v.vary.length / 4)] } }, i)

/-- R127: an entry appended to a tile's list. -/
def Adds.entry (a : Adds) (tile : Nat) (e : Nat) : Adds :=
  let p := a.p
  let (first, last, count) := tget (0, 0, 0) p.lists tile
  let p := { p with entries := satTo 0xFFFFFFFF (p.entries + 1) }
  if count % 62 = 0 then
    let k := (dynBase p.tiles + p.chunkBytes) / 256
    let l := tset p.lists tile (if count = 0 then k else first, k, count + 1)
    let link := if count = 0 then [] else [(256 * last + 0xF8, toLe k 4)]
    { a with p := { p with chunkBytes := p.chunkBytes + 256, lists := l }
             writes := a.writes ++ link ++ [(256 * k, toLe e 4), (256 * k + 0xF8, toLe 0 4 ++ toLe 1 4)] }
  else
    { a with p := { p with lists := tset p.lists tile (first, last, count + 1) }
             writes := a.writes ++ [(256 * last + 4 * (count % 62), toLe e 4), (256 * last + 0xFC, toLe (count % 62 + 1) 4)] }

/-- A kept triangle's records and entries. -/
def Adds.tri (a : Adds) (num : Nat) (t : BTri) : Adds :=
  let r := t.v.foldl (fun (r : Adds × List Nat) v =>
    let x := r.1.vert v
    (x.1, r.2 ++ [x.2])) (a, [])
  let dr := a.p.draws.getD a.p.bDraw []
  let i := r.1.p.prims
  let d := (r.2.map (fun i => toLe i 4)).flatten ++ toLe (2 ^ 15 * b2n t.back + 2 ^ 16 * drState dr) 4 ++ toLe a.p.bDraw 4 ++
    toLe a.p.bInst 4 ++ toLe num 4 ++ toLe 0 4
  let x := r.1.place d
  let a := { x.1 with p := { x.1.p with prims := i + 1 }, map := { x.1.map with prims := x.1.map.prims ++ [x.2] } }
  t.tiles.foldl (fun a q => a.entry q.1 (i % 2 ^ 30 + 2 ^ 31 * b2n q.2)) a

/-- A primitive's triangles placed: what it adds, triangles presented to step 4, and triangles discarded there. -/
def addPrim (p : BinPass) (map : SegMap) (shaded : List Vtx) (num : Nat) (vs : List Nat) : Adds × Nat × Nat :=
  let dr := p.draws.getD p.bDraw []
  let st := tget [] p.states (drState dr)
  let bv := vs.map (fun v =>
    let k := p.bVerts.idxOf v
    bvertOf (shaded.getD k { pos := [], vary := [] }) k)
  let tris := primTris p st dr bv
  let kept := tris.filterMap (placeTri p st (decide (vs.length = 3)))
  let start : Adds := { p := p, map := map }
  let a : Adds := kept.foldl (fun (a : Adds) t => a.tri num t) start
  let w := a.p.written.filter (fun x => decide (x.1 < newKey))
  ({ a with p := { a.p with written := w } }, tris.length, tris.length - kept.length)

/-! ### Segments (R129) -/

/-- R129, step 1: tile headers, and the state block but for the driver's and the render pass's fields. -/
def closeWrites (p : BinPass) (final : Bool) : List (Nat × List Byte) :=
  let hdr (i : Nat) : List Byte :=
    let l := tget (0, 0, 0) p.lists i
    toLe l.1 4 ++ toLe l.2.1 4 ++ toLe l.2.2 4 ++ toLe 0 4
  [(0x10, toLe p.segEvent 2 ++ toLe p.relEvent 2 ++ toLe p.seg 4 ++ toLe (2 ^ 31 * b2n final) 4 ++ toLe p.tiles 4 ++
     toLe p.stateTable 8 ++ toLe p.prims 4 ++ toLe (p.chunkBytes / 256) 4 ++ toLe p.triIn 4 ++ toLe p.culled 4 ++
     toLe p.entries 4 ++ toLe (p.seg + 1) 4),
   (0x100, ((List.range p.tiles).map hdr).flatten)]

/-- Bytes written into a heap through stream 6; a write that fails is discarded, and the pass fails with OUT_FAULT. -/
def heapWrite (s : State) (id : Nat) (p : BinPass) (ws : List (Nat × List Byte)) (k : State → State) : State :=
  let w : Who := { stream := 6, ctx := p.ctx, eng := 1, ring := some p.ring }
  withMem s w (ws.map (fun x => { va := p.heap + x.1, len := x.2.length, kind := 1 }))
    (fun s m => k (ws.foldl (fun s x => vaWr s false w m (p.heap + x.1) x.2) s))
    (fun s _ => k (setFlag (noteFail s id St.OUT_FAULT) Reg.BN_ERR 0 true))

/-- Vertex workgroups of a pass are forgotten. -/
def dropWgs (s : State) (l : List Nat) : State := l.foldl dropWg s

/-- An open pass ends before its final segment: SEG_EVENT takes the error flag (Table TR-11). -/
def abortBin (s : State) (id status : Nat) : State :=
  match binOf s id with
  | none => s
  | some p =>
    let s := dropWaits (dropWgs s p.bWgs) 2 id
    let s := { s with ra := { s.ra with bins := tdel s.ra.bins id } }
    endDesc (recordOwn s p.ctx p.segEvent .flag) id status

/-- R129: segment `p.seg` closes; the final one completes the pass, any other parks it. -/
def closeSegment (s : State) (id : Nat) (p : BinPass) (final : Bool) : State :=
  heapWrite s id p (closeWrites p final) (fun s =>
    let s := recordOwn s p.ctx p.segEvent (.set false ((p.segBase + p.seg + 1) % 2 ^ 63))
    if final then endRun { s with ra := { s.ra with bins := tdel s.ra.bins id } } id
    else
      let s := countReg s Reg.BN_SEGMENTS 32 1
      let s := setBin s id { p with parked := true }
      (awaitEv s 2 id 0 p.ctx p.relEvent ((p.relBase + p.seg + 1) % 2 ^ 63)).1)

/-- The Binner serves this pass next: the oldest that is not parked (R121). -/
def binNext (s : State) : Option (Nat × BinPass) :=
  (s.ra.bins.filter (fun x => !x.2.parked)).foldl (fun b x => match b with
    | none => some x
    | some y => if x.2.age < y.2.age then some x else some y) none

/-- The next primitive of a shaded batch is binned, or the segment closes because it does not fit (R129). -/
def binOne (s : State) (id : Nat) (p : BinPass) (shaded : List Vtx) (num : Nat) (vs : List Nat) (rest : List (Nat × List Nat)) : State :=
  let (a, nIn, nCut) := addPrim p (segMapOf s p.ctx p.heap) shaded num vs
  if p.heapBytes - dynBase p.tiles < a.p.chunkBytes + a.p.recBytes then closeSegment s id p false
  else
    heapWrite s id p a.writes (fun s =>
      let q := { a.p with bPrims := rest, triIn := satTo 0xFFFFFFFF (p.triIn + nIn), culled := satTo 0xFFFFFFFF (p.culled + nCut) }
      let s := addWide (setSegMap (setBin s id q) a.map) Reg.BN_TICKS_LO nIn
      if nIn = 0 then s else tickFor s p.ctx 1)

/-- BIN_BATCH (R125 to R129): one stage of the oldest pass that is not parked: a batch formed, its shaded vertices
taken, one primitive binned, or the segment closed. -/
def execBinBatch (s : State) : Out :=
  .next <| match binNext s with
  | none => s
  | some (id, p) =>
    match engineFence s 1 with
    | some (_, st) => abortBin s id st
    | none =>
      match p.shaded, p.bPrims with
      | some vs, (num, l) :: rest => binOne s id p vs num l rest
      | none, _ :: _ =>
        if p.bWgs.all (fun g => ((wgOf s g).map (fun w => decide (w.phase = .done))).getD true) then
          setBin (dropWgs s p.bWgs) id { p with shaded := some (collectVerts s p), bWgs := [] }
        else s
      | _, [] =>
        let n := nextPrim p.draws p.draw p.inst p.prim (p.draws.length + 1)
        if p.draws.length ≤ n.1 then closeSegment s id p true else formBatch s id p n

/-- BINNER_UNPARK (R129): a parked pass whose release has come empties the dynamic area and goes on; one whose
context or engine is fenced ends (Table TR-11), and so does one whose wait failed (R210). -/
def execBinnerUnpark (desc : Nat) (s : State) : Out :=
  .next <| match binOf s desc with
  | none => s
  | some p =>
    if p.parked = false then s
    else match fenceStatus s p.ctx 1 with
      | some st => abortBin s desc st
      | none =>
        let r := awaitEv s 2 desc 0 p.ctx p.relEvent ((p.relBase + p.seg + 1) % 2 ^ 63)
        let ign := ((tfind s.esc.descs desc).map (fun d => hIgnErr d.bytes)).getD false
        let resume (s : State) : State :=
          setSegMap (setBin s desc { p with parked := false, seg := p.seg + 1, chunkBytes := 0, recBytes := 0, prims := 0, verts := 0, lists := [], written := [] })
            { ctx := p.ctx, heap := p.heap, prims := [], verts := [] }
        match r.2 with
        | .pending => r.1
        | .met => resume r.1
        | .err => if ign then resume r.1 else abortBin r.1 desc St.DEPENDENCY_ERROR
        | .gone => abortBin r.1 desc St.BAD_EVENT

end Sys2Proof.Machine
end

