-- ==== Sys2Proof/Machine/Routes.lean ====
section
/-! DEFINITION. The routes of a domain (R349, R350): levels of the links and up-down routes, and the loss of devices
with the quorum that follows (R354 to R356). -/

namespace Sys2Proof.Machine

/-! ### Up-down routes (R349) -/

/-- A link: device, port, device, port. -/
abbrev NLink := Nat × Nat × Nat × Nat

/-- The neighbours of a device: its port, and the device at the far end. -/
def nbrsOf (ls : List NLink) (v : Nat) : List (Nat × Nat) :=
  ls.filterMap (fun l => if l.1 = v then some (l.2.1, l.2.2.1) else if l.2.2.1 = v then some (l.2.2.2, l.1) else none)

/-- The devices that links name. -/
def linkDevs (ls : List NLink) : List Nat := ((ls.map (·.1)) ++ (ls.map (·.2.2.1))).eraseDups

/-- Breadth-first levels from a root, in `n` rounds. -/
def levelsFrom (ls : List NLink) : Nat → Tbl Nat → Tbl Nat
  | 0, t => t
  | n + 1, t =>
    let t' := (linkDevs ls).foldl (fun (u : Tbl Nat) v =>
      if (tfind u v).isSome then u
      else match ((nbrsOf ls v).filterMap (fun x => tfind t x.2)).min? with
        | some l => tset u v (l + 1)
        | none => u) t
    levelsFrom ls n t'

/-- The link from `v` to `w` leads away from the root: to a deeper level, or at one level to the higher number. -/
def leadsAway (lv : Tbl Nat) (v w : Nat) : Bool :=
  let a := tget 0 lv v
  let b := tget 0 lv w
  decide (a < b) || (a == b && decide (v < w))

/-- The better of two hops: fewer hops, then the lower port. -/
def betterHop (x y : Nat × Nat) : Nat × Nat := if y.1 < x.1 ∨ (y.1 = x.1 ∧ y.2 < x.2) then y else x

/-- One round towards a destination: hops and first port by device, over the links that `ok` allows, from what `from_`
knows of the far end. -/
def hopRound (ls : List NLink) (ok : Nat → Nat → Bool) (from_ : Nat → Option (Nat × Nat)) (skip : Nat → Bool)
    (t : Tbl (Nat × Nat)) : Tbl (Nat × Nat) :=
  (linkDevs ls).foldl (fun (u : Tbl (Nat × Nat)) v =>
    if skip v then u
    else
      let cs := (nbrsOf ls v).filterMap (fun x => if ok v x.2 then (from_ x.2).map (fun h => (h.1 + 1, x.1)) else none)
      match cs with
      | [] => u
      | c :: cs => tset u v (cs.foldl betterHop c)) t

/-- Routes that lead away from the root all the way to a destination. -/
def downRoutes (ls : List NLink) (lv : Tbl Nat) (d : Nat) : Nat → Tbl (Nat × Nat) → Tbl (Nat × Nat)
  | 0, t => t
  | n + 1, t => downRoutes ls lv d n (hopRound ls (leadsAway lv) (fun w => if w = d then some (0, 0) else tfind t w) (· == d) t)

/-- Routes that first lead towards the root. -/
def upRoutes (ls : List NLink) (lv : Tbl Nat) (d : Nat) (down : Tbl (Nat × Nat)) : Nat → Tbl (Nat × Nat) → Tbl (Nat × Nat)
  | 0, t => t
  | n + 1, t =>
    let know := fun w => if w = d then some (0, 0) else tfind down w <|> tfind t w
    upRoutes ls lv d down n (hopRound ls (fun v w => leadsAway lv w v) know (fun v => v == d || (tfind down v).isSome) t)

/-- R349: the output port of each device towards `d`: away from the root where that leads to `d`, since a route never
turns back towards the root, and towards the root otherwise (assumption log 33). -/
def routesTo (ls : List NLink) (root d : Nat) : Tbl Nat :=
  let n := (linkDevs ls).length
  let lv := levelsFrom ls n [(root, 0)]
  let down := downRoutes ls lv d n []
  let up := upRoutes ls lv d down n []
  (linkDevs ls).foldl (fun (t : Tbl Nat) v => match tfind down v <|> tfind up v with
    | some h => tset t v h.2
    | none => t) []

/-- The routing table of device `v`. -/
def tableOf (ls : List NLink) (root v : Nat) : Tbl Nat :=
  ((linkDevs ls).filter (· != v)).foldl (fun (t : Tbl Nat) d => match tfind (routesTo ls root d) v with
    | some p => tset t d p
    | none => t) []

/-! ### Members and ports -/

/-- Ports that are up, ascending. -/
def upPorts (s : State) : List Nat := (List.range (Config.nlPorts s.fuse.variant)).filter (fun p => (portOf s p).up)

/-- The numbers of the bits set in a mask of devices. -/
def maskDevs (m : Nat) : List Nat := (List.range 64).filter (fun d => natBits m d 1 == 1)

/-- Members that this device can reach, itself included. -/
def reachable (s : State) : List Nat := (maskDevs s.nl.members).filter (fun d => natBits s.nl.lost d 1 == 0)

/-- Devices that the active bank routes through a port. -/
def lostThrough (s : State) (p : Nat) : Nat := s.nl.active.foldl (fun m r => if r.2 = p then m ||| 2 ^ r.1 else m) 0

def nlErr (s : State) (b : Nat) : State := setFlag s Reg.NL_ERR b true

/-- A management packet on a port, to whoever is at its far end. -/
def sendHop (s : State) (p : Nat) (body : Pkt) : State :=
  queueOut s p { vc := 3, src := devNum s, dst := devNum s, epoch := s.nl.epoch.toNat % 2, body := body }

/-- A management packet to a member: on its route, or by the path of its answer while no route is known. -/
def sendMgmt (s : State) (d : Nat) (body : Pkt) : State :=
  match tfind s.nl.active d with
  | some _ => sendPkt s 3 d body
  | none => match s.nl.answered.find? (fun a => a.dev == d) with
    | some a => match a.path with
      | p :: ps => queueOut s p { vc := 3, src := devNum s, dst := d, epoch := s.nl.epoch.toNat % 2, path := some ps, body := body }
      | [] => s
    | none => sendPkt s 3 d body

/-! ### Epoch switches (R351) -/

/-- A device's banks change places: the idle bank is active, and the new idle bank starts as its copy. -/
def swapBanks (s : State) : State :=
  { s with nl := { s.nl with active := s.nl.idle, epoch := s.nl.epoch + 1, switching := none } }

/-- The manager's switch is complete: every member is told, and the job's final status is decided. -/
def completeSwitch (s : State) (job : Option Nat) : State :=
  let s := swapBanks s
  let s := ((reachable s).filter (· != devNum s)).foldl (fun s d => sendMgmt s d .switched) s
  match job with
  | some j =>
    let x := jobOf s j
    if x.st = .running then
      setJob s j { x with final := some x.arg2, result := if x.code = Cmd.FAB_EPOCH_SWITCH then s.nl.epoch.toNat else x.result }
    else s
  | none => s

/-- A member has reported done to the manager. -/
def switchReported (s : State) (d : Nat) : State := match s.nl.switching with
  | none => s
  | some w =>
    if s.nl.acting ≠ 1 ∨ w.awaiting.contains d = false then s
    else
      let left := w.awaiting.filter (· != d)
      let s := { s with nl := { s.nl with switching := some { w with awaiting := left } } }
      let s := match w.job with
        | some j => if (jobOf s j).code = Cmd.FAB_EPOCH_SWITCH then setJob s j { jobOf s j with done := (jobOf s j).done + 1 } else s
        | none => s
      if left = [] then completeSwitch s w.job else s

/-- Step 4 of R351: once every flow has been echoed, the device reports done. -/
def checkSwitch (s : State) : State := match s.nl.switching with
  | none => s
  | some w =>
    if w.flows ≠ [] ∨ w.reported then s
    else
      let s := { s with nl := { s.nl with switching := some { w with reported := true } } }
      if s.nl.acting = 1 then switchReported s (devNum s) else sendPkt s 3 s.nl.mgr .switchDone

/-- Steps 2 and 3 of R351 on a device: a marker behind the packets of each flow, and new packets held. -/
def beginSwitch (s : State) (job : Option Nat) (awaiting : List Nat) : State :=
  if s.nl.switching.isSome then s
  else
    let ds := (s.nl.active.map (·.1)).filter (fun d => natBits s.nl.members d 1 == 1 && natBits s.nl.lost d 1 == 0)
    let flows := (ds.map (fun d => [(d, 0), (d, 1), (d, 2)])).flatten
    let s := flows.foldl (fun s f => sendPkt s f.2 f.1 (.marker f.1 f.2)) s
    checkSwitch { s with nl := { s.nl with switching := some { flows := flows, job := job, awaiting := awaiting } } }

/-- Step 1 of R351 on the manager. -/
def managerSwitch (s : State) (job : Option Nat) : State :=
  let ds := reachable s
  let s := (ds.filter (· != devNum s)).foldl (fun s d => sendMgmt s d .switch) s
  beginSwitch s job ds

/-- A flow's marker has been echoed, or counts as echoed: its held packets go out under the new epoch. -/
def flowEchoed (s : State) (dst vc : Nat) : State := match s.nl.switching with
  | none => s
  | some w =>
    if w.flows.contains (dst, vc) = false then s
    else
      let mine := s.nl.held.filter (fun k => k.dst == dst && k.vc == vc)
      let s := { s with nl := { s.nl with
        held := s.nl.held.filter (fun k => !(k.dst == dst && k.vc == vc))
        switching := some { w with flows := w.flows.filter (· != (dst, vc)) } } }
      checkSwitch (mine.foldl (fun s k => sendPkt s k.vc k.dst k.body) s)

/-! ### Failed requests (R267, R352) -/

/-- The access of a remote request fails: its fault is recorded, and a write's descriptor notes it. -/
def failReq (s : State) (q : RemReq) (cause : Nat) : State :=
  let va := q.page * 4096 + q.off % 4096
  let r : FaultRec := { va := va, ctx := q.ctx, eng := q.eng, stream := q.stream, access := if q.atomic then 2 else b2n q.write,
                        cause := cause, pasid := (ctxOf s q.ctx).pasid, time := calTime s, ring := q.ring }
  let s := { s with nl := { s.nl with reqs := s.nl.reqs.filter (fun x => x.tag != q.tag) } }
  if q.write && !q.atomic then
    let s := failEntry s r
    { s with esc := { s.esc with descs := s.esc.descs.map (fun p =>
        if p.2.ctx = q.ctx ∧ q.ring = some p.2.ring ∧ p.2.eng = q.eng ∧ p.2.phase = .started ∧ p.2.err = 0
        then (p.1, { p.2 with err := St.OUT_FAULT }) else p) } }
  else failJoined s r

/-! ### Loss, votes and fences (R354 to R356) -/

/-- A candidate probes: it counts itself, and answers nobody else. -/
def startVote (s : State) : State :=
  let s := { s with nl := { s.nl with probing := some s.time.dev, votes := [devNum s], answeredCand := some (devNum s) } }
  (upPorts s).foldl (fun s p => sendHop s p (.probe (devNum s))) s

/-- R228: the events that accept records from a lost device are flagged. -/
def flagLost (s : State) (d : Nat) : State :=
  let es := s.evs.ev.filter (fun p => p.2.alloc && p.2.acceptEn && p.2.acceptDev == d)
  if es = [] then s else setFlag (es.foldl (fun s p => recordEv s p.1 .flag) s) Reg.EV_ERR 2 true

/-- What goes with one lost device: its flows count as echoed, what was held for it fails, requests to it fail, and a
management command to it completes. -/
def dropLost (s : State) (d : Nat) : State :=
  let s := flagLost s d
  let gone := s.nl.reqs.filter (fun q => q.dev == d)
  -- a read or atomic that is asked again meets R267; a write has nobody to ask again
  let s := gone.foldl (fun s q => if q.write && !q.atomic then failReq s q Cause.ROUTE_LOST
    else { s with nl := { s.nl with reqs := s.nl.reqs.filter (fun x => x.tag != q.tag) } }) s
  let evs := s.nl.held.filter (fun k => k.dst == d && k.vc == 2)
  let s := evs.foldl (fun s _ => dropRemote s) { s with nl := { s.nl with held := s.nl.held.filter (fun k => k.dst != d) } }
  let s := [0, 1, 2].foldl (fun s v => flowEchoed s d v) s
  let s := switchReported s d
  if s.nl.mcTarget = some d then
    mcDone s [BitVec.ofNat 32 (natBits (getReg s (Reg.NL_MC_REQ 0)).toNat 16 16 * 2 ^ 16 + St.TARGET_LOST),
      BitVec.ofNat 32 (natBits (getReg s (Reg.NL_MC_REQ 0)).toNat 0 16 * 2 ^ 16 + 0xFF00)]
  else s

/-- R354: devices are declared lost; the notice goes out on the ports given. -/
def declareLost (s : State) (mask : Nat) (notice : Nat) (ports : List Nat) : State :=
  let new := ((maskDevs mask).filter (fun d => natBits s.nl.members d 1 == 1 && natBits s.nl.lost d 1 == 0 && d != devNum s))
  if new = [] then s
  else
    let m := new.foldl (fun m d => m + 2 ^ d) 0
    let s := nlErr { s with nl := { s.nl with lost := s.nl.lost + m, answeredCand := none, probed := [] } } 4
    let s := chrono s Chr.NL_DEVICE_LOST none Fun.FABRIC m 0
    let s := ports.foldl (fun s p => sendHop s p (.loss notice)) s
    let s := new.foldl dropLost s
    let mgrGone := s.nl.acting ≠ 1 ∧ new.contains s.nl.mgr
    let s := if mgrGone then { s with nl := { s.nl with mgrReach := false, remoteFenced := true } } else s
    if s.nl.acting = 1 ∨ ((s.nl.roleOpt = 1 ∨ s.nl.acting = 2) ∧ s.nl.mgrReach = false) then startVote s else s

/-- R347, R350: a request packet that cannot go on: an error response to its source. -/
def errorTo (s : State) (k : Packet) (cause : Nat) : State := match k.body with
  | .read t _ _ => sendPkt s 1 k.src (.response t cause [])
  | .write t _ _ => sendPkt s 1 k.src (.response t cause [])
  | .atomic t _ _ _ => sendPkt s 1 k.src (.response t cause [])
  | _ => s

/-- A port is down (R343, R354): what waited on it cannot leave, and the devices behind it are lost. -/
def portDown (s : State) (p : Nat) : State :=
  let x := portOf s p
  if x.up = false then s
  else
    let s := setPort s p { x with up := false, replays := 0, out := [] }
    let s := x.out.foldl (fun s k =>
      if k.vc = 2 ∧ k.src = devNum s then dropRemote s
      else if k.vc = 0 ∧ k.src ≠ devNum s then errorTo s k Cause.ROUTE_LOST
      else s) s
    let m := lostThrough s p
    declareLost s m m (upPorts s)

end Sys2Proof.Machine
end

