-- ==== Sys2Proof/Machine/Fabric.lean ====
section
/-! DEFINITION. The Nauno fabric (chapter 20): enumeration, routes and epochs, flits and packets, remote traffic, the
management channel, heartbeats, votes. -/

namespace Sys2Proof.Machine

/-! ### Fabric jobs (R176, R349, R351, R357) -/

/-- A job of the fabric. -/
def isFabJob (x : Job) : Bool := x.code == Cmd.FAB_ENUMERATE || x.code == Cmd.FAB_EPOCH_SWITCH || x.code == Cmd.FAB_REJOIN

/-- A fabric job has started and not ended, or a switch runs. -/
def fabBusy (s : State) : Bool := s.nl.switching.isSome || (runningJobs s).any (fun p => isFabJob p.2 && p.2.arg3 == 1)

/-- Step 4 of R349: enumeration is closed: routes and membership go to every member that answered, and a switch begins. -/
def closeEnum (s : State) : State := match s.nl.enumJob with
  | none => s
  | some j =>
    let me := s.nl.dev
    let devs := me :: s.nl.answered.map (·.dev)
    let mask := devs.eraseDups.foldl (fun m d => m + 2 ^ d) 0
    let topo := (s.nl.answered.map (fun a => a.links.map (fun l => (a.dev, l.1, l.2.1, l.2.2)))).flatten
    let members := if s.nl.rejoin then s.nl.members ||| mask else mask
    let lost := if s.nl.rejoin then (maskDevs s.nl.lost).foldl (fun m d => if devs.contains d then m else m + 2 ^ d) 0 else 0
    let x := jobOf s j
    let s := setJob s j { x with arg2 := if devs.length < x.total then St.DOMAIN_SHORT else St.SUCCESS, result := devs.length }
    let s := { s with nl := { s.nl with
      enumJob := none, topo := topo, members := members, lost := lost, member := true, mgr := me, mgrReach := true,
      remoteFenced := false, idle := tableOf topo me me } }
    let s := s.nl.answered.foldl (fun s a => sendMgmt s a.dev (.routes (tableOf topo me a.dev) members lost s.nl.configured topo)) s
    managerSwitch s (some j)

/-- ENUM is sent on ports, with this device's number (R349). -/
def sendEnum (s : State) (ports : List Nat) : State :=
  ports.foldl (fun s p => sendHop s p (.enum s.nl.enumSeq s.nl.rejoin s.nl.dev p)) s

/-- A fabric job starts. -/
def startFabJob (s : State) (j : Nat) : State :=
  let x := jobOf s j
  let s := setJob s j { x with arg3 := 1 }
  if x.code = Cmd.FAB_EPOCH_SWITCH then managerSwitch s (some j)
  else
    let re := x.code == Cmd.FAB_REJOIN
    let s := { s with nl := { s.nl with
      enumJob := some j, enumSeq := s.nl.enumSeq + 1, answered := [], rejoin := re, deputySeen := false
      dev := if re then s.nl.dev else 0, configured := x.total } }
    let s := sendEnum (setJob s j { jobOf s j with done := 1 }) (upPorts s)
    if x.total ≤ 1 then closeEnum s else s

/-- A fabric job is accepted, and starts unless another runs. -/
def acceptFab (s : State) (mb total : Nat) : State := match freeJob s with
  | none => refuse s mb St.JOBS_FULL
  | some j =>
    let busy := fabBusy s
    let s := acceptJob s mb { total := total }
    if busy then s else startFabJob s j

/-- FAB_ENUMERATE (R349). -/
def execFabEnumerate (mb : Nat) (s : State) : Out :=
  .next <| match cmdReq s mb Cmd.FAB_ENUMERATE with
  | none => s
  | some r => if s.nl.acting ≠ 1 then refuse s mb St.NOT_MANAGER else acceptFab s mb (wd r 4)

/-- FAB_EPOCH_SWITCH (R351). -/
def execFabEpochSwitch (mb : Nat) (s : State) : Out :=
  .next <| match cmdReq s mb Cmd.FAB_EPOCH_SWITCH with
  | none => s
  | some _ => if s.nl.acting ≠ 1 then refuse s mb St.NOT_MANAGER else acceptFab s mb (reachable s).length

/-- FAB_REJOIN (R357). -/
def execFabRejoin (mb : Nat) (s : State) : Out :=
  .next <| match cmdReq s mb Cmd.FAB_REJOIN with
  | none => s
  | some _ =>
    if s.nl.acting ≠ 1 then refuse s mb (if s.nl.remoteFenced then St.NO_QUORUM else St.NOT_MANAGER)
    else acceptFab s mb s.nl.configured

/-- FAB_ROUTE_WRITE (R350). -/
def execFabRouteWrite (mb : Nat) (s : State) : Out :=
  .next <| match cmdReq s mb Cmd.FAB_ROUTE_WRITE with
  | none => s
  | some r =>
    if wd r 4 = devNum s then refuse s mb St.BAD_ARGUMENT
    else if fabBusy s = true then refuse s mb St.OBJECT_BUSY
    else answerOk { s with nl := { s.nl with idle := tset s.nl.idle (wd r 4) (wd r 5) } } mb []

/-- FAB_STATUS (R348, Table MB-9). -/
def execFabStatus (mb : Nat) (s : State) : Out :=
  .next <| match cmdReq s mb Cmd.FAB_STATUS with
  | none => s
  | some _ => answerOk s mb [devNum s * 2 ^ 8 + s.nl.acting, s.nl.epoch.toNat, (upPorts s).foldl (fun m p => m + 2 ^ p) 0, b2n s.nl.mgrReach]

/-! ### Enumeration (R348, R349, R357) -/

/-- A device receives ENUM: it answers each enumeration once, unless its role is alone. -/
def gotEnum (s : State) (port seq : Nat) (rejoin : Bool) (dev peerPort : Nat) : State :=
  if s.nl.roleOpt = 0 ∨ (portOf s port).up = false ∨ s.nl.enumJob.isSome ∨ s.nl.enumSeen = some seq then s
  else
    let keep := if rejoin && s.nl.member then s.nl.dev + 1 else 0
    let s := { s with nl := { s.nl with enumSeen := some seq, enumSeq := seq, enumPort := some port, rejoin := rejoin } }
    sendHop s port (.enumAnswer s.nl.roleOpt keep [] [(port, dev, peerPort)])

/-- ENUM (R349). -/
def execEnum (port seq : Nat) (rejoin : Bool) (dev peerPort : Nat) (s : State) : Out :=
  .next (gotEnum s port seq rejoin dev peerPort)

/-- The lowest device number not taken. -/
def freeNumber (s : State) : Nat :=
  let used := fun d => d == s.nl.dev || s.nl.answered.any (fun a => a.dev == d) || (s.nl.rejoin && natBits s.nl.members d 1 == 1)
  (firstFrom (fun d => !used d) 0 64).getD 63

/-- An answer reaches the manager, or passes a member on its way to it. -/
def gotEnumAnswer (s : State) (port role keep : Nat) (path : List Nat) (links : List (Nat × Nat × Nat)) : State :=
  match s.nl.enumJob with
  | none => match s.nl.enumPort with
    | some p => if s.nl.acting = 1 then s else sendHop s p (.enumAnswer role keep (port :: path) links)
    | none => s
  | some j =>
    let full := port :: path
    let x := jobOf s j
    if s.nl.answered.any (fun a => a.path == full) then s
    else if role = 1 ∧ s.nl.rejoin = false then nlErr s 1
    else if x.total ≤ s.nl.answered.length + 1 then nlErr s 2
    else
      -- a returning manager serves as the acting one's deputy
      let role := if role = 1 then 2 else role
      let s := if role = 2 ∧ s.nl.deputySeen = true then nlErr s 1 else s
      let r := if role = 2 ∧ s.nl.deputySeen = false then 2 else 3
      let kept := keep - 1
      let d := if keep ≠ 0 ∧ kept ≠ s.nl.dev ∧ s.nl.answered.any (fun a => a.dev == kept) = false then kept else freeNumber s
      let s := { s with nl := { s.nl with
        answered := s.nl.answered ++ [{ dev := d, role := r, path := full, links := links }]
        deputySeen := s.nl.deputySeen || r == 2 } }
      let s := setJob s j { x with done := s.nl.answered.length + 1 }
      let s := match full with
        | p :: ps => queueOut s p { vc := 3, src := s.nl.dev, dst := d, epoch := s.nl.epoch.toNat % 2, path := some ps, body := .number d r s.nl.configured }
        | [] => s
      if s.nl.answered.length + 1 = x.total then closeEnum s else s

/-- ENUM_ANSWER (R349). -/
def execEnumAnswer (port role keep : Nat) (path : List Nat) (links : List (Nat × Nat × Nat)) (s : State) : Out :=
  .next (gotEnumAnswer s port role keep path links)

/-- The number that the manager hands out: the device takes it, and sends ENUM on its other ports. -/
def gotNumber (s : State) (mgr dev role configured : Nat) : State :=
  let s := { s with nl := { s.nl with dev := dev, acting := role, configured := configured, mgr := mgr } }
  sendEnum s ((upPorts s).filter (fun p => some p != s.nl.enumPort))

/-- Step 5 of R349: routes, membership and the count of devices configured. -/
def gotRoutes (s : State) (mgr : Nat) (table : List (Nat × Nat)) (members lost configured : Nat) (topo : List NLink) : State :=
  { s with nl := { s.nl with
    idle := table, members := members, lost := lost, configured := configured, topo := topo, member := true, mgr := mgr
    mgrReach := true, remoteFenced := false, probing := none } }

/-! ### Epochs (R351) -/

/-- SWITCH (R351). -/
def execSwitch (s : State) : Out := .next (if s.nl.member then beginSwitch s none [] else s)

/-- DRAIN_MARKER (R351): the destination echoes it. -/
def execDrainMarker (src vc : Nat) (s : State) : Out :=
  .next (if s.nl.member && decide (vc < 3) then sendMgmt s src (.echo (devNum s) vc) else s)

/-- DRAIN_MARKER_ECHO (R351). -/
def execDrainMarkerEcho (dst vc : Nat) (s : State) : Out := .next (flowEchoed s dst vc)

/-- SWITCH_DONE_REPORT (R351). -/
def execSwitchDoneReport (dev : Nat) (s : State) : Out := .next (switchReported s dev)

/-! ### The management channel (R180, R353) -/

/-- R180: a management command takes the slot of its own. -/
def mcArrive (s : State) (words : List Word) : State :=
  let x := mboxOf s 16
  if x.st = .pending ∨ x.st = .running ∨ s.er.rmFailed = true then s
  else
    let k := s.rg.goClock + 1
    setMbox { s with rg := { s.rg with goClock := k } } 16
      { x with st := .pending, req := (words ++ List.replicate 16 0).take 16, seq := x.seq + 1, goAt := k }

/-- MANAGEMENT_COMMAND_ARRIVAL (R180, R353): a command of the acting manager. -/
def execManagementCommandArrival (words : List Word) (s : State) : Out :=
  .next (if s.nl.member && s.nl.mgrReach then mcArrive s words else s)

/-- MC_GO (R353): a write of NL_MC_CTRL. -/
def execMcGo (val : Word) (s : State) : Out :=
  .next <| hostWr s Reg.NL_MC_CTRL fun s =>
    let d := bits val 0 6
    if bit val 8 = false then s
    else if s.nl.acting ≠ 1 ∨ s.nl.mcTarget.isSome then nlErr s 3
    else
      let req := (List.range 16).map (fun i => getReg s (Reg.NL_MC_REQ i))
      let s := (List.range 16).foldl (fun s i => putReg s (Reg.NL_MC_RESP i) 0) s
      let s := setFld { s with nl := { s.nl with mcTarget := some d } } Reg.NL_MC_STATE 0 2 1
      if d = devNum s then mcArrive s req
      else if natBits s.nl.members d 1 = 0 ∨ natBits s.nl.lost d 1 = 1 then
        mcDone s [BitVec.ofNat 32 (reqTag req * 2 ^ 16 + St.TARGET_LOST), BitVec.ofNat 32 (reqCode req * 2 ^ 16 + 0xFF00)]
      else sendPkt s 3 d (.mcRequest req)

/-- MC_RESPONSE (R353). -/
def execMcResponse (words : List Word) (s : State) : Out := .next (mcDone s words)

/-! ### Loss and votes (R354, R355) -/

/-- A notice from the device behind a port: of the devices it names, those routed through that port are lost. -/
def gotLoss (s : State) (port mask : Nat) : State :=
  declareLost s (mask &&& lostThrough s port) mask ((upPorts s).filter (· != port))

/-- LOSS_NOTICE (R354). -/
def execLossNotice (port mask : Nat) (s : State) : Out := .next (gotLoss s port mask)

/-- A probe: passed on once, and answered if it is the acting manager's, or the first while no manager is reached. -/
def gotProbe (s : State) (port cand : Nat) : State :=
  if s.nl.member = false ∨ cand = devNum s then s
  else
    let s := if s.nl.probed.contains cand then s else
      ((upPorts s).filter (· != port)).foldl (fun s p => sendHop s p (.probe cand)) { s with nl := { s.nl with probed := cand :: s.nl.probed } }
    let may := s.nl.answeredCand = none ∧ (s.nl.mgrReach = true → cand = s.nl.mgr)
    if may then
      let s := { s with nl := { s.nl with answeredCand := some cand } }
      match tfind s.nl.active cand with
      | some _ => sendPkt s 3 cand (.probeAnswer cand)
      | none => queueOut s port { vc := 3, src := devNum s, dst := cand, epoch := s.nl.epoch.toNat % 2, body := .probeAnswer cand }
    else s

/-- PROBE (R355). -/
def execProbe (port cand : Nat) (s : State) : Out := .next (gotProbe s port cand)

/-- An answer to this device's probe. -/
def gotProbeAnswer (s : State) (dev cand : Nat) : State :=
  if s.nl.probing.isSome ∧ cand = devNum s ∧ s.nl.votes.contains dev = false then { s with nl := { s.nl with votes := s.nl.votes ++ [dev] } } else s

/-- PROBE_ANSWER (R355). -/
def execProbeAnswer (dev cand : Nat) (s : State) : Out := .next (gotProbeAnswer s dev cand)

/-- A candidate that has won: it acts as manager of the members that answered, with new routes and a switch. -/
def winVote (s : State) : State :=
  let me := devNum s
  let vs := s.nl.votes
  let topo := s.nl.topo.filter (fun l => vs.contains l.1 && vs.contains l.2.2.1)
  let lost := (maskDevs s.nl.members).foldl (fun m d => if vs.contains d then m else m + 2 ^ d) 0
  let s := { s with nl := { s.nl with
    acting := 1, mgr := me, mgrReach := true, remoteFenced := false, lost := lost, idle := tableOf topo me me, answered := [] } }
  let s := (vs.filter (· != me)).foldl (fun s d =>
    sendMgmt s d (.routes (tableOf topo me d) s.nl.members lost s.nl.configured s.nl.topo)) s
  managerSwitch s none

/-- QUORUM_VOTE (R355): 1 ms after the probe, the answers are counted. -/
def execQuorumVote (s : State) : Out :=
  .next <| match s.nl.probing with
  | none => s
  | some t =>
    if s.time.dev < t + 1000000 then s
    else
      let n := s.nl.votes.length
      let s := { s with nl := { s.nl with probing := none } }
      if s.nl.configured < 2 * n then (if s.nl.acting = 1 then s else winVote s)
      else if s.nl.acting = 1 then
        let s := nlErr { s with nl := { s.nl with acting := 2, mgrReach := false, remoteFenced := true } } 5
        chrono s Chr.NL_QUORUM_LOST none Fun.FABRIC n s.nl.configured
      else s

/-! ### Ports, flits and packets (R343 to R347, R350) -/

/-- FABRIC_PORT_DOWN (R343): a flit not delivered after 8 replays, or a wavelength lost. -/
def execFabricPortDown (port : Nat) (wave : Bool) (s : State) : Out :=
  .next (if wave || (portOf s port).up then portDown s port else s)

/-- FABRIC_PORT_UP (R343, R348): a port trains on its wavelengths, unless the role is alone. -/
def execFabricPortUp (port waves peer peerPort : Nat) (s : State) : Out :=
  .next <|
    let x := portOf s port
    if Config.nlPorts s.fuse.variant ≤ port ∨ s.nl.roleOpt = 0 ∨ waves = 0 ∨ 4 < waves ∨ x.up = true ∨ fnNotReady s Fun.FABRIC = true then s
    else
      let s := setPort s port { up := true, waves := waves, peer := peer % 64, peerPort := peerPort % 8, lastRx := s.time.dev, lastBeat := s.time.dev }
      if waves ≠ (if x.waves = 0 then 4 else x.waves) then chrono s Chr.NL_WAVES none Fun.FABRIC port waves else s

/-- HEARTBEAT (R354): every 100 µs, on an up port. -/
def execHeartbeat (port : Nat) (s : State) : Out :=
  .next <|
    let x := portOf s port
    if x.up = true ∧ x.lastBeat + 100000 ≤ s.time.dev then sendHop (setPort s port { x with lastBeat := s.time.dev }) port .heartbeat else s

/-- HEARTBEAT_TIMEOUT (R354): nothing received for 1 ms. -/
def execHeartbeatTimeout (port : Nat) (s : State) : Out :=
  .next (if (portOf s port).up = true ∧ (portOf s port).lastRx + 1000000 ≤ s.time.dev then portDown s port else s)

/-- CREDIT_RETURN (R344): credits of a channel return, up to the far end's buffer. -/
def execCreditReturn (port vc n : Nat) (s : State) : Out :=
  .next <|
    let x := portOf s port
    if x.up = false ∨ 4 ≤ vc then s
    else sendOut (setPort s port { x with credits := x.credits.set vc (satTo ([512, 512, 64, 32].getD vc 0) (x.credits.getD vc 0 + n)) }) port

/-- A management packet sunk by the Remontoire or firmware (Table NL-2). -/
def sinkMgmt (s : State) (port : Nat) (k : Packet) : State := match k.body with
  | .enum seq re d p => gotEnum s port seq re d p
  | .enumAnswer role keep path links => gotEnumAnswer s port role keep path links
  | .number d r c => gotNumber s k.src d r c
  | .routes t m l c topo => gotRoutes s k.src t m l c topo
  | .switch => if s.nl.member then beginSwitch s none [] else s
  | .switched => if s.nl.switching.isSome then swapBanks s else s
  | .echo d vc => flowEchoed s d vc
  | .switchDone => switchReported s k.src
  | .loss m => gotLoss s port m
  | .probe c => gotProbe s port c
  | .probeAnswer c => gotProbeAnswer s k.src c
  | .mcRequest w => if s.nl.member && s.nl.mgrReach && k.src == s.nl.mgr then mcArrive s w else s
  | .mcResponse w => mcDone s w
  | _ => s

/-- The packet stays with the device at the far end of the link it came over. -/
def oneHop : Pkt → Bool
  | .enum .. => true
  | .enumAnswer .. => true
  | .heartbeat => true
  | .loss _ => true
  | .probe _ => true
  | _ => false

/-- A packet delivered intact: passed on by its path, sunk, or put with the packets received. -/
def gotPacket (s : State) (port : Nat) (k : Packet) : State := match k.path with
  | some (p :: ps) => queueOut s p { k with path := some ps, hop := k.hop + 1 }
  | some [] => sinkMgmt s port k
  | none =>
    if oneHop k.body then sinkMgmt s port k
    else if k.dst = devNum s ∧ k.vc = 3 then sinkMgmt s port k
    else match k.body with
      | .marker _ vc =>
        if k.dst = devNum s then sendMgmt s k.src (.echo (devNum s) vc) else { s with nl := { s.nl with inbox := s.nl.inbox ++ [(port, k)] } }
      | _ => { s with nl := { s.nl with inbox := s.nl.inbox ++ [(port, k)] } }

/-- FLIT_RECEIVE (R343): a bad flit is replayed, up to 8 times; a good one completes its packet. -/
def execFlitReceive (port : Nat) (good : Bool) (pkt : Packet) (s : State) : Out :=
  .next <|
    let x := portOf s port
    if x.up = false then s
    else
      let x := { x with lastRx := s.time.dev }
      if good then gotPacket (setPort s port { x with replays := 0 }) port pkt
      else if x.replays = 8 then portDown (setPort s port x) port
      else countReg (setPort s port { x with replays := x.replays + 1 }) (Reg.NL_P_REPLAYS port) 32 1

/-- R347: a packet discarded at the hop limit. -/
def hopDrop (s : State) (k : Packet) : State :=
  let s := nlErr (countReg s Reg.NL_HOP_DROP 32 1) 0
  if k.vc = 0 then errorTo s k Cause.ROUTE_ABSENT else s

/-- PACKET_FORWARD (R345, R347, R350): the oldest packet from a port that is for another device goes on. -/
def execPacketForward (port : Nat) (s : State) : Out :=
  .next <| match s.nl.inbox.find? (fun x => x.1 == port && x.2.dst != devNum s) with
  | none => s
  | some x =>
    let k := x.2
    let s := { s with nl := { s.nl with inbox := s.nl.inbox.erase x } }
    if 63 ≤ k.hop then hopDrop s k
    else
      let bank := if k.epoch = s.nl.epoch.toNat % 2 then s.nl.active else s.nl.idle
      match tfind bank k.dst with
      | some p =>
        if (portOf s p).up then queueOut s p { k with hop := k.hop + 1 }
        else if k.vc = 0 then errorTo s k Cause.ROUTE_LOST else s
      | none => match s.nl.enumPort with
        | some p => if k.vc = 3 then queueOut s p { k with hop := k.hop + 1 } else if k.vc = 0 then errorTo s k Cause.ROUTE_ABSENT else s
        | none => if k.vc = 0 then errorTo s k Cause.ROUTE_ABSENT else s

/-! ### Remote traffic (R352, R356) -/

/-- What a request asks of memory: tag, offset, bytes, and whether it writes. -/
def reqOf : Pkt → Option (Nat × Nat × Nat × Bool)
  | .read t o n => some (t, o, n, false)
  | .write t o d => some (t, o, d.length, true)
  | .atomic t o op d => some (t, o, if op = 9 then d.length / 2 else d.length, true)
  | _ => none

/-- A request performed in this device's memory, in the shader-data class (Table CA-2), and answered. -/
def serveReq (s : State) (k : Packet) (tag off n : Nat) : State :=
  let reply := fun (s : State) d => sendPkt s 1 k.src (.response tag 0 d)
  match k.body with
  | .read _ _ _ => reply s (physRd s false false off n)
  | .write _ _ d => reply (physWr s false false off d) []
  | .atomic _ _ op d =>
    let old := physRd s false false off n
    reply (physWr s false false off (toLe (atomNew op n (leNat old) (leAt d 0 n) (leAt d n n)) n)) old
  | _ => s

/-- REMOTE_REQUEST (R336, R352, R356): the oldest request for this device's memory is performed and answered; one that
needs a back-invalidation waits for it. -/
def execRemoteRequest (s : State) : Out :=
  .next <| match s.nl.inbox.find? (fun x => x.2.dst == devNum s && x.2.vc == 0) with
  | none => s
  | some x =>
    let k := x.2
    let took : State := { s with nl := { s.nl with inbox := s.nl.inbox.erase x } }
    match reqOf k.body with
    | none => took
    | some (tag, off, n, wr) =>
      if s.nl.remoteFenced then errorTo took k Cause.ROUTE_LOST
      else if Config.memBytes s.fuse.variant < off + n then errorTo took k Cause.ROUTE_HOLE
      else match snoopLines s off n wr with
        | [] => serveReq took k tag off n
        | ls => ls.foldl sendSnoop s

/-- REMOTE_RESPONSE (R352, R354): the oldest response completes its request; one that no request awaits is discarded. -/
def execRemoteResponse (s : State) : Out :=
  .next <| match s.nl.inbox.find? (fun x => x.2.dst == devNum s && x.2.vc == 1) with
  | none => s
  | some x =>
    let s := { s with nl := { s.nl with inbox := s.nl.inbox.erase x } }
    match x.2.body with
    | .response tag st d => match s.nl.reqs.find? (fun q => q.tag == tag && q.dev == x.2.src) with
      | none => s
      | some q =>
        if st ≠ 0 then failReq s q st
        else
          let s := { s with nl := { s.nl with reqs := s.nl.reqs.filter (fun y => y.tag != tag) } }
          if q.write && !q.atomic then s
          else { s with nl := { s.nl with arrived := s.nl.arrived ++ [{ stream := q.stream, ctx := q.ctx, dev := q.dev, off := q.off, data := d }] } }
    | _ => s

end Sys2Proof.Machine
end

