-- ==== Sys2Proof/Machine/Cache.lean ====
section
/-! DEFINITION. The system cache (chapter 15): lookups, the victim cache, the directory, snoops, classes, maintenance
and errors. -/

namespace Sys2Proof.Machine

/-! ### Places (R270, R271) -/

def caSets (s : State) : Nat := Config.caSets s.fuse.variant
def setOf (s : State) (la : Nat) : Nat := la / 16 % caSets s
/-- Key of way 0 of the set of a line address. -/
def setKey (s : State) (la : Nat) : Nat := (lineSlice la * caSets s + setOf s la) * 16

def setLine (s : State) (k : Nat) (l : Line) : State := { s with ca := { s.ca with lines := tput {} s.ca.lines k l } }
def setVict (s : State) (k : Nat) (l : Line) : State := { s with ca := { s.ca with victim := tput {} s.ca.victim k l } }
def delLine (s : State) (k : Nat) : State := { s with ca := { s.ca with lines := tdel s.ca.lines k } }
def delVict (s : State) (k : Nat) : State := { s with ca := { s.ca with victim := tdel s.ca.victim k } }

/-- The next stamp of use. -/
def caStamp (s : State) : Nat × State := (s.ca.clock + 1, { s with ca := { s.ca with clock := s.ca.clock + 1 } })

def findMain (s : State) (la : Nat) (host : Bool) : Option (Nat × Line) :=
  s.ca.lines.find? (fun p => p.2.addr == la && p.2.host == host)
def findVict (s : State) (la : Nat) (host : Bool) : Option (Nat × Line) :=
  s.ca.victim.find? (fun p => p.2.addr == la && p.2.host == host)
def findDir (s : State) (la : Nat) (host : Bool) : Option (Nat × Dir) :=
  s.ca.dir.find? (fun p => p.2.addr == la && p.2.host == host)

/-- Slots of a slice's victim cache that hold lines. -/
def victSlice (s : State) (q : Nat) : List (Nat × Line) := s.ca.victim.filter (fun p => p.1 / 256 == q)
/-- The lowest free slot of a slice's victim cache. -/
def freeVict (s : State) (q : Nat) : Option Nat := firstFrom (fun i => (tfind s.ca.victim i).isNone) (256 * q) 256

/-- Memory itself takes a line's data, with its poison (R400). -/
def writeBack (s : State) (l : Line) : State :=
  let s := memStore s l.host (l.addr * 128) l.data
  if l.poison && !l.host && !s.mem.poison.contains l.addr then { s with mem := { s.mem with poison := (l.addr :: s.mem.poison).mergeSort } } else s

/-! ### Accesses (R272, R273, R276, R277) -/

/-- R273: the way in which a class allocates a line of a set: a free one of its mask, else the least recently used. -/
def pickWay (s : State) (la : Nat) (hc : Bool) : Option Nat :=
  let mask := rfld s Reg.CA_WAYS (if hc then 16 else 0) 16
  let ret := rfld s (Reg.CA_WAY_HEALTH (lineSlice la)) 0 16
  let k := setKey s la
  let ws := (List.range 16).filter (fun w => natBits mask w 1 == 1 && natBits ret w 1 == 0)
  match ws.find? (fun w => (tfind s.ca.lines (k + w)).isNone) with
  | some w => some w
  | none => ws.foldl (fun b w => match b with
    | none => some w
    | some x => if (tget ({} : Line) s.ca.lines (k + w)).used < (tget ({} : Line) s.ca.lines (k + x)).used then some w else some x) none

/-- R276: a line takes a way, and the line it displaces enters the slice's victim cache; `none` while that has no slot. -/
def placeLine (s : State) (la : Nat) (l : Line) : Option (Nat × State) :=
  (pickWay s la l.hc).bind (fun w =>
    let k := setKey s la + w
    match tfind s.ca.lines k with
    | none => some (k, setLine s k l)
    | some old => (freeVict s (lineSlice la)).map (fun v =>
      let (t, s) := caStamp s
      (k, setLine (setVict s v { old with used := t }) k l)))

/-- R277: the directory lists trains for a line that is to be written: they are told to invalidate it. -/
def tellTrains (s : State) (k : Nat) (e : Dir) : State :=
  { s with ca := { s.ca with dir := tput {} s.ca.dir k { e with invSent := e.trains } } }

/-- The write of an access to a line held, or held itself until the listed trains have acknowledged. -/
def lineWrite (s : State) (host : Bool) (a : Nat) (d : List Byte) : State :=
  match findDir s (a / 128) host with
  | some (k, e) =>
    let s := tellTrains s k e
    { s with ca := { s.ca with held := s.ca.held ++ [{ addr := a, host := host, data := d }] } }
  | none => physWr s true host a d

/-- An access that hits the line at a key of the main array. -/
def useLine (s : State) (k : Nat) (l : Line) (a : Nat) (write : Bool) (d : List Byte) : State :=
  let (t, s) := caStamp s
  let s := setLine s k { l with used := t }
  if write then
    match findDir s l.addr l.host with
    | some (j, e) =>
      let s := tellTrains s j e
      { s with ca := { s.ca with held := s.ca.held ++ [{ addr := a, host := l.host, data := d }] } }
    | none => setLine s k (linePut { l with used := t } a d)
  else s

/-- The line of an address as memory holds it. -/
def fetchLine (s : State) (la : Nat) (host hc : Bool) : Line :=
  let m := if host then s.mem.host else s.mem.dev
  { addr := la, hc := hc, host := host, poison := !host && s.mem.poison.contains la, data := memRd m (la * 128) 128 }

/-- CACHE_ACCESS (R272 to R277): an access within one line. A miss whose set or victim cache has no room waits, and so
does one that meets an EVICTING line. -/
def execCacheAccess (addr : Nat) (host hc write : Bool) (data : List Byte) (s : State) : Out :=
  .next <|
    let hc := hc || host
    let la := addr / 128
    let d := data.take (128 - addr % 128)
    if classOn s hc = false ∨ (host = true ∧ s.hl.cacheEn = false) then
      (if write then lineWrite s host addr d else s)
    else match findMain s la host with
      | some (k, l) => useLine (countReg s Reg.CA_HITS 32 1) k l addr write d
      | none => match findVict s la host with
        | some (v, l) =>
          if l.evicting then s
          else match placeLine (delVict s v) la l with
            | none => s
            | some (k, s) => useLine (countReg s Reg.CA_VICTIM_HITS 32 1) k l addr write d
        | none => match placeLine s la (fetchLine s la host hc) with
          | some (k, s) => useLine (countReg s Reg.CA_MISSES 32 1) k (tget {} s.ca.lines k) addr write d
          | none => s

/-! ### The victim cache (R276, R279) -/

/-- VICTIM_EVICTION (R276): a full victim cache evicts the line that entered least recently. -/
def execVictimEviction (slice : Nat) (s : State) : Out :=
  .next <|
    if (freeVict s slice).isSome then s
    else
      let best := (victSlice s slice).foldl (fun (b : Option (Nat × Line)) p =>
        if p.2.evicting then b else match b with
        | none => some p
        | some x => if p.2.used < x.2.used then some p else some x) none
      match best with
      | none => s
      | some (k, l) =>
        if l.host then setVict s k { l with evicting := true }
        else delVict (if l.dirty then writeBack s l else s) k

/-- R275: step 1 done and no host-coherent eviction left, the class bypasses. -/
def finishHc (s : State) : State :=
  if rbit s Reg.CA_STATUS 1 && !s.ca.victim.any (fun p => p.2.evicting) then
    setFlag (setFlag (setFlag s Reg.CA_STATUS 1 false) Reg.CA_STATUS 2 false) Reg.CA_CLASS_EN 1 false
  else s

/-- EVICTION_ACKNOWLEDGE (R276, R279): the slot is freed; dirty data not yet taken by a snoop goes to the host. -/
def execEvictionAcknowledge (slice slot : Nat) (s : State) : Out :=
  .next <|
    let k := slice * 256 + slot % 256
    match tfind s.ca.victim k with
    | none => s
    | some l =>
      if l.evicting = false then s
      else
        let s := if l.dirty && !l.data.isEmpty then memStore s true (l.addr * 128) l.data else s
        finishHc (delVict s k)

/-! ### Snoops and the directory (R277 to R280) -/

/-- A line that a snoop leaves: clean, or gone; an EVICTING one keeps its slot. -/
def snooped (l : Line) (invalidate : Bool) : Option Line :=
  if invalidate then (if l.evicting then some { l with dirty := false, data := [] } else none)
  else some { l with dirty := false }

/-- The snoop's response: dirty data goes to the host. -/
def snoopData (s : State) (l : Line) : State :=
  let s := countReg s Reg.CA_SNOOPS 32 1
  let s := { s with hl := { s.hl with readPoison := l.dirty && l.poison } }
  if l.dirty && !l.data.isEmpty then memStore s true (l.addr * 128) l.data else s

/-- HOST_SNOOP (R278, R279): answered from the main array or the victim cache; one that removes a line first has it
invalidated in the L1s, and is answered once they have acknowledged. -/
def execHostSnoop (addr : Nat) (invalidate : Bool) (s : State) : Out :=
  .next <|
    let la := addr / 128
    let dir := if invalidate then findDir s la true else none
    match dir with
    | some (k, e) => tellTrains s k e
    | none => match findMain s la true with
      | some (k, l) =>
        let s := snoopData s l
        match snooped l invalidate with
        | some l' => setLine s k l'
        | none => delLine s k
      | none => match findVict s la true with
        | some (k, l) =>
          let s := snoopData s l
          match snooped l invalidate with
          | some l' => setVict s k l'
          | none => delVict s k
        | none => countReg s Reg.CA_SNOOPS 32 1

/-- Held writes of a line that no train holds any more are performed, in order (R277). -/
def freeHeld (s : State) (la : Nat) (host : Bool) : State :=
  if (findDir s la host).isSome then s
  else
    let mine := s.ca.held.filter (fun w => w.addr / 128 == la && w.host == host)
    let s := { s with ca := { s.ca with held := s.ca.held.filter (fun w => !(w.addr / 128 == la && w.host == host)) } }
    mine.foldl (fun s w => physWr s true w.host w.addr w.data) s

/-- A directory entry after a train's bit has been cleared, or with it. -/
def putDir (s : State) (k : Nat) (e : Dir) : State :=
  if e.trains = 0 then freeHeld { s with ca := { s.ca with dir := tdel s.ca.dir k } } e.addr e.host
  else { s with ca := { s.ca with dir := tput {} s.ca.dir k e } }

/-- Bit `t` of a mask set, or cleared. -/
def maskSet (m t : Nat) : Nat := if natBits m t 1 = 1 then m else m + 2 ^ t
def maskClr (m t : Nat) : Nat := if natBits m t 1 = 1 then m - 2 ^ t else m

/-- A train's bit cleared with all that was awaited of it. -/
def clearTrain (e : Dir) (t : Nat) : Dir :=
  { e with trains := maskClr e.trains t, invSent := maskClr e.invSent t, acked := maskClr e.acked t, notice := maskClr e.notice t }

/-- L1_EVICTION_NOTICE (R280). -/
def execL1EvictionNotice (addr : Nat) (host : Bool) (train : Nat) (s : State) : Out :=
  .next <| match findDir s (addr / 128) host with
  | none => s
  | some (k, e) =>
    if natBits e.trains train 1 = 0 then s
    else if natBits e.invSent train 1 = 1 ∧ natBits e.acked train 1 = 0 then putDir s k { e with notice := maskSet e.notice train }
    else putDir s k (clearTrain e train)

/-- INVALIDATION_ACKNOWLEDGE (R277, R280): `crossed` tells that the train had sent a notice for the line before the
invalidation reached it, so that its bit stays until the notice is here too. -/
def execInvalidationAcknowledge (addr : Nat) (host : Bool) (train : Nat) (crossed : Bool) (s : State) : Out :=
  .next <| match findDir s (addr / 128) host with
  | none => s
  | some (k, e) =>
    if natBits e.invSent train 1 = 0 then s
    else if crossed ∧ natBits e.notice train 1 = 0 then putDir s k { e with acked := maskSet e.acked train }
    else putDir s k (clearTrain e train)

/-! ### Classes and ways (R273 to R275) -/

/-- Every L1 invalidated: the directory is empty and every held write is performed. -/
def dropL1s (s : State) : State :=
  let ws := s.ca.held
  ws.foldl (fun s w => physWr s true w.host w.addr w.data) { s with ca := { s.ca with dir := [], held := [] } }

/-- SD_EN_WRITE (R274). -/
def execSdEnWrite (en : Bool) (s : State) : Out :=
  .next <| hostWr s Reg.CA_CLASS_EN fun s =>
    let was := rbit s Reg.CA_CLASS_EN 0
    let s := setFlag s Reg.CA_CLASS_EN 0 en
    if was && !en then dropL1s s else s

/-- One line cleaned: written back, or given up to the host. -/
def cleanLine (s : State) (l : Line) : State := if l.dirty && !l.data.isEmpty then writeBack s l else s

/-- Lines of the main array and the victim cache that `p` picks, EVICTING ones apart. -/
def pickLines (s : State) (p : Nat → Line → Bool) (v : Nat → Line → Bool) : List Line :=
  (s.ca.lines.filter (fun x => p x.1 x.2)).map (·.2) ++ (s.ca.victim.filter (fun x => !x.2.evicting && v x.1 x.2)).map (·.2)

/-- R281: an operation on the picked lines: 1 clean, 2 invalidate, 3 both; host-coherent ones are always cleaned first. -/
def maintain (s : State) (op : Nat) (p v : Nat → Line → Bool) : State :=
  let dirtyOut := (pickLines s p v).filter (fun l => op != 2 || l.hc)
  let s := dirtyOut.foldl cleanLine s
  let act := fun (hit : Nat → Line → Bool) (t : Tbl Line) =>
    if op = 1 then t.map (fun (x : Nat × Line) => if hit x.1 x.2 && !x.2.evicting then (x.1, { x.2 with dirty := false }) else x)
    else t.filter (fun x => !(hit x.1 x.2 && !x.2.evicting))
  { s with ca := { s.ca with lines := act p s.ca.lines, victim := act v s.ca.victim } }

/-- HC_EN_WRITE (R275). -/
def execHcEnWrite (en : Bool) (s : State) : Out :=
  .next <| hostWr s Reg.CA_CLASS_EN fun s =>
    let was := rbit s Reg.CA_CLASS_EN 1
    if en then
      (if was then s else if rbit s Reg.CA_STATUS 2 then setFlag s Reg.CA_CLASS_EN 1 true else setFlag s Reg.CA_ERR 0 true)
    else if was then
      let s := maintain s 1 (fun _ l => l.hc) (fun _ l => l.hc)
      finishHc (setFlag s Reg.CA_STATUS 1 true)
    else s

/-- CA_WAYS_WRITE (R273). -/
def execCaWaysWrite (val : Word) (s : State) : Out :=
  .next <| hostWr s Reg.CA_WAYS fun s =>
    if (rbit s Reg.CA_CLASS_EN 0 && bits val 0 16 == 0) || (rbit s Reg.CA_CLASS_EN 1 && bits val 16 16 == 0) then setFlag s Reg.CA_ERR 1 true
    else retainedDirty (putReg s Reg.CA_WAYS val)

/-! ### Maintenance (R281 to R283) -/

def maintAddr (s : State) : Nat := (getReg s Reg.CA_MAINT_ADDR_LO).toNat + 2 ^ 32 * (getReg s Reg.CA_MAINT_ADDR_HI).toNat
def maintSize (s : State) : Nat := (getReg s Reg.CA_MAINT_SIZE_LO).toNat + 2 ^ 32 * (getReg s Reg.CA_MAINT_SIZE_HI).toNat

/-- A GO of an operation (R281). -/
def maintGo (s : State) (op : Nat) : State :=
  let t := rfld s Reg.CA_MAINT_CTRL 2 2
  let c := rfld s Reg.CA_MAINT_CTX 0 8
  let a := maintAddr s
  let st := (ctxOf s c).st
  if s.ca.maint.isSome then setFlag s Reg.CA_ERR 2 true
  else if op = 0 ∨ (t = 2 ∧ caSets s ≤ natBits a 8 12 ∧ natBits a 28 1 = 0) ∨ (t = 0 ∧ (st = .free ∨ st = .destroying)) then
    setFlag s Reg.CA_ERR 3 true
  else
    let m : Maint := { op := op, target := t, classes := rfld s Reg.CA_MAINT_CTRL 4 2, addr := a, size := maintSize s, ctx := c, live := st == .active }
    setFld { s with ca := { s.ca with maint := some m } } Reg.CA_MAINT_STATUS 0 20 0

/-- CLEAN, INVALIDATE and CLEAN_AND_INVALIDATE: a GO with OP 1, 2 and 3. -/
def execClean (s : State) : Out :=
  .next (hostWr s Reg.CA_MAINT_CTRL fun s => maintGo (setFld s Reg.CA_MAINT_CTRL 0 2 1) 1)
/-- INVALIDATE. -/
def execInvalidate (s : State) : Out :=
  .next (hostWr s Reg.CA_MAINT_CTRL fun s => maintGo (setFld s Reg.CA_MAINT_CTRL 0 2 2) 2)
/-- CLEAN_AND_INVALIDATE. -/
def execCleanAndInvalidate (s : State) : Out :=
  .next (hostWr s Reg.CA_MAINT_CTRL fun s => maintGo (setFld s Reg.CA_MAINT_CTRL 0 2 3) 3)

/-- What a request covers: lines by place, and addresses for the directory. -/
structure Cover where
  main : Nat → Line → Bool
  vict : Nat → Line → Bool
  addr : Nat → Bool → Bool

/-- A line is of a class of the request. -/
def inClass (m : Maint) (l : Line) : Bool := natBits m.classes (b2n l.hc) 1 == 1

/-- The cover of physical ranges: (first address, bytes, host). -/
def rangeCover (m : Maint) (rs : List (Nat × Nat × Bool)) : Cover :=
  let hit := fun (la : Nat) (host : Bool) => rs.any (fun r => r.2.2 == host && decide (0 < r.2.1) && decide (r.1 / 128 ≤ la) && decide (la ≤ (r.1 + r.2.1 - 1) / 128))
  { main := fun _ l => inClass m l && hit l.addr l.host, vict := fun _ l => inClass m l && hit l.addr l.host, addr := hit }

/-- The cover of targets 1 to 3. -/
def maintCover (s : State) (m : Maint) : Cover :=
  if m.target = 1 then rangeCover m [(m.addr % 2 ^ 63, m.size, decide (2 ^ 63 ≤ m.addr))]
  else if m.target = 2 then
    let q := natBits m.addr 0 4
    let mk := (q * caSets s + natBits m.addr 8 12) * 16 + natBits m.addr 24 4
    let vk := q * 256 + natBits m.addr 32 8
    let inV := natBits m.addr 28 1 == 1
    let la := if inV then (tfind s.ca.victim vk).map (fun l => (l.addr, l.host)) else (tfind s.ca.lines mk).map (fun l => (l.addr, l.host))
    { main := fun k l => !inV && k == mk && inClass m l, vict := fun k l => inV && k == vk && inClass m l, addr := fun a h => la == some (a, h) }
  else { main := fun _ l => inClass m l, vict := fun _ l => inClass m l, addr := fun _ h => natBits m.classes (b2n h) 1 == 1 }

/-- R282: the request acts on its lines and completes, unless a covered line is EVICTING. -/
def maintDone (s : State) (m : Maint) (c : Cover) (skipped : Nat) : State :=
  if s.ca.victim.any (fun p => p.2.evicting && c.vict p.1 p.2) then s
  else
    let s := if m.op = 1 then s else { s with ca := { s.ca with dir := s.ca.dir.filter (fun p => !(c.addr p.2.addr p.2.host && p.2.invSent == 0)) } }
    let s := maintain s m.op c.main c.vict
    let s := { s with ca := { s.ca with maint := none } }
    let s := setFld (setFlag s Reg.CA_MAINT_STATUS 30 true) Reg.CA_MAINT_STATUS 0 20 (satTo 0xFFFFF skipped)
    let s := if m.target = 3 ∧ 2 ≤ m.op ∧ natBits m.classes 1 1 = 1 ∧ rbit s Reg.CA_CLASS_EN 1 = false then setFlag s Reg.CA_STATUS 2 true else s
    if rbit s Reg.CA_MAINT_EVENT 31 then recordEv s (rfld s Reg.CA_MAINT_EVENT 0 16) (.advance (decide (0 < skipped))) else s

/-- The physical ranges of the pages of a VA target that were translated. -/
def pageRanges (s : State) (m : Maint) (pm : PageMap) : List (Nat × Nat × Bool) :=
  (accPages { va := m.addr, len := m.size, kind := 0 }).filterMap (fun p =>
    (pm.find? (fun q => q.1 == p.1)).bind (fun q =>
      let n := Nat.min (m.addr + m.size) ((p.1 + 1) * 4096) - p.2.1
      match routeOf s (q.2 + p.2.1 % 4096) with
      | .dev a => some (a, n, false)
      | .host a => some (a, n, true)
      | _ => none))

/-- MAINTENANCE_COMPLETE (R282, R283). -/
def execMaintenanceComplete (s : State) : Out :=
  .next <| match s.ca.maint with
  | none => s
  | some m =>
    if m.target ≠ 0 then maintDone s m (maintCover s m) 0
    else
      let w : Who := { stream := 60, ctx := m.ctx, eng := 0 }
      let cuts := laneAccs (pageCuts m.addr m.size 0)
      let known := cuts.filter (fun c => match pageRes s w (c.2.va / 4096) false with
        | .ok _ => true
        | _ => false)
      let use := if m.live && (ctxOf s m.ctx).st != .active then known else cuts
      match laneMem s w use with
      | .wait s => s
      | .go s pm bad => maintDone s m (rangeCover m (pageRanges s m pm)) (bad.length + (cuts.length - use.length))

/-! ### Errors (R284) -/

/-- R284: a way that has shown a second error is retired. -/
def noteWay (s : State) (q w : Nat) : State :=
  let k := q * 16 + w
  let n := tget 0 s.ca.wayErr k + 1
  let s := { s with ca := { s.ca with wayErr := tput 0 s.ca.wayErr k n } }
  if n < 2 ∨ rbit s (Reg.CA_WAY_HEALTH q) w = true then s
  else
    let s := setFlag (setFlag s (Reg.CA_WAY_HEALTH q) w true) Reg.CA_ERR 6 true
    chrono (retainedDirty s) Chr.CA_WAY_RETIRED none Fun.SYSTEM_CACHE q w

/-- A line of unknown address is lost dirty: raised device-wide. -/
def dirtyLost (s : State) (q st w : Nat) : State :=
  let s := setFlag s Reg.CA_ERR 5 true
  raiseCause (chrono s Chr.CA_TAG_DIRTY_LOST none Fun.SYSTEM_CACHE (q + st * 2 ^ 8 + w * 2 ^ 24) 0) 3

/-- CACHE_ECC_ERROR (R284, Table CA-4): `kind` 0 is a single-bit data error, 1 a double-bit one, 2 a tag parity error,
3 state copies that disagree. -/
def execCacheEccError (slice set way kind : Nat) (s : State) : Out :=
  .next <|
    let q := slice % 16
    let w := way % 16
    let k := (q * caSets s + set) * 16 + w
    let line := tfind s.ca.lines k
    let s := if kind ≤ 1 then noteScrub s 3 (k / 8192) (kind == 1) else s
    if caSets s ≤ set ∨ 3 < kind then s
    else if kind = 0 then countReg s Reg.CA_ECC_CORRECTED 32 1
    else if kind = 1 then
      noteWay (match line with
        | none => s
        | some l =>
          if l.dirty then
            let l := { l with poison := true }
            setFlag (setLine (writeBack s l) k { l with dirty := false }) Reg.CA_ERR 4 true
          else delLine (countReg s Reg.CA_ECC_REFETCH 32 1) k) q w
    else
      let dirty := kind == 3 || (line.map (·.dirty)).getD false
      let s := countReg (delLine s k) Reg.CA_TAG_PARITY 32 (if kind = 2 then 1 else 0)
      noteWay (if dirty then dirtyLost s q set w else s) q w

end Sys2Proof.Machine
end

