-- ==== Sys2Proof/Machine/Translation.lean ====
section
/-! DEFINITION. Translation (chapter 14): misses, completions, page requests, fault rings and invalidations. -/

namespace Sys2Proof.Machine

/-! ### Miss entries (R258 to R261) -/

/-- The entry open for a page of a PASID on a stream. -/
def missOf (s : State) (stream pasid page : Nat) : Option Miss :=
  s.tu.misses.find? (fun m => m.stream == stream && m.pasid == pasid && m.page == page)

/-- The misses with one entry changed, or closed where `f` answers none. -/
def updMiss (s : State) (m : Miss) (f : Miss → Option Miss) : State :=
  { s with tu := { s.tu with misses := s.tu.misses.filterMap (fun x =>
      if x.stream = m.stream ∧ x.pasid = m.pasid ∧ x.page = m.page then f x else some x) } }

/-- ACCESS of Table TU-4 for an entry. -/
def missAccess (m : Miss) : Nat :=
  if m.needR && m.needW then 3 else if m.atomic then 2 else if m.needW then 1 else 0

/-- R261: an entry fails: it closes, and its record is decided under R263. -/
def failMiss (s : State) (m : Miss) (cause : Nat) : State :=
  failJoined (updMiss s m (fun _ => none))
    { va := m.va, ctx := m.ctx, eng := m.eng, stream := m.stream, access := missAccess m, cause := cause, pasid := m.pasid,
      time := calTime s, ring := m.ring }

/-- Page requests may be made (R260). -/
def priOk (s : State) : Bool := s.hl.priEn && !s.tu.priStopped

/-- TRANSLATION_MISS (R258, R259): an access of a source is presented: a miss joins or opens its page's entry. -/
def execTranslationMiss (stream ctx va : Nat) (write atomic : Bool) (s : State) : Out :=
  .next <|
    let w : Who := { stream := stream, ctx := ctx, eng := 0 }
    let kind := if atomic then 2 else b2n write
    if ctxOf s ctx = {} ∨ (ctxOf s ctx).st = .free ∨ fnFenced s Fun.TRANSLATION = true then s
    else match pageRes s w (va / 4096) (kind != 0) with
      | .miss => openMiss s w (va / 4096) va kind
      | .wait => if (missOf s stream (ctxOf s ctx).pasid (va / 4096)).isSome then openMiss s w (va / 4096) va kind else s
      | .fail c j => takeFault s w ((va / 4096, va, kind), c, j)
      | _ => s

/-! ### Completions (R257, R259) -/

/-- R257: an entry placed in its set, replacing the one of the same range or the least recently used of 8. -/
def tlbPut (l : List TlbEnt) (e : TlbEnt) : List TlbEnt :=
  let l := l.filter (fun x => !(x.pasid == e.pasid && x.base == e.base && x.log2 == e.log2))
  let l := if (l.filter (fun x => x.set == e.set)).length < 8 then l
    else match l.find? (fun x => x.set == e.set) with
      | some v => l.erase v
      | none => l
  l ++ [e]

/-- R257: the entry that a completion makes, from the page's host-physical address: a size beyond 1 GiB is held as
the 1 GiB range with the page. -/
def tlbEntry (pasid page pageHpa log2 : Nat) (r w n : Bool) : TlbEnt :=
  let l := Nat.min 30 log2
  let base := page * 4096 / 2 ^ l * 2 ^ l
  { set := Config.tlbSet pasid (base / 2 ^ l) % 4096, pasid := pasid, base := base, log2 := l,
    hpa := pageHpa - (page * 4096 - base), r := r, w := w, n := n }

/-- An entry's accesses are served, and its translation is held in the TLB unless it may serve them only
(R258, R259 U, R265). -/
def serveMiss (s : State) (m : Miss) (hpa log2 : Nat) (r w n u : Bool) : State :=
  let l := Nat.max 12 log2
  let p := hpa / 2 ^ l * 2 ^ l + m.page * 4096 % 2 ^ l
  let s := updMiss s m (fun _ => none)
  let s := { s with tu := { s.tu with
    once := s.tu.once ++ [{ stream := m.stream, ctx := m.ctx, page := m.page, hpa := p, untranslated := u, r := r, w := w }] } }
  if u || m.inval then s
  else { s with tu := { s.tu with tlb := tlbPut s.tu.tlb (tlbEntry m.pasid m.page p l r w n) } }

/-- TRANSLATION_COMPLETION (R259, R260): `ok` false stands for UR, CA or a malformed completion; `hpa` is the
host-physical address of the range of 2^`log2` bytes that holds the page. -/
def execTranslationCompletion (stream pasid page : Nat) (ok : Bool) (hpa log2 : Nat) (r w n u : Bool) (s : State) : Out :=
  .next <| match missOf s stream pasid page with
  | none => s
  | some m =>
    if m.st ≠ .sent1 ∧ m.st ≠ .sent2 then s
    else if ok = false then failMiss (setFlag s Reg.TU_ERR 0 true) m Cause.ATS_ERROR
    else if (!m.needR || r) && (!m.needW || w) then serveMiss s m hpa log2 r w n u
    else if m.st = .sent2 then failMiss s m Cause.PERMISSION
    else if priOk s = false then failMiss s m Cause.PRI_STOPPED
    else updMiss s m (fun x => some { x with st := .needPage })

/-! ### Page requests (R260) -/

/-- Page requests outstanding. -/
def priOut (s : State) : Nat := (s.tu.misses.filter (fun m => m.st == .sentPri)).length

/-- Every entry that awaits a page request credit fails (R260, Table TU-5). -/
def stopWaiting (s : State) : State :=
  (s.tu.misses.filter (fun m => m.st == .needPage)).foldl (fun s m => failMiss s m Cause.PRI_STOPPED) s

/-- PAGE_REQUEST (R260): the oldest entry that awaits a credit sends its page request. -/
def execPageRequest (s : State) : Out :=
  .next <|
    if priOk s = false then stopWaiting s
    else match s.tu.misses.find? (fun m => m.st == .needPage) with
      | none => s
      | some m =>
        if Nat.min 512 s.hl.priAlloc ≤ priOut s then s
        else
          let s := updMiss s m (fun x => some { x with st := .sentPri })
          { s with tu := { s.tu with sent := (2, m.pasid, m.page) :: s.tu.sent } }

/-- PAGE_REQUEST_RESPONSE (R260): code 0 is Success, 1 Invalid Request, and any other Response Failure
(assumption log 32). -/
def execPageRequestResponse (stream pasid page code : Nat) (s : State) : Out :=
  .next <| match missOf s stream pasid page with
  | none => s
  | some m =>
    if m.st ≠ .sentPri then s
    else if code = 0 then
      let s := updMiss s m (fun x => some { x with st := .sent2 })
      { s with tu := { s.tu with sent := (1, m.pasid, m.page) :: s.tu.sent } }
    else if code = 1 then failMiss s m Cause.PRI_INVALID
    else
      let s := failMiss s m Cause.PRI_FAILURE
      stopWaiting { s with tu := { s.tu with priStopped := true } }

/-! ### Fault rings (R262 to R264) -/

/-- The fields of a context number that outlive its context: its fault ring's registers (R262). -/
def ringOnly (x : Ctx) : Ctx :=
  { fLog2 := x.fLog2, fIrqEn := x.fIrqEn, fHead := x.fHead, fTail := x.fTail, fOverflow := x.fOverflow, fOvf := x.fOvf }

/-- TU_FRING_OFFSET of a context. -/
def ringOffset (s : State) (c : Nat) : Nat := tget (0x02000000 + 131072 * c) s.tu.fOffset c

/-- Entries of a context's fault ring, and whether it is full. -/
def ringCap (s : State) (c : Nat) : Nat := 2 ^ (ctxOf s c).fLog2
def ringFull (s : State) (c : Nat) : Bool := decide (ringCap s c ≤ ((ctxOf s c).fTail - (ctxOf s c).fHead).toNat)

/-- R262: the lowest offset of the region at which a ring of 2^`log2` entries overlaps no other context's. -/
def placeRing (s : State) (c log2 : Nat) : Option Nat :=
  let n := 32 * 2 ^ log2
  let others := ((List.range 256).filter (· != c)).map (fun d => (ringOffset s d, 32 * ringCap s d))
  (firstFrom (fun k => others.all (fun o => decide (0x02000000 + k * n + n ≤ o.1) || decide (o.1 + o.2 ≤ 0x02000000 + k * n)))
    0 (2 ^ 25 / n)).map (fun k => 0x02000000 + k * n)

/-- Entries of every context's ring but one. -/
def otherEntries (s : State) (c : Nat) : Nat := ((List.range 256).filter (· != c)).foldl (fun a d => a + ringCap s d) 0

/-- R262: a ring takes a new size where it fits; `none` where it does not. -/
def resizeRing (s : State) (c log2 : Nat) : Option State :=
  if 1048576 < otherEntries s c + 2 ^ log2 then none
  else (placeRing s c log2).map (fun o =>
    setCtx { s with tu := { s.tu with fOffset := tput (0x02000000 + 131072 * c) s.tu.fOffset c o } } c { ctxOf s c with fLog2 := log2 })

/-- The ring is empty, and nothing of the context is parked. -/
def ringEmpty (s : State) (c : Nat) : Bool :=
  (ctxOf s c).fTail == (ctxOf s c).fHead && !s.tu.parked.any (fun r => r.ctx == c) && !s.tu.heldFail.any (fun r => r.ctx == c)

/-- R185: the ring of a new context takes its 4,096 entries where it is empty and fits (assumption log 31). -/
def defaultRing (s : State) (c : Nat) : State :=
  if (ctxOf s c).fLog2 = 12 ∨ ringEmpty s c = false then s else (resizeRing s c 12).getD s

/-- FAULT_RING_RESIZE (R262): a write of TU_FRING_CFG. -/
def execFaultRingResize (val : Word) (s : State) : Out :=
  .next <| hostWr s Reg.TU_FRING_CFG fun s =>
    let c := rfld s Reg.TU_CTX_SEL 0 8
    let n := bits val 0 4
    let s := setCtx s c { ctxOf s c with fIrqEn := bit val 4 }
    if n < 6 ∨ 14 < n then setFlag s Reg.TU_ERR 2 true
    else if ringEmpty s c = false then setFlag s Reg.TU_ERR 1 true
    else if n = (ctxOf s c).fLog2 then s
    else match resizeRing s c n with
      | some s => s
      | none => setFlag s Reg.TU_ERR 2 true

/-- Table TU-4: a record as it lies in the ring. -/
def faultBytes (r : FaultRec) : List Byte :=
  let eng := if r.stream = 60 then 0xFF else r.eng
  toLe r.va 8 ++ toLe (r.ctx * 2 ^ 24 + eng * 2 ^ 16 + r.stream * 2 ^ 10 + r.access * 2 ^ 8 + b2n r.parked * 2 ^ 7 + r.cause) 4 ++
    toLe r.pasid 4 ++ toLe r.time 8 ++ toLe r.seq.toNat 4 ++
    toLe (match r.ring with
      | some n => 2 ^ 15 + n
      | none => 0) 4

/-- R262, R264: a record written to its context's ring. -/
def writeRec (s : State) (r : FaultRec) : State :=
  let x := ctxOf s r.ctx
  let a := ringOffset s r.ctx + 32 * (x.fTail.toNat % 2 ^ x.fLog2)
  let s := physWr s true false a (faultBytes r)
  let s := setCtx s r.ctx { x with fTail := x.fTail + 1 }
  if x.fIrqEn then setFlag (setFlag s (Reg.TU_FAULT_CTX (r.ctx / 32)) (r.ctx % 32) true) Reg.TU_IRQ 0 true else s

/-- R263: the oldest failure of a context held back on a stream fails once the stream's slot is free. -/
def releaseFail (s : State) (c stream : Nat) : State :=
  if streamHeld s stream c then s
  else match s.tu.heldFail.find? (fun r => r.ctx == c && r.stream == stream) with
    | none => s
    | some r => failJoined { s with tu := { s.tu with heldFail := s.tu.heldFail.erase r } } r

/-- FAULT_RECORD_WRITE (R263): the oldest record of a context not yet written is written, or parks. -/
def execFaultRecordWrite (ctx : Nat) (s : State) : Out :=
  .next <| match s.tu.recs.find? (fun r => r.ctx == ctx) with
  | none => s
  | some r =>
    let s := { s with tu := { s.tu with recs := s.tu.recs.erase r } }
    if ringFull s ctx then
      let x := ctxOf s ctx
      setCtx { s with tu := { s.tu with parked := s.tu.parked ++ [{ r with parked := true }] } } ctx
        { x with fOverflow := true, fOvf := if x.fOvf = 0xFFFFFFFF then x.fOvf else x.fOvf + 1 }
    else releaseFail (writeRec s r) ctx r.stream

/-- R263: parked records of a context written in SEQ order while the ring has room. -/
def releaseParked (s : State) (c : Nat) : Nat → State
  | 0 => s
  | n + 1 =>
    if ringFull s c then s
    else match s.tu.parked.find? (fun r => r.ctx == c) with
      | none => s
      | some r =>
        let s := writeRec { s with tu := { s.tu with parked := s.tu.parked.erase r } } r
        releaseParked (releaseFail s c r.stream) c n

/-- FAULT_RING_HEAD_WRITE (R262, R263): a write of TU_FRING_HEAD. -/
def execFaultRingHeadWrite (val : Word) (s : State) : Out :=
  .next <| hostWr s Reg.TU_FRING_HEAD fun s =>
    let c := rfld s Reg.TU_CTX_SEL 0 8
    let x := ctxOf s c
    if ringCap s c < (x.fTail - val).toNat then setFlag s Reg.TU_ERR 3 true
    else releaseParked (setCtx s c { x with fHead := val }) c 64

/-! ### Invalidation (R265) -/

/-- Entries that overlap a range leave the TLB, translations already served once are asked for again, and
outstanding entries of the range are not cached. -/
def invalidate (s : State) (hit : Nat → Bool) (base size : Nat) : State :=
  let within := fun (a n : Nat) => decide (a < base + size) && decide (base < a + n)
  { s with tu := { s.tu with
    tlb := s.tu.tlb.filter (fun e => !(hit e.pasid && within e.base (2 ^ e.log2)))
    once := s.tu.once.filter (fun o => !(hit (ctxOf s o.ctx).pasid && within (o.page * 4096) 4096))
    misses := s.tu.misses.map (fun m => if hit m.pasid && within (m.page * 4096) 4096 && (m.st == .sent1 || m.st == .sent2) then { m with inval := true } else m) } }

/-- INVALIDATE_REQUEST (R265): every access of this model is performed whole, so the completion is sent at once. -/
def execInvalidateRequest (hasPasid : Bool) (pasid base size : Nat) (s : State) : Out :=
  .next <|
    let s := invalidate s (fun p => !hasPasid || p == pasid) base size
    countReg { s with tu := { s.tu with sent := (3, pasid, base / 4096) :: s.tu.sent } } Reg.TU_INVALIDATIONS 32 1

/-- FLUSH_ALL (R265). -/
def execFlushAll (s : State) : Out :=
  .next (hostWr s Reg.TU_CTRL fun s => invalidate s (fun _ => true) 0 (2 ^ 64))

end Sys2Proof.Machine
end

