-- ==== Sys2Proof/Machine/HostLink.lean ====
section
/-! DEFINITION. The host link (chapter 19): configuration, link state, BAR4, CXL.mem and the snoop filter, MSI-X. -/

namespace Sys2Proof.Machine

def hostUp (s : State) : Bool := rbit s Reg.HL_LINK 0
def hlErr (s : State) (b : Nat) : State := setFlag s Reg.HL_ERR b true

/-! ### Resets counted (R380, R391) -/

/-- A reset of a source takes effect: RS_CAUSE and the counters of the backup domain. -/
def countSource (s : State) (src : Nat) : State :=
  let b := s.bu.backup
  let b := { b with
    total := satTo 0xFFFFFFFF (b.total + 1)
    counts := tput 0 b.counts src (satTo 0xFFFF (tget 0 b.counts src + 1)) }
  let s := { s with bu := { s.bu with backup := b } }
  putReg s Reg.RS_CAUSE (setBits (setBit (getReg s Reg.RS_CAUSE) (15 + src) true) 0 4 src)

/-! ### Device memory as the host reaches it (R334 to R336, Table CA-2) -/

/-- The class in which the host's access to a line of device memory is looked up: that of the line hit, else shader data. -/
def hostClass (s : State) (a : Nat) : Bool := ((heldLine s a false).map (·.hc)).getD false

/-- Pieces of a byte range that lie within one line each. -/
def lineCuts (a n : Nat) : List (Nat × Nat) :=
  (linesOf a n).map (fun l =>
    let b := Nat.max a (l * 128)
    (b, Nat.min (a + n) (l * 128 + 128) - b))

/-- Bytes of device memory as the host reads them; zeros beyond its end. -/
def devRd (s : State) (a n : Nat) : List Byte :=
  (List.range n).map (fun i =>
    if a + i < Config.memBytes s.fuse.variant then physRd1 s (hostClass s (a + i)) false (a + i) else 0)

/-- The host writes bytes of device memory; those beyond its end are discarded. -/
def devWr (s : State) (a : Nat) (d : List Byte) : State :=
  let d := d.take (Config.memBytes s.fuse.variant - a)
  (lineCuts a d.length).foldl (fun s c => physWr s (hostClass s c.1) false c.1 ((d.drop (c.1 - a)).take c.2)) s

/-- R336: a write held by a snoop is performed, or waits for the next recorded line it touches. -/
def freeSnooped (s : State) (w : Nat × List Byte) : State :=
  match snoopLines s w.1 w.2.length true with
  | [] => devWr s w.1 w.2
  | l :: _ =>
    let s := sendSnoop s l
    { s with hl := { s.hl with snoops := s.hl.snoops ++ [{ line := l, write := some w }] } }

/-- A snoop of a line has ended: the line is no longer recorded, and what it held proceeds. -/
def snoopEnded (s : State) (l : Nat) : State :=
  let mine := s.hl.snoops.filter (fun b => b.line == l)
  let s := { s with hl := { s.hl with
    sf := s.hl.sf.filter (fun f => f.line != l)
    snoops := s.hl.snoops.filter (fun b => b.line != l) } }
  mine.foldl (fun s b => match b.write with
    | some w => freeSnooped s w
    | none => s) s

/-! ### Outstanding requests ended (R338) -/

/-- R338: every snoop outstanding ends at once; the writes that they held are performed. -/
def endSnoops (s : State) : State :=
  let ws := s.hl.snoops.filterMap (·.write)
  let ls := s.hl.snoops.map (·.line) ++ (ws.map (fun w => linesOf w.1 w.2.length)).flatten
  let s := { s with hl := { s.hl with snoops := [], sf := s.hl.sf.filter (fun f => !ls.contains f.line) } }
  ws.foldl (fun s w => devWr s w.1 w.2) s

/-- R338: every outstanding request on the link ends: ATS and page requests fail, evictions are discarded, and
snoops end. -/
def endHostWork (s : State) : State :=
  let s := (s.tu.misses.filter (fun m => m.st != .needPage)).foldl (fun s m => failMiss s m Cause.ATS_ERROR) s
  let s := { s with ca := { s.ca with victim := s.ca.victim.filter (fun p => !p.2.evicting) } }
  let s := endSnoops (finishHc s)
  setFld s Reg.HL_LINK 0 9 0

/-- HL_ registers at their reset values. -/
def clearHlRegs (s : State) : State := { s with regs := s.regs.filter (fun p => !(decide (p.1 / 2 ^ 20 = 17))) }

/-- R381: configuration space, BARs, MSI-X, ATS, PRI and PASID state and the TLB are cleared. -/
def clearConfig (s : State) : State :=
  let s := clearHlRegs { s with
    hl := { readData := s.hl.readData, readPoison := s.hl.readPoison, readMem := s.hl.readMem, msgs := s.hl.msgs }
    tu := { s.tu with tlb := [], once := [], priStopped := false } }
  releaseReady (setFn s Fun.HOST_LINK { fnOf s Fun.HOST_LINK with ready := false })

/-- HOT_RESET (R338, R381): ends outstanding requests and clears the state of the host link, and nothing else. -/
def execHotReset (s : State) : Out :=
  .next (countSource (clearConfig (endHostWork s)) 3)

/-- LINK_DOWN (R338): ends outstanding requests and clears nothing (R380). -/
def execLinkDown (s : State) : Out :=
  .next <|
    if hostUp s = false then s
    else chrono (hlErr (endHostWork s) 3) Chr.HL_LINK_DOWN none Fun.HOST_LINK 0 0

/-- D3HOT_ENTRY (R339): BARs are decoded no more, and the link moves to L1. -/
def execD3hotEntry (s : State) : Out := .next (if hostUp s && s.hl.cfgReady then { s with hl := { s.hl with d3 := true, l1 := true } } else s)

/-- D0_RETURN (R339): no state is lost. -/
def execD0Return (s : State) : Out := .next (if hostUp s && s.hl.cfgReady then { s with hl := { s.hl with d3 := false, l1 := false } } else s)

/-- LANE_FAIL (R339): the link retrains at x8, and the Chronograph records it. -/
def execLaneFail (lane : Nat) (s : State) : Out :=
  .next <|
    if hostUp s = false ∨ 16 ≤ lane then s
    else
      let s := hlErr (setFld (setFlag s Reg.HL_LINK (16 + lane) false) Reg.HL_LINK 4 5 8) 2
      chrono s Chr.HL_LANE_FAIL none Fun.HOST_LINK (rfld s Reg.HL_LINK 16 16) 0

/-- R275: CXL.cache is disabled: host memory is cached no more. -/
def cacheOff (s : State) : State := finishHc (maintain s 3 (fun _ l => l.host) (fun _ l => l.host))

/-- CONFIGURATION_WRITE (R330 to R334): field 0 Bus Master Enable, 1 Memory Space Enable, 2 ATS Enable, 3 PASID Enable,
4 PRI Enable, 5 Outstanding Page Request Allocation, 6 CXL.cache Enable, 7 BAR4 base, 8 BAR4 size. -/
def execConfigurationWrite (field val : Nat) (s : State) : Out :=
  .next <|
    if s.hl.cfgReady = false ∨ hostUp s = false then s
    else
      let on := val % 2 == 1
      let h := s.hl
      if field = 0 then { s with hl := { h with busMaster := on } }
      else if field = 1 then { s with hl := { h with memSpace := on } }
      else if field = 2 then { s with hl := { h with atsEn := on } }
      else if field = 3 then { s with hl := { h with pasidEn := on } }
      else if field = 4 then
        { s with hl := { h with priEn := on }, tu := { s.tu with priStopped := s.tu.priStopped && !(on && !h.priEn) } }
      else if field = 5 then { s with hl := { h with priAlloc := val % 2 ^ 32 } }
      else if field = 6 then
        (if h.cacheEn && !on then let s := cacheOff s; { s with hl := { s.hl with cacheEn := false } }
         else { s with hl := { h with cacheEn := on } })
      else if field = 7 then { s with hl := { h with bar4Base := val % 2 ^ 64 / h.bar4Size * h.bar4Size } }
      else if field = 8 ∧ (List.range 10).any (fun i => val == 2 ^ (28 + i)) = true then
        { s with hl := { h with bar4Size := val, bar4Base := h.bar4Base / val * val } }
      else s

/-! ### BAR4 (R334) -/

/-- BAR4_SLIDE_WRITE (R334). -/
def execBar4SlideWrite (val : Word) (s : State) : Out :=
  .next <| hostWr s Reg.HL_BAR4_SLIDE fun s =>
    if Config.memBytes s.fuse.variant ≤ bits val 0 10 * s.hl.bar4Size then hlErr s 0
    else setFld s Reg.HL_BAR4_SLIDE 0 10 (bits val 0 10)

/-- The value that an AtomicOp writes: kind 2 FetchAdd, 3 Swap, 4 CAS. -/
def atomicOp (kind n : Nat) (old data : List Byte) : List Byte :=
  let x := leNat old
  let y := leAt data 0 n
  toLe (if kind = 2 then (x + y) % 2 ^ (8 * n) else if kind = 3 then y else if x = y then leAt data n n else x) n

/-- BAR4_ACCESS (R334, R336): kind 0 read, 1 write, 2 FetchAdd, 3 Swap, 4 CAS. A read or AtomicOp that needs a
back-invalidation only sends it, and is made again once the response is here. -/
def execBar4Access (kind off len : Nat) (data : List Byte) (s : State) : Out :=
  .next <|
    let n := if kind = 1 then data.length else len
    let atomicOk := (n = 4 ∨ n = 8) ∧ off % n = 0
    if barsOn s = false ∨ n = 0 ∨ s.hl.bar4Size < off + n ∨ 4 < kind ∨ (2 ≤ kind ∧ ¬ atomicOk) then s
    else
      let a := off + rfld s Reg.HL_BAR4_SLIDE 0 10 * s.hl.bar4Size
      let s := if Config.memBytes s.fuse.variant < a + n then hlErr s 1 else s
      match snoopLines s a n (kind != 0) with
      | l :: ls =>
        if kind = 1 then ls.foldl sendSnoop (freeSnooped s (a, data)) else (l :: ls).foldl sendSnoop s
      | [] =>
        let old := devRd s a n
        if kind = 1 then devWr s a data
        else
          let s := { s with hl := { s.hl with readMem := old, readPoison := poisonAt s false a n != 0 } }
          if kind = 0 then s else devWr s a (atomicOp kind n old data)

/-! ### CXL.mem (R335, R336) -/

/-- The HDM ranges of two decoders overlap. -/
def hdmMeet (b1 n1 b2 n2 : Nat) : Bool := decide (b1 < b2 + n2) && decide (b2 < b1 + n1)

/-- HDM_DECODER_COMMIT (R335): a decoder commits a host-physical range onto the device range its HL_HDMd_DPA names, or
shows error-not-committed. Size 0 takes its commit back. -/
def execHdmDecoderCommit (dec base size : Nat) (s : State) : Out :=
  .next <|
    if 2 ≤ dec ∨ hostUp s = false ∨ s.hl.cfgReady = false then s
    else
      let put := fun (h : Hdm) (e : Bool) => { s with hl := { s.hl with hdm := tput {} s.hl.hdm dec h, hdmErr := tput false s.hl.hdmErr dec e } }
      let other := tget {} s.hl.hdm (1 - dec)
      let dpa := rfld s (Reg.HL_HDM_DPA dec) 0 9 * 2 ^ 28
      if size = 0 then put {} false
      else if base % 2 ^ 28 = 0 ∧ size % 2 ^ 28 = 0 ∧ dpa + size ≤ Config.memBytes s.fuse.variant ∧
          (other.committed && hdmMeet base size other.base other.size) = false then put { committed := true, base := base, size := size } false
      else put {} true

/-- A host read of a line is recorded in the snoop filter. -/
def sfRecord (s : State) (l : Nat) (modified : Bool) : State :=
  if s.hl.sf.any (fun f => f.line == l) then
    { s with hl := { s.hl with sf := s.hl.sf.map (fun f => if f.line = l then { f with modified := f.modified || modified } else f) } }
  else { s with hl := { s.hl with sf := s.hl.sf ++ [{ line := l, modified := modified }] } }

/-- CXL_MEM_ACCESS (R335, R336): the host reads or writes back one 64-byte line of device memory. A read that finds the
filter full back-invalidates the oldest line first, and one that meets a snoop of its line waits for it. -/
def execCxlMemAccess (hpa : Nat) (write modified : Bool) (data : List Byte) (s : State) : Out :=
  .next <| match hdmOf s hpa with
  | none => s
  | some (b, o) =>
    let a := (b + o) / 64 * 64
    let l := a / 128
    if hostUp s = false then s
    else if write then
      let s := devWr s a (padTo 64 data)
      { s with hl := { s.hl with sf := s.hl.sf.map (fun f => if f.line = l then { f with modified := false } else f) } }
    else if s.hl.snoops.any (fun x => x.line == l) then s
    else if 262144 ≤ s.hl.sf.length ∧ s.hl.sf.any (fun f => f.line == l) = false then
      (match s.hl.sf.head? with
      | some f => sendSnoop s f.line
      | none => s)
    else
      let s := sfRecord s l modified
      { s with hl := { s.hl with readMem := devRd s a 64, readPoison := poisonAt s false a 64 != 0 } }

/-- BACK_INVALIDATION (R336): a snoop of a recorded line is sent. -/
def execBackInvalidation (line : Nat) (s : State) : Out :=
  .next (if s.hl.sf.any (fun f => f.line == line) then sendSnoop s line else s)

/-- BACK_INVALIDATION_RESPONSE (R336): the host holds the line no more, and what waited for it proceeds. -/
def execBackInvalidationResponse (line : Nat) (s : State) : Out :=
  .next (if hostUp s && s.hl.snoops.any (fun b => b.line == line) then snoopEnded s line else s)

/-! ### MSI-X (R337, Table HL-4) -/

/-- The pending bits of a register that are enabled. -/
def pendBits (s : State) (irq en : Nat) : Bool := (getReg s irq &&& getReg s en) != 0

/-- The level of a vector: the OR of its sources, each with its enable. -/
def vecLevel (s : State) (v : Nat) : Bool :=
  if v = 0 then pendBits s Reg.RG_IRQ_MB Reg.RG_IRQ_MB_EN || pendBits s Reg.RG_IRQ_JOBS Reg.RG_IRQ_JOBS_EN
  else if v = 1 then (List.range 32).any (fun i => pendBits s (Reg.ESC_IRQ_RING i) (Reg.ESC_IRQ_EN i))
  else if v = 2 then pendBits s Reg.EV_IRQ Reg.EV_IRQ_EN
  else if v = 3 then pendBits s Reg.TU_IRQ Reg.TU_IRQ_EN
  else if v = 4 then pendBits s Reg.ER_IRQ Reg.ER_IRQ_EN || pendBits s Reg.GLOBAL_PK_EVENTS Reg.GLOBAL_PK_IRQ_EN
  else if v = 5 then pendBits s Reg.CH_IRQ Reg.CH_IRQ_EN
  else if v = 6 then pendBits s Reg.NL_ERR Reg.NL_IRQ_EN
  else if v = 7 then pendBits s Reg.HL_ERR Reg.HL_IRQ_EN
  else false

/-- The vector that a source register, pending bits or enables, belongs to. -/
def vecOfReg (off : Nat) : Option Nat :=
  if off = Reg.RG_IRQ_MB ∨ off = Reg.RG_IRQ_MB_EN ∨ off = Reg.RG_IRQ_JOBS ∨ off = Reg.RG_IRQ_JOBS_EN then some 0
  else if Reg.ESC_IRQ_RING 0 ≤ off ∧ off < Reg.ESC_IRQ_EN 32 then some 1
  else if off = Reg.EV_IRQ ∨ off = Reg.EV_IRQ_EN then some 2
  else if off = Reg.TU_IRQ ∨ off = Reg.TU_IRQ_EN then some 3
  else if off = Reg.ER_IRQ ∨ off = Reg.ER_IRQ_EN ∨ off = Reg.GLOBAL_PK_EVENTS ∨ off = Reg.GLOBAL_PK_IRQ_EN then some 4
  else if off = Reg.CH_IRQ ∨ off = Reg.CH_IRQ_EN then some 5
  else if off = Reg.NL_ERR ∨ off = Reg.NL_IRQ_EN then some 6
  else if off = Reg.HL_ERR ∨ off = Reg.HL_IRQ_EN then some 7
  else none

def vecOf (s : State) (v : Nat) : Vec := tget {} s.hl.vecs v
def setVec (s : State) (v : Nat) (x : Vec) : State := { s with hl := { s.hl with vecs := tput {} s.hl.vecs v x } }

/-- R337, R340: after a write to a source register: a level left at 1 calls for another message; a level that has
gone clears the Pending Bit. -/
def noteSource (s : State) (off : Nat) : State := match vecOfReg off with
  | none => s
  | some v =>
    let x := vecOf s v
    setVec s v (if vecLevel s v then { x with again := true } else { x with level := false, again := false, pend := false })

/-- A message of a vector is sent on the link. -/
def sendMsi (s : State) (v : Nat) : State :=
  let x := vecOf s v
  { s with hl := { s.hl with msgs := (v, x.addr, x.data) :: s.hl.msgs, l1 := false } }

/-- MSI_X_MESSAGE (R337): a level that has risen, or that a source write left at 1, sends the vector's message, or
sets its Pending Bit while it is masked. While Bus Master Enable is 0 or the link is down, it waits. -/
def execMsiXMessage (vec : Nat) (s : State) : Out :=
  .next <|
    let x := vecOf s vec
    let l := vecLevel s vec
    if 8 ≤ vec then s
    else if l = false then setVec s vec { x with level := false, again := false, pend := false }
    else if x.level = true ∧ x.again = false then s
    else if x.masked then setVec s vec { x with level := true, again := false, pend := true }
    else if s.hl.busMaster = false ∨ hostUp s = false then s
    else sendMsi (setVec s vec { x with level := true, again := false }) vec

/-- A vector is unmasked: its message is sent when its Pending Bit is set. -/
def unmask (s : State) (v : Nat) : State :=
  let x := vecOf s v
  if x.pend && vecLevel s v then
    (if s.hl.busMaster && hostUp s then sendMsi (setVec s v { x with masked := false, pend := false }) v
     else setVec s v { x with masked := false, pend := false, level := false })
  else setVec s v { x with masked := false, pend := false }

/-- VECTOR_UNMASK (R337): a write of the vector's table entry that clears its mask. -/
def execVectorUnmask (vec : Nat) (s : State) : Out :=
  .next (hostWr s (Reg.HL_MSIX (4 * vec + 3)) fun s => if vec < 8 then unmask s vec else s)

end Sys2Proof.Machine
end

