-- ==== Sys2Proof/Machine/WheelRecord.lean ====
section
/-! DEFINITION. Operation records (Table WO-2), network-pass entries (Table TR-2) and what they say of a pass's images. -/

namespace Sys2Proof.Machine

/-! ### Operation record (Table WO-2) -/

def rW0 (b : List Byte) : Nat := leAt b 0 4
def rKind (b : List Byte) : Nat := natBits (rW0 b) 0 4
def rAFmt (b : List Byte) : Nat := natBits (rW0 b) 4 4
def rWFmt (b : List Byte) : Nat := natBits (rW0 b) 8 4
def rOutFmt (b : List Byte) : Nat := natBits (rW0 b) 12 4
def rBscale (b : List Byte) : Bool := natBits (rW0 b) 16 1 == 1
def rAUnit (b : List Byte) : Bool := natBits (rW0 b) 17 1 == 1
def rRtz (b : List Byte) : Bool := natBits (rW0 b) 18 1 == 1
def rIeee (b : List Byte) : Bool := natBits (rW0 b) 19 1 == 1
def rActEn (b : List Byte) : Bool := natBits (rW0 b) 20 1 == 1
def rScaleMode (b : List Byte) : Nat := natBits (rW0 b) 21 2
def rBiasMode (b : List Byte) : Nat := natBits (rW0 b) 23 2
def rEdge (b : List Byte) : Nat := natBits (rW0 b) 25 2
def rK (b : List Byte) : Nat := leAt b 4 4
def rN (b : List Byte) : Nat := leAt b 8 4
def rFirstBlock (b : List Byte) : Nat := leAt b 0xC 2
def rBlockCount (b : List Byte) : Nat := leAt b 0xE 2
def rScale (b : List Byte) : Word := BitVec.ofNat 32 (leAt b 0x10 4)
def rBias (b : List Byte) : Word := BitVec.ofNat 32 (leAt b 0x14 4)
def rClipMin (b : List Byte) : Word := BitVec.ofNat 32 (leAt b 0x18 4)
def rClipMax (b : List Byte) : Word := BitVec.ofNat 32 (leAt b 0x1C 4)
def rScaleOff (b : List Byte) : Nat := leAt b 0x20 4
def rBiasOff (b : List Byte) : Nat := leAt b 0x24 4
def rActOff (b : List Byte) : Nat := leAt b 0x28 4
def rWscaleOff (b : List Byte) : Nat := leAt b 0x2C 4
def rKH (b : List Byte) : Nat := natBits (leAt b 0x30 4) 0 4
def rKW (b : List Byte) : Nat := natBits (leAt b 0x30 4) 4 4
def rSY (b : List Byte) : Nat := natBits (leAt b 0x30 4) 8 4
def rSX (b : List Byte) : Nat := natBits (leAt b 0x30 4) 12 4
def rDY (b : List Byte) : Nat := natBits (leAt b 0x30 4) 16 4
def rDX (b : List Byte) : Nat := natBits (leAt b 0x30 4) 20 4
def rPH (b : List Byte) : Nat := natBits (leAt b 0x30 4) 24 4
def rPW (b : List Byte) : Nat := natBits (leAt b 0x30 4) 28 4
def rCIN (b : List Byte) : Nat := leAt b 0x34 2
def rCOUT (b : List Byte) : Nat := leAt b 0x36 2
def rAApron (b : List Byte) : Nat := natBits (leAt b 0x38 4) 0 5
def rOutApron (b : List Byte) : Nat := natBits (leAt b 0x38 4) 8 5
def rAImage (b : List Byte) : Nat := leAt b 0x3A 1
def rWImage (b : List Byte) : Nat := leAt b 0x3B 1
def rOutImage (b : List Byte) : Nat := leAt b 0x3C 1
def rTY0 (b : List Byte) : Nat := leAt b 0x40 2
def rTX0 (b : List Byte) : Nat := leAt b 0x42 2
def rTSY (b : List Byte) : Nat := leAt b 0x44 1
def rTSX (b : List Byte) : Nat := leAt b 0x45 1
def rNTY (b : List Byte) : Nat := leAt b 0x46 1
def rNTX (b : List Byte) : Nat := leAt b 0x47 1
def rBY0 (b : List Byte) : Int := iload 16 true (leAt b 0x48 2)
def rBX0 (b : List Byte) : Int := iload 16 true (leAt b 0x4A 2)
def rDSY (b : List Byte) : Nat := leAt b 0x4C 1
def rDSX (b : List Byte) : Nat := leAt b 0x4D 1
def rMY (b : List Byte) : Nat := leAt b 0x4E 1
def rMX (b : List Byte) : Nat := leAt b 0x4F 1
def rWH (b : List Byte) : Nat := leAt b 0x50 1
def rWW (b : List Byte) : Nat := leAt b 0x51 1
def rCC (b : List Byte) : Nat := leAt b 0x52 2

/-! ### Network-pass entry (Table TR-2) -/

def neModel (b : List Byte) : Nat := natBits (leAt b 0 4) 0 12
def neFirst (b : List Byte) : Nat := natBits (leAt b 0 4) 12 16
def nePerTile (b : List Byte) : Bool := natBits (leAt b 0 4) 28 1 == 1
def neCount (b : List Byte) : Nat := if leAt b 4 2 = 0 then 65536 else leAt b 4 2
def neRecord (b : List Byte) : Nat := leAt b 8 8

/-- An entry keeps Table TR-2. -/
def neOk (b : List Byte) : Bool :=
  natBits (leAt b 0 4) 29 3 == 0 && leAt b 6 2 == 0 && leAt b 0x10 16 == 0 && decide (neFirst b + neCount b ≤ 65536) &&
  decide (neRecord b < 2 ^ 57) && neRecord b % 64 == 0

/-! ### What a pass's operations read and write (R109 to R111) -/

/-- The operation records that an entry of a context names, of those its model holds. -/
def neOps (s : State) (c : Nat) (e : List Byte) : List (List Byte) :=
  match tfind s.ba.models (neModel e) with
  | some m => if m.ctx = c then
      (List.range (Nat.min (neCount e) (m.ops - neFirst e))).map (fun j => (m.list.drop (128 * (neFirst e + j))).take 128) else []
  | none => []

/-- Every operation record of a pass. -/
def passOps (s : State) (c : Nat) (nets : List (List Byte)) : List (List Byte) := (nets.map (neOps s c)).flatten

/-- Images that the pass's issues write. -/
def imgsWritten (ops : List (List Byte)) : List Nat := (ops.map rOutImage).eraseDups

/-- R110: images that some issue reads beyond their stored apron. -/
def imgsNbr (imgs : List Img) (ops : List (List Byte)) : List Nat :=
  ((ops.filter (fun r => decide (Img.apron (imgs.getD (rAImage r) []) < rAApron r))).map rAImage).eraseDups

end Sys2Proof.Machine
end

