-- ==== Sys2Proof/Machine/Passes.lean ====
section
/-! DEFINITION. Render passes as a whole (R109 to R114, R119 to R123, R129 to R131, R137): their checks, shares and
claims, segments, units, rows released and completion. -/

namespace Sys2Proof.Machine

/-! ### Reads that depend on one another -/

/-- What a chain of reads answers. -/
inductive Chain where
  | wait (s : State)
  | fault (s : State)
  | ok (s : State) (bs : List (List Byte))

/-- Reads of a source in which each step names, from the bytes read so far, what is read next; all of them are read
by the state that answers. -/
def readChain (s : State) (w : Who) : List (List (List Byte) → List (Nat × Nat)) → List (Nat × Nat) → Chain
  | [], rs =>
    match prepare s w (rs.map (fun r => { va := r.1, len := r.2, kind := 0 })) with
    | .wait s => .wait s
    | .fault s _ => .fault s
    | .ok s m => .ok (dropArrived s w.stream w.ctx) (rs.map (fun r => vaRd s false m r.1 r.2))
  | f :: fs, rs =>
    match prepare s w (rs.map (fun r => { va := r.1, len := r.2, kind := 0 })) with
    | .wait s => .wait s
    | .fault s _ => .fault s
    | .ok s1 m => readChain s w fs (rs ++ f (rs.map (fun r => vaRd s1 false m r.1 r.2)))

/-! ### RENDER_PASS (R122) -/

def passOf (s : State) (id : Nat) : Option RPass := tfind s.ra.passes id
def setPass (s : State) (id : Nat) (p : RPass) : State := { s with ra := { s.ra with passes := tset s.ra.passes id p } }

/-- The tile engine's stream (Table TU-1). -/
def teWho (c e ring : Nat) : Who := { stream := 7 + e, ctx := c, eng := 16 + e, ring := some ring }
def passWho (p : RPass) : Who := teWho p.ctx p.lead p.ring

/-- R122: the body keeps Table TR-1, but for BW, which needs the grid. -/
def passBodyOk (b : List Byte) (lead : Nat) : Bool :=
  let w0 := leAt b 0x10 4
  let w1 := leAt b 0x14 4
  let natt := natBits w1 19 5
  let nnet := natBits w1 15 4
  natBits w0 30 2 != 3 && natBits w0 (16 + lead) 1 == 1 && decide (1 ≤ w0 % 2 ^ 16) && natBits w1 0 15 == 0 && decide (natt ≤ 16) && decide (nnet ≤ 8) &&
  vaOk 64 (leAt b 0x18 8) && vaOk 64 (leAt b 0x20 8) && vaOk 64 (leAt b 0x28 8) && vaOk 4096 (leAt b 0x30 8) && vaOk 64 (leAt b 0x38 8) &&
  (natt != 0 || leAt b 0x20 8 == 0) && (nnet != 0 || leAt b 0x28 8 == 0)

/-! ### Attachments (Table TR-8) -/

def atImage (b : List Byte) : Nat := leAt b 3 1
def atLoad (b : List Byte) : Nat := natBits (leAt b 0 4) 22 2
def atStore (b : List Byte) : Nat := natBits (leAt b 0 4) 20 2
def atTiled (b : List Byte) : Bool := natBits (leAt b 0 4) 18 2 == 1
def atDs (b : List Byte) : Nat := natBits (leAt b 0 4) 16 2
def atResolve (b : List Byte) : Nat := leAt b 1 1
def atOnly (b : List Byte) : Bool := natBits (leAt b 0 4) 7 1 == 1
def atPitch (b : List Byte) : Nat := leAt b 4 4
def atAddr (b : List Byte) : Nat := leAt b 8 8
def atClear (b : List Byte) : List Byte := (b.drop 0x10).take 16

/-- R136, R137: an attachment entry breaks no rule; `written` lists the images that issues write. -/
def attachOk (imgs : List Img) (written : List Nat) (b : List Byte) : Bool :=
  let i := atImage b
  let g := imgs.getD i []
  let r := imgs.getD (atResolve b) []
  decide (i < imgs.length) && natBits (leAt b 0 4) 0 7 == 0 && atLoad b != 3 && atStore b != 3 && decide (natBits (leAt b 0 4) 18 2 ≤ 1) && atDs b != 3 &&
  vaOk 64 (atAddr b) && (atAddr b != 0 || (atLoad b != 0 && atStore b == 2)) && (atTiled b || atPitch b % 64 == 0) &&
  (if atOnly b then
    decide (3 ≤ g.cls) && (g.external || written.contains i) && atLoad b == 2 && atStore b != 1 && atResolve b == 0xFF && atDs b == 0 &&
    leNat (atClear b) == 0
  else
    decide (g.cls ≤ 2) &&
    (atResolve b == 0xFF || (decide (atResolve b < imgs.length) && g.cls != 1 && r.cls == g.cls && r.samples == 1 && r.format == g.format &&
      (g.cls != 2 || (r.planes == g.planes && (List.range g.planes).all (fun k => r.planeFmt k == g.planeFmt k))))))

/-- R137: the table breaks no rule. -/
def attachTableOk (imgs : List Img) (written : List Nat) (atts : List (List Byte)) : Bool :=
  atts.all (attachOk imgs written) &&
  decide ((atts.filter (fun b => !atOnly b && (Img.cls (imgs.getD (atImage b) [])) == 1)).length ≤ 1)

/-- Consecutive records of `n` bytes. -/
def cutRecs (n : Nat) (b : List Byte) : List (List Byte) := (List.range (b.length / n)).map (fun i => (b.drop (n * i)).take n)

/-- RENDER_PASS (R105, R119, R120, R122, R123, R128, R137): its tables are read and checked by its lead engine. -/
def execRenderPass (desc : Nat) (s : State) : Out :=
  .next <| match startedDesc s desc Op.RENDER_PASS with
  | none => s
  | some d =>
    let b := d.bytes
    let lead := d.eng - 16
    let w1 := leAt b 0x14 4
    if (passOf s desc).isSome then s
    else if passBodyOk b lead = false then endDesc s desc St.BAD_RENDER_PASS
    else
      let tabs := [(leAt b 0x18 8, 64 * (natBits w1 24 8 + 1)), (leAt b 0x20 8, 32 * natBits w1 19 5), (leAt b 0x28 8, 32 * natBits w1 15 4)]
      match readChain s (teWho d.ctx lead d.ring) [] tabs with
      | .wait s => s
      | .fault s => endDesc s desc St.IN_FAULT
      | .ok s bs =>
        let imgs := cutRecs 64 (bs.getD 0 [])
        let atts := cutRecs 32 (bs.getD 1 [])
        let nets := cutRecs 32 (bs.getD 2 [])
        let tile := natBits (leAt b 0x10 4) 28 2
        let gx := Img.gx (imgs.headD [])
        let gy := Img.gy (imgs.headD [])
        let heap := leAt b 0x30 8
        let small := s.ra.bins.any (fun p => p.2.ctx == d.ctx && p.2.heap == heap && decide (p.2.heapBytes < heapMin (gx * gy)))
        if nets.all neOk = false then endDesc s desc St.BAD_RENDER_PASS
        else if imgs.all (fun i => Img.ok i tile) = false ∨ gridOk imgs = false then endDesc s desc St.BAD_IMAGE_TABLE
        else if gx < leAt b 0x10 2 then endDesc s desc St.BAD_RENDER_PASS
        else if attachTableOk imgs (imgsWritten (passOps s d.ctx nets)) atts = false then endDesc s desc St.BAD_ATTACHMENT
        else if small then refuseBin s desc St.HEAP_TOO_SMALL
        else
          let k := s.ra.clock + 1
          let p : RPass :=
            { ctx := d.ctx, ring := d.ring, lead := lead, hsr := natBits (leAt b 0x10 4) 30 2, tile := tile, mask := natBits (leAt b 0x10 4) 16 12
              bw := leAt b 0x10 2, heap := heap, spill := leAt b 0x38 8, imgs := imgs, atts := atts, nets := nets, phase := .share
              gx := gx, gy := gy, tiles := gx * gy, age := k }
          setPass { s with ra := { s.ra with clock := k } } desc p

/-! ### The end of a pass -/

/-- What a pass holds is given back: its share, its claim, its waits and its units. -/
def dropPass (s : State) (id : Nat) : State :=
  let wgs := ((s.ra.units.filter (fun u => u.2.pass == id)).map (·.2.wgs)).flatten
  let s := dropWaits (dropWgs s wgs) 3 id
  let s := { s with
    ra := { s.ra with passes := tdel s.ra.passes id, units := s.ra.units.filter (fun u => u.2.pass != id) }
    ba := { s.ba with shares := s.ba.shares.filter (fun x => x.1 != id) }
    pl := { s.pl with claims := s.pl.claims.filter (fun k => k.pass != id) } }
  releaseHeld s

/-- A pass refused before it reads its heap. -/
def refusePass (s : State) (id code : Nat) : State := endDesc (dropPass s id) id code

/-! ### Share and claim (R93, R114) -/

/-- The models that a pass's entries name, of those its context has registered. -/
def passModels (s : State) (p : RPass) : List Nat :=
  ((p.nets.map neModel).eraseDups).filter (fun i => match modelOf s i with
    | some m => m.ctx == p.ctx
    | none => false)

/-- BARREL_SHARE (R93): the pass's models are admitted, all at once; the pass goes on when all are resident. -/
def execBarrelShare (pass : Nat) (s : State) : Out :=
  .next <| match passOf s pass with
  | none => s
  | some p =>
    if p.phase ≠ .share then s
    else
      let ms := passModels s p
      let taken := s.ba.shares.any (fun x => x.1 == pass)
      let resident := ms.all (fun i => ((modelOf s i).map isResident).getD true)
      let sum := ms.foldl (fun a i => a + ((modelOf s i).map (·.blocks)).getD 0) 0
      let pinned := ((ctxModels s p.ctx).filter (fun x => x.2.pinned && !ms.contains x.1)).foldl (fun a x => a + x.2.blocks) 0
      match fenceStatus s p.ctx (16 + p.lead) with
      | some st => refusePass s pass st
      | none =>
        if taken = false ∧ (ctxOf s p.ctx).quota < sum + pinned then refusePass s pass St.QUOTA_EXCEEDED
        else if taken = false ∧ ms.any (fun i => ((modelOf s i).map (·.failed)).getD false) = true then refusePass s pass St.LOAD_FAILED
        else if taken ∧ ms.any (fun i => !(((modelOf s i).map isResident).getD true) && !s.ba.queue.any (fun a => a.model == i)) = true then
          refusePass s pass (if ms.any (fun i => ((modelOf s i).map (·.failed)).getD false) then St.LOAD_FAILED else St.QUOTA_EXCEEDED)
        else
          let s := if taken then s else
            let s := ms.foldl requestModel s
            let k := s.ba.clock + 1
            let s := { s with ba := { s.ba with clock := k, shares := s.ba.shares ++ ms.map (fun i => (pass, i)) } }
            ms.foldl (fun s i => match modelOf s i with
              | some m => setModel s i { m with recency := k }
              | none => s) s
          if resident then setPass s pass { p with phase := .claim } else s

/-- PLATE_CLAIM (R108, R111, R114). -/
def execPlateClaim (pass : Nat) (s : State) : Out :=
  .next <| match passOf s pass with
  | none => s
  | some p =>
    if p.phase ≠ .claim then s
    else
      let ops := passOps s p.ctx p.nets
      let slots := 16 * (ctxOf s p.ctx).granules.length
      match fenceStatus s p.ctx (16 + p.lead) with
      | some st => refusePass s pass st
      | none =>
        if p.imgs.any (fun b => decide (slots ≤ (Img.range b).2)) then refusePass s pass St.PLATE_RANGE
        else if ringsOk p.imgs p.bw (imgsWritten ops) (imgsNbr p.imgs ops) = false then refusePass s pass St.BAD_IMAGE_TABLE
        else
          let s := { s with pl := { s.pl with claims := s.pl.claims ++ [{ ctx := p.ctx, pass := pass, ranges := p.imgs.map Img.range }] } }
          setPass s pass { p with phase := if p.heap = 0 then .run else .open, final := decide (p.heap = 0) }

/-! ### Segments (R129 to R131) -/

/-- Target of the count of SEG_EVENT or REL_EVENT for segment `s`. -/
def segTarget (base seg : Nat) : Nat := (base + seg + 1) % 2 ^ 63

/-- R129: a segment is released; a pass whose final segment is released closes. -/
def releaseSeg (s : State) (id : Nat) (p : RPass) (next : RPhase) : State :=
  let s := recordOwn s p.ctx p.relEvent (.set false (segTarget p.relBase p.seg))
  setPass s id { p with seg := p.seg + 1, phase := if p.final then .close else next, nextUnit := 0, doneUnits := [], rastUnits := [], netUnits := [] }

/-- R131: the pass has failed after it started; it renders nothing more and drains its heap. A segment that was
being read is released. -/
def enterDrain (s : State) (id code : Nat) : State :=
  let s := noteFail s id code
  match passOf s id with
  | none => s
  | some p =>
    if p.phase = .drain ∨ p.phase = .close then s
    else if p.heap = 0 then setPass s id { p with phase := .close }
    else if p.phase = .run then releaseSeg s id p .drain
    else setPass s id { p with phase := .drain }

/-- A pass takes the fields of its heap's state block (Table TR-6); the bases and events are those of segment 0. -/
def takeBlock (p : RPass) (b : List Byte) : RPass :=
  let p := { p with final := natBits (leAt b 0x18 4) 31 1 == 1, stateTable := leAt b 0x20 8 }
  if p.seg = 0 then { p with segEvent := leAt b 0x10 2, relEvent := leAt b 0x12 2, segBase := leAt b 0 8, relBase := leAt b 8 8 } else p

/-- Units of a pass (R109). -/
def perRow (p : RPass) : Nat := ceilDiv p.gx p.bw
def unitCount (p : RPass) : Nat := perRow p * p.gy
def unitTiles (p : RPass) (u : Nat) : List Nat :=
  let r := u / perRow p
  let k := u % perRow p
  (List.range (Nat.min p.bw (p.gx - k * p.bw))).map (fun i => r * p.gx + k * p.bw + i)
/-- The unit that holds a tile. -/
def unitOf (p : RPass) (i : Nat) : Nat := i / p.gx * perRow p + i % p.gx / p.bw

/-- SEGMENT_READ (R129, R130): the next segment is taken when SEG_EVENT reaches it; a segment all of whose units have
ended is released. -/
def execSegmentRead (pass : Nat) (s : State) : Out :=
  .next <| match passOf s pass with
  | none => s
  | some p =>
    let ign := ((tfind s.esc.descs pass).map (fun d => hIgnErr d.bytes)).getD false
    if p.phase = .open ∨ p.phase = .run then
      match engineFence s (16 + p.lead) with
      | some (_, st) => enterDrain s pass st
      | none =>
        if p.phase = .run then
          if p.doneUnits.length < unitCount p then s
          else if p.heap = 0 then setPass s pass { p with phase := .close }
          else releaseSeg s pass { p with partials := if p.final then p.partials else satTo 0xFFFFFFFF (p.partials + 1) } .open
        else
          match readChain s (passWho p) [] [(p.heap, 256)] with
          | .wait s => s
          | .fault s => enterDrain s pass St.IN_FAULT
          | .ok s bs =>
            let q := takeBlock p (bs.headD [])
            let r := awaitEv s 3 pass 0 p.ctx q.segEvent (segTarget q.segBase q.seg)
            let s := setPass r.1 pass { q with final := false }
            let take (s : State) : State :=
              let s := setPass s pass { q with phase := .run }
              if q.final = false ∧ q.spill = 0 then enterDrain s pass St.SPILL_MISSING else s
            match r.2 with
            | .pending => s
            | .met => take s
            | .err => if ign then take s else enterDrain s pass St.DEPENDENCY_ERROR
            | .gone => enterDrain s pass St.BAD_EVENT
    else s

/-- HEAP_DRAIN (R131): the next segment to close is released unread; a drain whose BIN_PASS has ended with its bin
event flagged is over. -/
def execHeapDrain (pass : Nat) (s : State) : Out :=
  .next <| match passOf s pass with
  | none => s
  | some p =>
    if p.phase ≠ .drain then s
    else
      match readChain s (passWho p) [] [(p.heap, 256)] with
      | .wait s => s
      | .fault s => setPass s pass { p with phase := .close }
      | .ok s bs =>
        let q := takeBlock p (bs.headD [])
        let r := awaitEv s 3 pass 0 p.ctx q.segEvent (segTarget q.segBase q.seg)
        let e := evOf s q.segEvent
        match r.2 with
        | .pending => r.1
        | .met => releaseSeg r.1 pass q .drain
        | .gone => setPass r.1 pass { p with phase := .close }
        | .err =>
          if segTarget q.segBase q.seg ≤ e.count then releaseSeg r.1 pass q .drain
          else if s.ra.bins.any (fun b => b.2.ctx == p.ctx && b.2.heap == p.heap) then r.1
          else setPass r.1 pass { p with phase := .close }

/-! ### Units (R109, R110, R120) -/

/-- The tiles that hold a tile's eight neighbours. -/
def around (p : RPass) (i : Nat) : List Nat :=
  let ty := i / p.gx
  let tx := i % p.gx
  ([(0, 0), (0, 1), (0, 2), (1, 0), (1, 2), (2, 0), (2, 1), (2, 2)].filterMap (fun (q : Nat × Nat) =>
    if 1 ≤ ty + q.1 ∧ ty + q.1 ≤ p.gy ∧ 1 ≤ tx + q.2 ∧ tx + q.2 ≤ p.gx then some ((ty + q.1 - 1) * p.gx + (tx + q.2 - 1)) else none))

/-- R110: every reader of tile `i` of an image has finished. -/
def readersDone (p : RPass) (nbr : Bool) (i : Nat) : Bool :=
  p.doneUnits.contains (unitOf p i) && (!nbr || (around p i).all (fun k => p.netUnits.contains (unitOf p k)))

/-- R110: the buffer that tile `i` of image `k` needs is free. -/
def bufFree (p : RPass) (nbr : List Nat) (k i : Nat) : Bool :=
  let b : Img := p.imgs.getD k []
  decide (i < Img.ring b) || readersDone p (nbr.contains k) (i - Img.ring b)

/-- R120: the next unit of a pass can start: the buffers of its geometry images are free. -/
def unitReady (s : State) (p : RPass) : Bool :=
  let nbr := imgsNbr p.imgs (passOps s p.ctx p.nets)
  (unitTiles p p.nextUnit).all (fun i => (List.range p.imgs.length).all (fun k =>
    decide (3 ≤ Img.cls (p.imgs.getD k [])) || bufFree p nbr k i))

/-- UNIT_HANDOUT (R120): an engine that holds no unit takes the next unit of the oldest pass that names it and whose
next unit can start. -/
def execUnitHandout (te : Nat) (s : State) : Out :=
  .next <|
    if (tfind s.ra.units te).isSome ∨ Config.trains s.fuse.variant ≤ te ∨ fnNotReady s Fun.TILE_ENGINES = true ∨ (engineFence s (16 + te)).isSome = true then s
    else
      let c := s.ra.passes.filter (fun x => x.2.phase == .run && natBits x.2.mask te 1 == 1 && decide (x.2.nextUnit < unitCount x.2) && unitReady s x.2)
      match c.foldl (fun (b : Option (Nat × RPass)) x => match b with
          | none => some x
          | some y => if x.2.age < y.2.age then some x else some y) none with
      | none => s
      | some (id, p) =>
        let s := setPass s id { p with nextUnit := p.nextUnit + 1 }
        { s with ra := { s.ra with units := tset s.ra.units te { pass := id, unit := p.nextUnit } } }

/-! ### Rows released (R110), completion (R129) -/

/-- Units of a tile row. -/
def rowUnits (p : RPass) (r : Nat) : List Nat := (List.range (perRow p)).map (· + r * perRow p)

/-- R110: no reader needs any tile of row `r` of image `k`. -/
def rowFree (p : RPass) (nbr : List Nat) (k r : Nat) : Bool :=
  (rowUnits p r).all p.doneUnits.contains &&
  (!nbr.contains k || ((r == 0 || (rowUnits p (r - 1)).all p.netUnits.contains) &&
    (decide (p.gy ≤ r + 1) || (rowUnits p (r + 1)).all p.netUnits.contains)))

/-- Row `r` of EXTERNAL image `k` is released. -/
def releaseRow (s : State) (id : Nat) (p : RPass) (k r : Nat) : State :=
  let b : Img := p.imgs.getD k []
  recordOwn (setPass s id { p with relRows := tset p.relRows k (r + 1) }) p.ctx (Img.relEvent b) (.set false ((Img.relBase b + r + 1) % 2 ^ 63))

/-- ROW_RELEASE (R110): the next row of the first EXTERNAL image whose next row no reader needs. -/
def execRowRelease (pass : Nat) (s : State) : Out :=
  .next <| match passOf s pass with
  | none => s
  | some p =>
    if p.phase ≠ .run ∨ p.final = false then s
    else
      let nbr := imgsNbr p.imgs (passOps s p.ctx p.nets)
      match firstFrom (fun k => Img.external (p.imgs.getD k []) && decide (tget 0 p.relRows k < p.gy) && rowFree p nbr k (tget 0 p.relRows k)) 0 p.imgs.length with
      | none => s
      | some k => releaseRow s pass p k (tget 0 p.relRows k)

/-- The rows of EXTERNAL images not yet released are released as a pass ends. -/
def releaseRows (s : State) (p : RPass) : State :=
  ((List.range p.imgs.length).filter (fun k => Img.external (p.imgs.getD k []) && decide (tget 0 p.relRows k < p.gy))).foldl
    (fun s k => recordOwn s p.ctx (Img.relEvent (p.imgs.getD k [])) (.set false ((Img.relBase (p.imgs.getD k []) + p.gy) % 2 ^ 63))) s

/-- Issues of a pass that the Great Wheel holds. -/
def passIssues (s : State) (id : Nat) : Bool := s.gw.ops.any (fun o => o.2.desc.isNone && o.2.pass == id)

/-- RENDER_PASS_COMPLETE (R129): SEG_BASE and REL_BASE advance by the segments taken, the counters of Table TR-6 are
written, and the pass completes. -/
def execRenderPassComplete (pass : Nat) (s : State) : Out :=
  .next <| match passOf s pass with
  | none => s
  | some p =>
    if p.phase ≠ .close ∨ s.ra.units.any (fun u => u.2.pass == pass) = true ∨ passIssues s pass = true then s
    else
      let fin (s : State) : State := endRun (dropPass (releaseRows s p) pass) pass
      if p.heap = 0 then fin s
      else
        let w := passWho p
        withMem s w [{ va := p.heap, len := 16, kind := 1 }, { va := p.heap + 0x40, len := 12, kind := 1 }]
          (fun s m =>
            let s := vaWr s false w m p.heap (toLe (p.segBase + p.seg) 8 ++ toLe (p.relBase + p.seg) 8)
            fin (vaWr s false w m (p.heap + 0x40) (toLe p.partials 4 ++ toLe p.hsrCulled 4 ++ toLe p.quads 4)))
          (fun s _ => fin (noteFail s pass St.OUT_FAULT))

end Sys2Proof.Machine
end

