-- ==== Sys2Proof/Machine/Timing.lean ====
section
/-! DEFINITION. Studio time (R326) and frame generators (R327): boundaries, steps of calendar time, PTP, the RTC, and
the passing of time. -/

namespace Sys2Proof.Machine

/-! ### Frame generators (R327) -/

def genOf (s : State) (k : Nat) : Gen := tget {} s.mp.gens k
def setGen (s : State) (k : Nat) (g : Gen) : State := { s with mp := { s.mp with gens := tput {} s.mp.gens k g } }
def genNum (s : State) (k : Nat) : Nat := (getReg s (Reg.TM_GEN_NUM k)).toNat
def genDen (s : State) (k : Nat) : Nat := (getReg s (Reg.TM_GEN_DEN k)).toNat
def genEn (s : State) (k : Nat) : Bool := rbit s (Reg.TM_GEN_CTRL k) 31

/-- Calendar time of boundary `n`. -/
def boundaryAt (s : State) (k n : Nat) : Nat := (getReg s (Reg.TM_GEN_PHASE k)).toNat + n * genDen s k * 1000000000 / genNum s k

/-- The first boundary at or after a calendar time. -/
def firstBoundary (s : State) (k t : Nat) : Nat :=
  if genDen s k = 0 then 0 else ceilDiv ((t - (getReg s (Reg.TM_GEN_PHASE k)).toNat) * genNum s k) (genDen s k * 1000000000)

/-- A rate from 1 to `hi` Hz. -/
def rateOk (num den hi : Nat) : Bool := decide (1 ≤ den) && decide (den ≤ num) && decide (num ≤ hi * den)

/-- Generator `k` takes as its next boundary the first at or after a calendar time. -/
def aimGen (s : State) (k t : Nat) : State :=
  let n := firstBoundary s k t
  setGen s k { next := n, due := boundaryAt s k n }

/-- A calendar time carried over a step from `old` to `new`. -/
def shiftCal (old new t : Nat) : Nat := ((t : Int) - old + new).toNat

/-- R327: the generators and the frames in progress after a step from `old`. -/
def stepGens (s : State) (old new : Nat) : State :=
  let s := (List.range 8).foldl (fun s k =>
    if genEn s k && decide (0 < genNum s k) then
      aimGen s k (shiftCal old new (genOf s k).due + ceilDiv (genDen s k * 1000000000) (2 * genNum s k)) else s) s
  { s with cr := { s.cr with outs := s.cr.outs.map (fun (p : Nat × CrOut) =>
      if p.2.running then (p.1, { p.2 with began := shiftCal old new p.2.began }) else p) } }

/-- Calendar time steps (R248, R326, R327). -/
def stepTime (s : State) (new : Nat) : State :=
  let old := s.time.cal
  let s := stepGens (stepCal s new) old new
  chrono (setFlag s Reg.TM_STATUS 2 true) Chr.TIME_STEP none Fun.MEDIA old 0

/-- R320, R327: a write of TM_GENk_CTRL. -/
def execGeneratorCtrlWrite (gen : Nat) (val : Word) (s : State) : Out :=
  .next <| hostWr s (Reg.TM_GEN_CTRL gen) fun s =>
    if 8 ≤ gen then s
    else
      let out := decide (gen < 4) && rbit s (Reg.CR_OUT_CFG gen) 31
      let val := val &&& 0xC000FFFF
      if out && !bit val 31 then setFlag s Reg.MP_ERR 4 true
      else if bit val 31 && !rateOk (genNum s gen) (genDen s gen) 240 then
        setFlag (putReg s (Reg.TM_GEN_CTRL gen) (setBit val 31 (genEn s gen))) Reg.MP_ERR 5 true
      else
        let was := genEn s gen
        let s := putReg s (Reg.TM_GEN_CTRL gen) val
        if bit val 31 && !was then aimGen s gen s.time.cal else s

/-- R320: a write of TM_GENk_NUM, DEN or PHASE; one that would change the rate of a running output is ignored. -/
def genRateWrite (s : State) (k : Nat) (off : Nat) (val : Word) : State :=
  if decide (k < 4) && rbit s (Reg.CR_OUT_CFG k) 31 && off != Reg.TM_GEN_PHASE k && getReg s off != val then setFlag s Reg.MP_ERR 4 true
  else
    let s := putReg s off val
    if genEn s k && decide (0 < genNum s k) then aimGen s k s.time.cal else s

/-! ### The time block (R326) -/

def tmState (s : State) : Nat := rfld s Reg.TM_STATUS 0 2

/-- A state of Table MT-6 is entered. -/
def enterTm (s : State) (n : Nat) : State :=
  let s := setFld s Reg.TM_STATUS 0 2 n
  chrono { s with mp := { s.mp with near := 0, far := 0 } } Chr.TM_STATE none Fun.MEDIA n 0

/-- LOCKED is entered with an offset from the master. -/
def enterLocked (s : State) (offset : Int) : State :=
  let s := setFlag (enterTm s 2) Reg.TM_STATUS 3 true
  if 10000 < offset.natAbs then stepTime { s with mp := { s.mp with slew := 0 } } ((s.time.cal : Int) - offset).toNat
  else { s with mp := { s.mp with slew := -offset } }

/-- An accepted Announce. -/
def tmAnnounce (s : State) (utc : Nat) : State :=
  let s := setFld s Reg.TM_UTC 0 16 utc
  let s := { s with mp := { s.mp with announced := true } }
  if tmState s = 0 then enterTm s 1 else s

/-- A Sync whose offset from the master has been measured. -/
def tmSync (s : State) (offset : Int) : State :=
  let v := if offset < -(2 ^ 31) then -(2 ^ 31) else if 2 ^ 31 - 1 < offset then 2 ^ 31 - 1 else offset
  let s := putReg s Reg.TM_OFFSET (BitVec.ofInt 32 v)
  if tmState s = 1 then
    let k := if offset.natAbs < 1000 then s.mp.near + 1 else 0
    if 16 ≤ k then enterLocked s offset else { s with mp := { s.mp with near := k } }
  else if tmState s = 2 then
    let k := if 10000 < offset.natAbs then s.mp.far + 1 else 0
    if 4 ≤ k then enterTm s 1 else { s with mp := { s.mp with far := k, slew := -offset } }
  else if tmState s = 3 ∧ s.mp.announced then enterLocked s offset
  else s

/-- PTP_MESSAGE (R326): an Announce (`kind` 0), `accepted` telling what the BMCA decides of it, or a Sync (`kind` 1)
with the offset measured. -/
def execPtpMessage (port domain kind : Nat) (accepted : Bool) (offset : Int) (utc : Nat) (s : State) : Out :=
  .next <|
    if rbit s Reg.TM_CFG 31 = false ∨ rfld s Reg.TM_CFG 24 2 ≠ port ∨ rfld s Reg.TM_CFG 16 8 ≠ domain ∨ rbit s (Reg.MP_P_STATUS port) 0 = false then s
    else if kind = 0 then (if accepted then tmAnnounce s utc else s)
    else if kind = 1 then tmSync s offset
    else s

/-- ANNOUNCE_TIMEOUT (R326): LOCKED time goes to HOLDOVER. -/
def execAnnounceTimeout (s : State) : Out :=
  .next <| if tmState s = 2 then
      let s := enterTm s 3
      { s with mp := { s.mp with heldAt := s.time.dev, announced := false, slew := 0 } }
    else s

/-- HOLDOVER_EXPIRY (R326). -/
def execHoldoverExpiry (s : State) : Out :=
  .next <| if tmState s = 3 ∧ s.mp.heldAt + rfld s Reg.TM_CFG 0 16 * 1000000000 ≤ s.time.dev then setFlag (enterTm s 0) Reg.TM_STATUS 3 false else s

/-- The RTC set to a calendar time (R393). -/
def setRtc (s : State) (cal : Nat) : State :=
  { s with bu := { s.bu with backup := { s.bu.backup with
      rtcNs := cal } } }

/-- RTC_UPDATE (R326): each second while LOCKED. -/
def execRtcUpdate (s : State) : Out :=
  .next <| if tmState s = 2 ∧ isDue s 6 1000000000 then setRtc (markDone s 6) s.time.cal else s

/-! ### The passing of time -/

/-- One nanosecond: the timebase, calendar time and the RTC advance, and a slew of at most 50 ppm is worked off (R326). -/
def tick (s : State) : State :=
  let d := s.time.dev + 1
  let due := d % 20000 == 0
  let adj : Int := if due && decide (0 < s.mp.slew) then 1 else if due && decide (s.mp.slew < 0) then -1 else 0
  { s with
    time := { s.time with dev := d, cal := ((s.time.cal : Int) + 1 + adj).toNat }
    mp := { s.mp with slew := s.mp.slew - adj }
    bu := { s.bu with backup := { s.bu.backup with rtcNs := s.bu.backup.rtcNs + 1 } } }

end Sys2Proof.Machine
end

