-- ==== Sys2Proof/Machine/Crystal.lean ====
section
/-! DEFINITION. The Crystal (chapter 17): layer slots, layer updates, commits, latches and frame boundaries. -/

namespace Sys2Proof.Machine

/-! ### Layer records (Table CR-2) -/

def lyEn (b : List Byte) : Bool := natBits (leAt b 0 4) 31 1 == 1
def lyMatrix (b : List Byte) : Bool := natBits (leAt b 0 4) 30 1 == 1
def lyAlpha (b : List Byte) : Nat := natBits (leAt b 0 4) 28 2
def lyPlate (b : List Byte) : Bool := natBits (leAt b 0 4) 27 1 == 1
def lyTiled (b : List Byte) : Bool := natBits (leAt b 0 4) 26 1 == 1
def lyBilinear (b : List Byte) : Bool := natBits (leAt b 0 4) 25 1 == 1
def lyOut (b : List Byte) : Nat := natBits (leAt b 0 4) 20 2
def lyZ (b : List Byte) : Nat := natBits (leAt b 0 4) 16 4
def lyFmt (b : List Byte) : Nat := natBits (leAt b 0 4) 8 8
def lySlot (b : List Byte) : Nat := natBits (leAt b 0 4) 0 6
def lyL (b : List Byte) : Nat := leAt b 4 2
def lySrcW (b : List Byte) : Nat := leAt b 8 2
def lySrcH (b : List Byte) : Nat := leAt b 0xA 2
def lyPitch (b : List Byte) : Nat := leAt b 0xC 4
def lyAddr (b : List Byte) : Nat := leAt b 0x10 8
def lyCropX (b : List Byte) : Nat := leAt b 0x18 2
def lyCropY (b : List Byte) : Nat := leAt b 0x1A 2
def lyCropW (b : List Byte) : Nat := leAt b 0x1C 2
def lyCropH (b : List Byte) : Nat := leAt b 0x1E 2
def lyDstX (b : List Byte) : Nat := leAt b 0x20 2
def lyDstY (b : List Byte) : Nat := leAt b 0x22 2
def lyDstW (b : List Byte) : Nat := leAt b 0x24 2
def lyDstH (b : List Byte) : Nat := leAt b 0x26 2
/-- Element `c` of row `r` of the colour matrix; column 3 is the offset. -/
def lyM (b : List Byte) (r c : Nat) : Word := BitVec.ofNat 32 (leAt b (0x30 + 16 * r + 4 * c) 4)

/-- Reserved bits and bytes of an enabled record are zero. -/
def lyReserved (b : List Byte) : Bool :=
  natBits (leAt b 0 4) 22 3 == 0 && natBits (leAt b 0 4) 6 2 == 0 && leAt b 6 2 == 0 && leAt b 0x28 8 == 0 && leAt b 0x60 32 == 0

/-- One axis of the scale rule of R305. -/
def scaleOk (crop dst : Nat) : Bool := decide (1 ≤ crop) && decide (1 ≤ dst) && decide (crop ≤ 4 * dst) && decide (dst ≤ 4 * crop)

/-- R305: rules of an enabled record of its own. -/
def lyOk (s : State) (b : List Byte) : Bool :=
  lyAlpha b != 3 && decide (lyOut b < Config.crOutputs s.fuse.variant) && [0x03, 0x04, 0x05, 0x06, 0x08, 0x0B].contains (lyFmt b) &&
  decide (1 ≤ lySrcW b) && decide (lySrcW b ≤ 16384) && decide (1 ≤ lySrcH b) && decide (lySrcH b ≤ 16384) &&
  decide (lyCropX b + lyCropW b ≤ lySrcW b) && decide (lyCropY b + lyCropH b ≤ lySrcH b) && scaleOk (lyCropW b) (lyDstW b) && scaleOk (lyCropH b) (lyDstH b) &&
  vaOk 64 (lyAddr b) && (if lyPlate b || lyTiled b then lyPitch b == 0 else lyPitch b % 64 == 0) &&
  (List.range 12).all (fun i => isFin (dec32 (lyM b (i / 4) (i % 4))))

/-- R305: the image table entry of a Plate source. -/
def lyEntryOk (s : State) (c : Nat) (b e : List Byte) : Bool :=
  let i : Img := e
  i.cls == 0 && i.samples == 1 && i.apron == 0 && !i.external && (i.ringTiles == 0 || i.ringTiles == i.tilesOf) &&
  i.frameW == lySrcW b && i.frameH == lySrcH b && i.format == lyFmt b && decide (i.range.2 < 16 * (ctxOf s c).granules.length)

/-! ### Slots and outputs -/

def slotOf (s : State) (i : Nat) : CrSlot := tget {} s.cr.slots i
def setSlot (s : State) (i : Nat) (x : CrSlot) : State := { s with cr := { s.cr with slots := tput {} s.cr.slots i x } }
def outOf (s : State) (o : Nat) : CrOut := tget {} s.cr.outs o
def setOut (s : State) (o : Nat) (x : CrOut) : State := { s with cr := { s.cr with outs := tput {} s.cr.outs o x } }
def slotOwned (s : State) (c i : Nat) : Bool := rbit s (Reg.CR_SLOT i) 31 && rfld s (Reg.CR_SLOT i) 16 8 == c
def outOwned (s : State) (c o : Nat) : Bool := rbit s (Reg.CR_OUT_CFG o) 30 && rfld s (Reg.CR_OUT_CFG o) 22 8 == c
def outEn (s : State) (o : Nat) : Bool := rbit s (Reg.CR_OUT_CFG o) 31
def outW (s : State) (o : Nat) : Nat := rfld s (Reg.CR_OUT_SIZE o) 0 13
def outH (s : State) (o : Nat) : Nat := rfld s (Reg.CR_OUT_SIZE o) 16 13
/-- Layers active on an output. -/
def layersOn (s : State) (o : Nat) : List Layer :=
  s.cr.slots.filterMap (fun p => if p.2.out = o then p.2.active else none)
/-- Frames sent since EN was set. -/
def frameNo (s : State) (o : Nat) : Nat := getWide s (Reg.CR_OUT_FRAME_LO o)

/-- CR_SLOT_WRITE (R303): a write of CR_SLOTs. -/
def execCrSlotWrite (slot : Nat) (val : Word) (s : State) : Out :=
  .next <| hostWr s (Reg.CR_SLOT slot) fun s =>
    if 64 ≤ slot then s
    else if (slotOf s slot).active.isSome ∨ (slotOf s slot).shadow.isSome then setFlag s Reg.CR_ERR 1 true
    else putReg s (Reg.CR_SLOT slot) (val &&& 0x80FF0000)

/-! ### LAYER_UPDATE (R304, R305) -/

/-- The first failing check of a record, with the entry read for it. -/
def lyFault (s : State) (c : Nat) (b e : List Byte) : Option Nat :=
  if slotOwned s c (lySlot b) = false then some St.NOT_OWNER
  else if lyEn b = false then none
  else if lyReserved b = false then some St.BAD_OPERAND
  else if lyOk s b = false then some St.BAD_LAYER
  else if lyPlate b ∧ lyEntryOk s c b e = false then some St.BAD_LAYER
  else none

/-- A record that passed is written to its slot's shadow state. -/
def applyLayer (s : State) (c : Nat) (x : List Byte × List Byte) : State :=
  let i := lySlot x.1
  setSlot s i { slotOf s i with shadow := if lyEn x.1 then some { bytes := x.1, entry := x.2, ctx := c } else none }

/-- The entry of a Plate source is read only for an enabled record that passes the checks before it. -/
def wantsEntry (s : State) (c : Nat) (b : List Byte) : Bool :=
  slotOwned s c (lySlot b) && lyEn b && lyPlate b && lyReserved b && lyOk s b

/-- LAYER_UPDATE (R304, R305). -/
def execLayerUpdate (desc : Nat) (s : State) : Out :=
  .next <| match startedDesc s desc Op.LAYER_UPDATE with
  | none => s
  | some d =>
    let n := natBits (leAt d.bytes 0x10 4) 0 7
    let va := leAt d.bytes 0x18 8
    if leAt d.bytes 0x10 8 ≠ n ∨ leAt d.bytes 0x20 32 ≠ 0 ∨ n = 0 ∨ 64 < n ∨ vaOk 64 va = false then endDesc s desc St.BAD_OPERAND
    else
      let w : Who := { stream := 52, ctx := d.ctx, eng := 4, ring := some d.ring }
      let entries (bs : List (List Byte)) : List (Nat × Nat) :=
        ((cutRecs 128 (bs.getD 0 [])).filter (wantsEntry s d.ctx)).map (fun b => (lyAddr b, 64))
      match readChain s w [entries] [(va, 128 * n)] with
      | .wait s => s
      | .fault s => endDesc s desc St.IN_FAULT
      | .ok s bs =>
        let recs := cutRecs 128 (bs.getD 0 [])
        let pair (a : List (List Byte × List Byte) × List (List Byte)) (b : List Byte) : List (List Byte × List Byte) × List (List Byte) :=
          if wantsEntry s d.ctx b then (a.1 ++ [(b, a.2.headD [])], a.2.drop 1) else (a.1 ++ [(b, [])], a.2)
        let xs := (recs.foldl pair ([], bs.drop 1)).1
        match xs.findSome? (fun x => lyFault s d.ctx x.1 x.2) with
        | some c => endDesc s desc c
        | none => endDesc (xs.foldl (fun s x => applyLayer s d.ctx x) s) desc St.SUCCESS

/-! ### COMMIT (R306, R308) -/

/-- Table CR-3. -/
def commitRec (o : Nat) (q : CrDue) : List Byte :=
  toLe (q.status + o * 2 ^ 16 + q.layers * 2 ^ 24) 4 ++ toLe q.uf 4 ++ toLe q.frame 8 ++ toLe q.boundary 8 ++ toLe 0 8

/-- A COMMIT ends: its record, where it names one, and its completion. -/
def endCommit (s : State) (o : Nat) (q : CrDue) : State :=
  match tfind s.esc.descs q.desc with
  | none => s
  | some d =>
    let a := leAt d.bytes 0x18 8
    let st := (fenceStatus s d.ctx d.eng).getD q.status
    endDesc (setDesc s q.desc { d with record := if a = 0 ∨ vaOk 32 a = false then none else some (a, commitRec o { q with status := st }) }) q.desc st

/-- A COMMIT that is not shown: no frame shows its state, so the record's FRAME and BOUNDARY are open values
(assumption log 3). -/
def failDue (s : State) (o desc status : Nat) : CrDue :=
  { desc := desc, status := status, frame := Config.openVal 11 [desc, o] % 2 ^ 64, boundary := Config.openVal 12 [desc, o] % 2 ^ 64
    uf := (outOf s o).ufLast, layers := (layersOn s o).length }

/-- Calendar time of the latch for the next boundary of an output. -/
def latchTime (s : State) (o : Nat) : Nat := (genOf s o).due - Nat.max 1 (rfld s (Reg.CR_OUT_CFG o) 14 8) * 10000

/-- COMMIT (R303, R306): arms the output; one armed at or after a latch waits for the next. -/
def execCommit (desc : Nat) (s : State) : Out :=
  .next <| match startedDesc s desc Op.COMMIT with
  | none => s
  | some d =>
    let o := natBits (leAt d.bytes 0x10 4) 0 2
    let x := outOf s o
    if x.armed.any (fun a => a.desc == desc) ∨ x.taken.contains desc = true ∨ x.due.any (fun q => q.desc == desc) = true then s
    else if leAt d.bytes 0x10 8 ≠ o ∨ leAt d.bytes 0x20 32 ≠ 0 ∨ vaOk 32 (leAt d.bytes 0x18 8) = false then endCommit s o (failDue s o desc St.BAD_OPERAND)
    else if Config.crOutputs s.fuse.variant ≤ o ∨ outOwned s d.ctx o = false then endCommit s o (failDue s o desc St.NOT_OWNER)
    else if outEn s o = false then endCommit s o (failDue s o desc St.OUTPUT_OFF)
    else
      let n := (genOf s o).next
      let late := decide (latchTime s o ≤ s.time.cal) || x.latched == some n
      let s := if late then countReg s (Reg.CR_OUT_MISSED o) 32 1 else s
      setOut s o { x with armed := x.armed ++ [{ desc := desc, first := if late then n + 1 else n }] }

/-! ### LATCH (R307, R314) -/

/-- Shadow changes of a slot are taken: its owner is neither fenced nor being destroyed. -/
def slotLive (s : State) (i : Nat) : Bool :=
  !(slotOf s i).dying && (ctxOf s (rfld s (Reg.CR_SLOT i) 16 8)).st == .active

/-- The slot after steps 1 to 3 of a latch of output `o`. -/
def latchSlot (s : State) (o i : Nat) (x : CrSlot) : CrSlot :=
  if slotLive s i = false then x
  else match x.shadow with
    | none => if x.active.isSome ∧ x.out = o then { x with active := none, move := false } else x
    | some l =>
      if lyOut l.bytes = o then
        if x.active.isSome ∧ x.out ≠ o then { x with move := true } else { x with active := some l, out := o, move := false }
      else if x.active.isSome ∧ x.out = o then { x with active := none } else x

/-- R307: the set of layers on an output keeps its rules. -/
def setOk (w h : Nat) (ls : List Layer) : Bool :=
  decide (ls.length ≤ 16) && decide ((ls.map (fun l => lyZ l.bytes)).Nodup) &&
  ls.all (fun l => decide (lyDstX l.bytes + lyDstW l.bytes ≤ w) && decide (lyDstY l.bytes + lyDstH l.bytes ≤ h))

/-- Steps 1 to 3 of a latch. -/
def latchSlots (s : State) (o : Nat) : State :=
  (List.range 64).foldl (fun s i => setSlot s i (latchSlot s o i (slotOf s i))) s

/-- The latch of output `o` for its next boundary. -/
def latchOut (s : State) (o : Nat) : State :=
  let n := (genOf s o).next
  let x := outOf s o
  let now := x.armed.filter (fun a => decide (a.first ≤ n))
  let s := setOut s o { x with armed := x.armed.filter (fun a => decide (n < a.first)), latched := some n }
  let fenced (a : Armed) : Option Nat := (tfind s.esc.descs a.desc).bind (fun d => fenceStatus s d.ctx d.eng)
  let live := now.filter (fun a => (fenced a).isNone)
  let s := now.foldl (fun s a => match fenced a with
    | some st => endCommit s o (failDue s o a.desc st)
    | none => s) s
  if live = [] then s
  else
    let t := latchSlots s o
    if setOk (outW s o) (outH s o) (layersOn t o) then setOut t o { outOf t o with taken := live.map (·.desc) }
    else setOut s o { outOf s o with due := (outOf s o).due ++ live.map (fun a => failDue s o a.desc St.BAD_LAYER_SET) }

/-- LATCH (R306, R307, R314): at LEAD × 10 µs before the output's next boundary. -/
def execLatch (output : Nat) (s : State) : Out :=
  .next <|
    if Config.crOutputs s.fuse.variant ≤ output ∨ outEn s output = false ∨ genEn s output = false ∨ s.time.cal < latchTime s output ∨
      (outOf s output).latched = some (genOf s output).next then s
    else latchOut s output

/-- COMMIT_COMPLETE (R308): the first commit that is to complete, in arming order. -/
def execCommitComplete (output : Nat) (s : State) : Out :=
  .next <| match (outOf s output).due with
  | [] => s
  | q :: qs => endCommit (setOut s output { outOf s output with due := qs }) output q

/-! ### CTX_DESTROY at the Crystal (R314) -/

/-- Stage 3: the context's slots are disabled and its outputs lose their owner. -/
def crDestroy (s : State) (c : Nat) : State :=
  let s := (List.range 64).foldl (fun s i =>
    if slotOwned s c i then
      let x := slotOf s i
      let on := x.active.isSome && (outOf s x.out).running
      setSlot s i { x with shadow := none, move := false, active := if on then x.active else none, dying := on }
    else s) s
  (List.range 4).foldl (fun s o => if outOwned s c o then setFlag s (Reg.CR_OUT_CFG o) 30 false else s) s

/-- Slots of the context still wait for a boundary. -/
def crWaits (s : State) (c : Nat) : Bool := (List.range 64).any (fun i => slotOwned s c i && (slotOf s i).dying)

/-- Ownership of the context's slots ends. -/
def crRelease (s : State) (c : Nat) : State :=
  (List.range 64).foldl (fun s i => if slotOwned s c i then setFlag s (Reg.CR_SLOT i) 31 false else s) s

/-! ### Boundaries of an output (R307, R308, R319) -/

/-- Slots whose owner is destroyed leave an output. -/
def dropDying (s : State) (o : Nat) : State :=
  (List.range 64).foldl (fun s i =>
    let x := slotOf s i
    if x.dying && x.out == o then setSlot s i { x with active := none, dying := false } else s) s

/-- A boundary of an output: a frame ends, and the next begins with the state latched for it. -/
def outBoundary (s : State) (o n : Nat) : State :=
  let s := if (outOf s o).latched = some n then s else latchOut s o
  let s := dropDying s o
  let s := if (outOf s o).running then addWide s (Reg.CR_OUT_FRAME_LO o) 1 else s
  let x := outOf s o
  let ls := layersOn s o
  let due := x.taken.map (fun d => { desc := d, status := St.SUCCESS, frame := frameNo s o, boundary := (genOf s o).due, uf := x.uf, layers := ls.length : CrDue })
  setOut s o { x with
    taken := [], due := x.due ++ due, latched := none, running := true, began := (genOf s o).due, pkt := 0, blocks := [], uf := 0, ufLast := x.uf
    shown := ls }

end Sys2Proof.Machine
end

