-- ==== Sys2Proof/Machine/Lifecycle.lean ====
section
/-! DEFINITION. The life of a context (chapter 10): CTX_CREATE, CTX_DESTROY and its stages, FENCE_CONTEXT and
FENCE_ALL. -/

namespace Sys2Proof.Machine

/-- The Regulator carries out commands and jobs. -/
def rgRunning (s : State) : Bool := rfld s Reg.RG_STATUS 0 2 == 1 && (fnOf s Fun.REGULATOR).ready

/-! ### Creation (R190) -/

/-- R190, check 5: the heap fits the memory mode (R196). -/
def heapArgsOk (mode va n : Nat) : Bool :=
  if mode = 0 then va == 0 && n == 0
  else va % 65536 == 0 && n % 65536 == 0 && decide (2 ^ 20 ≤ n) && decide (n ≤ 2 ^ 36)

/-- R190: the refusal of a CTX_CREATE, or the number it takes. -/
def createCheck (s : State) (r : List Word) : Except Nat Nat :=
  match nextWrap (fun c => (ctxOf s c).st == .free) s.rg.nextCtx 256 with
  | none => .error St.CONTEXTS_FULL
  | some c =>
    if !s.hl.pasidEn || !s.hl.atsEn then .error St.NO_PASID
    else if healthyFrames s < quotaOthers s c + wd r 6 then .error St.QUOTA_OVERCOMMIT
    else if (freeGrans s).length < wd r 7 then .error St.PLATE_OVERCOMMIT
    else if heapArgsOk (wd r 5) (wd64 r 8) (wd64 r 10) = false then .error St.BAD_ARGUMENT
    else .ok c

/-- R185: a context at its initial values; its fault ring's counts go on (assumption log 31). -/
def freshCtx (s : State) (c : Nat) (r : List Word) : Ctx :=
  { ringOnly (ctxOf s c) with
    st := .active, pasid := wd r 4, mode := wd r 5, heapVa := wd64 r 8, heapBytes := wd64 r 10, quota := wd r 6
    created := s.rg.ctxClock + 1 }

/-- The context that a CTX_CREATE in progress has made, whose heap metadata is being written. -/
def creating (s : State) : Option Nat := (s.ctxs.find? (fun p => p.2.stage == 5)).map (·.1)

/-- R196: the metadata of a new heap written, waiting on its translations; the response follows (assumption log 30). -/
def writeHeap (s : State) (mb c : Nat) : State :=
  let x := ctxOf s c
  let w : Who := allocWho c none
  let a : Acc := { va := x.heapVa, len := heapMeta x.heapBytes, kind := 1 }
  let fin := fun (s : State) => answerOk (setCtx s c { ctxOf s c with stage := 0 }) mb [c]
  withMem s w [a] (fun s m => fin (writeMeta s w m a)) (fun s _ => fin s)

/-- CTX_CREATE (R190). -/
def execCtxCreate (mb : Nat) (s : State) : Out :=
  .next <| match cmdReq s mb Cmd.CTX_CREATE with
  | none => s
  | some r => match creating s with
    | some c => writeHeap s mb c
    | none => match createCheck s r with
      | .error st => refuse s mb st
      | .ok c =>
        let x := freshCtx s c r
        let s := setCtx { s with rg := { s.rg with nextCtx := (c + 1) % 256, ctxClock := s.rg.ctxClock + 1 } } c x
        let s := defaultRing (syncPlate (growPart s c (wd r 7))) c
        if x.mode = 0 then answerOk s mb [c]
        else writeHeap (setCtx s c { ctxOf s c with stage := 5 }) mb c

/-! ### Destruction (R193) -/

/-- The running CTX_DESTROY jobs of a context, with their slots. -/
def destroyJobs (s : State) (c : Nat) : List (Nat × Job) :=
  (runningJobs s).filter (fun p => p.2.code == Cmd.CTX_DESTROY && p.2.ctx == some c && p.2.final.isNone)

/-- Every running CTX_DESTROY job of a context at a position, with a final status when the destruction ends. -/
def destroyAt (s : State) (c done : Nat) (final : Option Nat) : State :=
  (destroyJobs s c).foldl (fun s p => setJob s p.1 { p.2 with done := done, final := final }) s

/-- CTX_DESTROY (R193): stage 1, or the stage reached by an earlier destruction. -/
def execCtxDestroy (mb : Nat) (s : State) : Out :=
  .next <| match cmdReq s mb Cmd.CTX_DESTROY with
  | none => s
  | some r =>
    let c := wd r 4
    if ctxExists s c = false then refuse s mb St.NOT_FOUND
    else match freeJob s with
      | none => refuse s mb St.JOBS_FULL
      | some _ =>
        if (ctxOf s c).st = .destroying then
          acceptJob s mb { ctx := some c, obj := c, total := 4, done := (ctxOf s c).stage - 1 }
        else
          let s := fenceJobs (fenceCtx s c 1) c
          let s := setCtx s c { ctxOf s c with st := .destroying, stage := 2 }
          acceptJob s mb { ctx := some c, obj := c, total := 4, done := 1 }

/-- R193, stage 2: nothing of the context is in flight, and the host has answered its requests. -/
def ctxDrained (s : State) (c : Nat) : Bool :=
  ctxInFlight s c == 0 && !s.tu.misses.any (fun m => m.ctx == c)

/-- R193: fault records of the context still parked, held back or not yet written are discarded. -/
def dropFaults (s : State) (c : Nat) : State :=
  { s with tu := { s.tu with
    parked := s.tu.parked.filter (fun r => r.ctx != c)
    recs := s.tu.recs.filter (fun r => r.ctx != c)
    heldFail := s.tu.heldFail.filter (fun r => r.ctx != c)
    failed := s.tu.failed.filter (fun f => f.ctx != c)
    once := s.tu.once.filter (fun o => o.ctx != c) } }

/-- R193, stage 3: the context's shares are released. No reservation names a context (R251), so none ends. -/
def releaseShares (s : State) (c : Nat) : State :=
  let s := (ctxModels s c).foldl (fun s p => unloadModel s p.1) s
  let s := { s with esc := { s.esc with rings := s.esc.rings.filter (fun p => p.2.ctx != c) } }
  let s := foldBanks (freeAllEvs s c) c
  let s := { s with al := { s.al with queue := s.al.queue.filter (fun q => q.ctx != c) } }
  crDestroy (setCtx s c { ctxOf s c with quota := 0, client := 0, heapVa := 0, heapBytes := 0, allocs := [] }) c

/-- DESTROY_DRAIN_END (R193, R314): stage 2 ends and stage 3 is done, or stage 3 ends once the outputs that carried
the context's slots have reached a frame boundary. -/
def execDestroyDrainEnd (ctx : Nat) (s : State) : Out :=
  .next <|
    let x := ctxOf s ctx
    if destroyJobs s ctx = [] ∨ rgRunning s = false ∨ x.st ≠ .destroying then s
    else
      let leave := fun (s : State) =>
        if crWaits s ctx then destroyAt s ctx 2 none
        else destroyAt (setCtx (crRelease s ctx) ctx { ctxOf s ctx with stage := 4 }) ctx 3 none
      if x.stage = 2 then
        if ctxDrained s ctx = false then s
        else
          let s := releaseShares (dropFaults s ctx) ctx
          leave (setCtx s ctx { ctxOf s ctx with stage := 3 })
      else if x.stage = 3 then leave s
      else s

/-- R257: the TLB entries of a PASID that no context holds any more are removed. -/
def dropPasid (s : State) (pasid : Nat) : State :=
  if s.ctxs.any (fun p => p.2.st != .free && p.2.pasid == pasid) then s
  else { s with tu := { s.tu with tlb := s.tu.tlb.filter (fun e => e.pasid != pasid) } }

/-- A context's number becomes FREE, its partition zeroed and freed. -/
def freeCtx (s : State) (c : Nat) : State :=
  let x := ctxOf s c
  let s := (x.granules.filterMap id).foldl (fun s g => dropGran (zeroGran s g) g) s
  dropPasid (syncPlate (setCtx s c (ringOnly x))) x.pasid

/-- DESTROY_PARTITION_ZEROED (R193, R104): stage 4, once no claim covers the partition. -/
def execDestroyPartitionZeroed (ctx : Nat) (s : State) : Out :=
  .next <|
    let x := ctxOf s ctx
    if destroyJobs s ctx = [] ∨ rgRunning s = false ∨ x.st ≠ .destroying ∨ x.stage ≠ 4 ∨
      s.pl.claims.any (fun k => k.ctx == ctx) = true then s
    else freeCtx (destroyAt s ctx 4 (some St.SUCCESS)) ctx

/-! ### Fences by command (R180, R187) -/

/-- FENCE_CONTEXT (Table MB-6). -/
def execFenceContext (mb : Nat) (s : State) : Out :=
  .next <| match cmdReq s mb Cmd.FENCE_CONTEXT with
  | none => s
  | some r =>
    let c := wd r 4
    if ctxExists s c = false then refuse s mb St.NOT_FOUND
    else
      let s := fenceCtx s c 1
      answerOk s mb [ctxInFlight s c % 65536]

/-- Every active context fenced, in ascending number. -/
def fenceAllCtx (s : State) (source : Nat) : State := s.ctxs.foldl (fun s p => fenceCtx s p.1 source) s

/-- FENCE_ALL (Table MB-6). -/
def execFenceAll (mb : Nat) (s : State) : Out :=
  .next <| match cmdReq s mb Cmd.FENCE_ALL with
  | none => s
  | some _ =>
    let s := fenceAllCtx s 1
    answerOk s mb [allInFlight s % 65536]

end Sys2Proof.Machine
end

