-- ==== Sys2Proof/Machine/Fragments.lean ====
section
/-! DEFINITION. What a tile engine computes of a primitive (R133 to R136): coverage, depth and stencil tests,
interpolated varyings, blending, resolving, and where the pixels of a tile lie in memory (R138). -/

namespace Sys2Proof.Machine

/-! ### Images of a pass -/

def imgAt (p : RPass) (k : Nat) : Img := p.imgs.getD k []
/-- Geometry images, in table order. -/
def geomImgs (p : RPass) : List Nat := (List.range p.imgs.length).filter (fun k => decide (Img.cls (imgAt p k) ≤ 2))
/-- Attachment entries that bind a location, with their number. -/
def boundAtts (p : RPass) : List (Nat × List Byte) :=
  ((List.range p.atts.length).zip p.atts).filter (fun x => !atOnly x.2 && Img.cls (imgAt p (atImage x.2)) != 1)
/-- The depth attachment. -/
def depthAtt (p : RPass) : Option (List Byte) := p.atts.find? (fun b => !atOnly b && Img.cls (imgAt p (atImage b)) == 1)
def depthImg (p : RPass) : Option Img := (depthAtt p).map (fun b => imgAt p (atImage b))
/-- Samples of a pixel. -/
def passSamples (p : RPass) : Nat := Img.samples (imgAt p ((geomImgs p).headD 0))
/-- Width and height of the frame. -/
def passFrame (p : RPass) : Nat × Nat := (Img.frameW (imgAt p 0), Img.frameH (imgAt p 0))

/-- An image's entry with its apron removed and another number of samples (log2). -/
def Img.relay (b : Img) (lg : Nat) : Img :=
  toLe (b.word0 - b.apron * 2 ^ 24 - natBits b.word0 22 2 * 2 ^ 22 + lg * 2 ^ 22) 4 ++ b.drop 4

/-- Log2 of an image's samples. -/
def Img.lg (b : Img) : Nat := natBits b.word0 22 2

def up64 (n : Nat) : Nat := ceilDiv n 64 * 64

/-! ### Memory copies (R138) -/

/-- The runs of a tile inside the frame: memory address, byte of the tile in the Plate, and length. `g` is the image
as it lies in the Plate and `lg` the log2 of the samples a pixel has in memory. -/
def memRuns (g : Img) (lg : Nat) (at_ : List Byte) (i : Nat) : List (Nat × Nat × Nat) :=
  let r := Img.relay g lg
  let ty := i / g.gx
  let tx := i % g.gx
  let nx := Nat.min g.tw (g.frameW - tx * g.tw)
  let ny := Nat.min g.th (g.frameH - ty * g.th)
  ((List.range g.nPlanes).map (fun k => (List.range ny).map (fun y =>
    let n := r.planeBytes k * r.samples
    let pitch := if g.cls = 1 ∧ k = 1 then ceilDiv (ceilDiv (atPitch at_) 4) 64 * 64 else atPitch at_
    let va := if atTiled at_ then atAddr at_ + i * up64 r.tileBytes + r.byteAt k y 0 0
      else atAddr at_ + k * atPitch at_ * g.frameH + (ty * g.th + y) * pitch + tx * g.tw * n
    (va, g.byteAt k (y + g.apron) g.apron 0, nx * n)))).flatten

/-- R130: where geometry image `k` spills tile `i`. -/
def spillAt (p : RPass) (k i : Nat) : Nat :=
  let n (j : Nat) : Nat := up64 (Img.tileBytes (imgAt p j))
  p.spill + ((geomImgs p).filter (fun j => decide (j < k))).foldl (fun a j => a + p.tiles * n j) 0 + i * n k

/-- The bytes that a cleared tile holds. -/
def clearBytes (g : Img) (at_ : List Byte) : List (Nat × List Byte) :=
  let c := atClear at_
  (List.range g.nPlanes).map (fun k =>
    let one := if g.cls = 1 then
        (if k = 1 then [c.getD 4 0] else if g.format = 0 then toLe (unormOf 16 (dec32 (BitVec.ofNat 32 (leAt c 0 4)))) 2 else c.take 4)
      else padTo (g.planeBytes k) c
    (g.planeOff k, (List.replicate (g.th * g.tw * g.samples) one).flatten))

/-! ### Primitives of a tile -/

/-- A primitive as the tile engine reads it: its vertices counter-clockwise, its state and its face. -/
structure PInfo where
  prim : Nat
  a : FVert
  b : FVert
  c : FVert
  st : List Byte
  back : Bool
  deriving DecidableEq, Repr

/-- A frame coordinate's FP32 word in 1/256 pixel. -/
def fixOf (w : Word) : Int :=
  match (dec32 w).mul (Num.ofInt 256) with
  | .fin n m e => Num.toInt .rne n m e
  | _ => 0

/-- A vertex record. -/
def fvertOf (b : List Byte) : FVert :=
  let w (i : Nat) : Word := BitVec.ofNat 32 (leAt b (4 * i) 4)
  { key := 0, x := fixOf (w 0), y := fixOf (w 1), z := w 2, rw := w 3, vary := (List.range (b.length / 4 - 4)).map (fun i => w (4 + i)) }

/-- The records that primitives name: first the primitives', then three vertices and a state each. -/
def primReads (p : RPass) (m : SegMap) (ps : List Nat) : List (Nat × Nat) := ps.map (fun i => (p.heap + m.prims.getD i 0, 32))
def primDeps (p : RPass) (m : SegMap) (n : Nat) (bs : List (List Byte)) : List (Nat × Nat) :=
  ((bs.take n).map (fun b =>
    ((List.range 3).map (fun k =>
      let v := m.verts.getD (leAt b (4 * k) 4) (0, 0)
      (p.heap + v.1, 16 + 16 * v.2))) ++ [(p.stateTable + 64 * leAt b 0xE 2, 64)])).flatten

/-- Primitives from the bytes that `primReads` and `primDeps` gave. -/
def primInfos (ps : List Nat) (bs : List (List Byte)) : List PInfo :=
  let n := ps.length
  (List.range n).map (fun i =>
    let d (k : Nat) : List Byte := bs.getD (n + 4 * i + k) []
    { prim := ps.getD i 0, a := fvertOf (d 0), b := fvertOf (d 1), c := fvertOf (d 2), st := d 3
      back := natBits (leAt (bs.getD i []) 0xC 4) 15 1 == 1 })

def FVert.pt (v : FVert) : Pt := (v.x, v.y)

/-! ### Depth (R133) -/

/-- The three edge functions at a place, each opposite a vertex. -/
def baryAt (q : PInfo) (s : Pt) : Int × Int × Int := (edgeFn q.b.pt q.c.pt s, edgeFn q.c.pt q.a.pt s, edgeFn q.a.pt q.b.pt s)

/-- The sum of three exact products with integers. -/
def mix3 (w : Int × Int × Int) (x y z : Num) : Num :=
  Num.add (Num.add (Num.mul (Num.ofInt w.1) x) (Num.mul (Num.ofInt w.2.1) y)) (Num.mul (Num.ofInt w.2.2) z)

/-- R133: the greatest depth slope per pixel. -/
def depthSlope (q : PInfo) : Num :=
  let d (p r : Num) : Num := Num.add p r.neg
  let z1 := d (dec32 q.b.z) (dec32 q.a.z)
  let z2 := d (dec32 q.c.z) (dec32 q.a.z)
  let n (i : Int) : Num := Num.ofInt i
  let area := n (area2 q.a.pt q.b.pt q.c.pt)
  let gx := ratio (Num.mul (n 256) (d (Num.mul z1 (n (q.c.y - q.a.y))) (Num.mul z2 (n (q.b.y - q.a.y))))) area
  let gy := ratio (Num.mul (n 256) (d (Num.mul z2 (n (q.b.x - q.a.x))) (Num.mul z1 (n (q.c.x - q.a.x))))) area
  maxNum gx.abs gy.abs

/-- A depth encoded in a depth format. -/
def depthRaw (fmt : Nat) (z : Num) : Nat := if fmt = 0 then unormOf 16 z else (enc32 z).toNat

/-- R133: the depth of a place, biased and clamped. -/
def depthAtPt (q : PInfo) (s : Pt) : Num :=
  let w := baryAt q s
  let z := ratio (mix3 w (dec32 q.a.z) (dec32 q.b.z) (dec32 q.c.z)) (Num.ofInt (w.1 + w.2.1 + w.2.2))
  let f (o : Nat) : Num := dec32 (BitVec.ofNat 32 (leAt q.st o 4))
  let bias := round32 (Num.add (f 0xC) (Num.mul (f 0x30) (depthSlope q)))
  let z := round32 (Num.add z bias)
  if stClamp q.st then clamp01 z else z

/-- A compare of a new against a stored number, by the codes of DEPTH_CMP. -/
def cmpCode (c : Nat) (o : Option Ordering) : Bool :=
  match c, o with
  | 0, _ => false
  | 7, _ => true
  | 1, some .lt => true
  | 2, some .eq => true
  | 3, some .lt => true
  | 3, some .eq => true
  | 4, some .gt => true
  | 5, some .eq => false
  | 5, _ => true
  | 6, some .gt => true
  | 6, some .eq => true
  | _, _ => false

/-- The order of two depths in a format. -/
def depthOrd (fmt new old : Nat) : Option Ordering :=
  if fmt = 0 then some (compare new old) else Num.cmp (dec32 (BitVec.ofNat 32 new)) (dec32 (BitVec.ofNat 32 old))

/-! ### Stencil (Table TR-5) -/

/-- A stencil operation on a stored value. -/
def stencilOp (op ref old : Nat) : Nat :=
  if op = 0 then old else if op = 1 then 0 else if op = 2 then ref
  else if op = 3 then Nat.min 255 (old + 1) else if op = 4 then old - 1 else if op = 5 then 255 - old
  else if op = 6 then (old + 1) % 256 else (old + 255) % 256

/-- What the tests of one sample answer: whether it passes, and its depth and stencil after. -/
structure Tested where
  pass : Bool
  depth : Nat
  stencil : Nat
  deriving DecidableEq, Repr

/-- R132, step 3: the stencil and depth tests of one sample. `hasD` and `hasS` tell which planes the pass has. -/
def testSample (st : List Byte) (back hasD hasS : Bool) (fmt new old sten : Nat) : Tested :=
  let w := leAt st 8 4
  let f := if back then natBits w 16 12 else natBits w 0 12
  let ref := leAt st 7 1
  let rm := leAt st 6 1
  let wm := leAt st 5 1
  let on := stStencil st && hasS
  let put (op : Nat) : Nat := if on then (stencilOp op ref sten &&& wm) ||| (sten &&& (255 - wm)) else sten
  let sOk := !on || cmpCode (natBits f 9 3) (some (compare (ref &&& rm) (sten &&& rm)))
  let dOk := !(stDepthTest st && hasD) || cmpCode (stDepthCmp st) (depthOrd fmt new old)
  if sOk = false then { pass := false, depth := old, stencil := put (natBits f 6 3) }
  else if dOk = false then { pass := false, depth := old, stencil := put (natBits f 3 3) }
  else { pass := true, depth := if stDepthTest st && stDepthWrite st then new else old, stencil := put (natBits f 0 3) }

/-! ### Coverage (R133, R135) -/

/-- The pixels of tile `i`, by position in the tile, inside the frame and the scissor. -/
def tilePixels (p : RPass) (st : List Byte) (i : Nat) : List (Nat × Nat) :=
  let d := tileDims p.tile
  let r := drawRect (passFrame p).1 (passFrame p).2 st
  let y0 := i / p.gx * d.2
  let x0 := i % p.gx * d.1
  ((List.range d.2).map (fun y => ((List.range d.1).filter (fun x =>
    decide (r.1 ≤ x0 + x) && decide (x0 + x < r.2.2.1) && decide (r.2.1 ≤ y0 + y) && decide (y0 + y < r.2.2.2))).map (fun x => (x, y)))).flatten

/-- The samples of a pixel that a primitive covers. -/
def covered (p : RPass) (q : PInfo) (i x y : Nat) : List Nat :=
  let d := tileDims p.tile
  let n := passSamples p
  (List.range n).filter (fun j => insideTri q.a.pt q.b.pt q.c.pt (sampleAt n j (i % p.gx * d.1 + x) (i / p.gx * d.2 + y)))

/-- R135: the primitive is eligible for the pre-pass. -/
def eligible (p : RPass) (st : List Byte) : Bool :=
  let fam := if p.hsr = 1 then [1, 3] else [4, 6]
  p.hsr != 0 && stDepthTest st && stDepthWrite st && fam.contains (stDepthCmp st) && !stStencil st && !stNoHsr st && !stEffects st && stBlendEn st == 0 &&
  (boundAtts p).all (fun x =>
    let g := imgAt p (atImage x.2)
    (List.range g.nPlanes).all (fun k =>
      let fmt := if g.cls = 2 then g.planeFmt k else g.format
      let n := (colourChans fmt).length
      natBits (stMask st) (4 * (x.1 + k)) n == 2 ^ n - 1))

/-- The depth raw value of a sample place. -/
def sampleDepth (p : RPass) (q : PInfo) (fmt i x y j : Nat) : Nat :=
  let d := tileDims p.tile
  depthRaw fmt (depthAtPt q (sampleAt (passSamples p) j (i % p.gx * d.1 + x) (i / p.gx * d.2 + y)))

/-- Key of a sample of a tile. -/
def sampleKey (p : RPass) (x y j : Nat) : Nat := 8 * (y * (tileDims p.tile).1 + x) + j

/-- R135: the pre-pass over the eligible primitives of a tile, in entry order: the winner of each sample. -/
def prePass (p : RPass) (i : Nat) (fmt : Nat) (depth0 : Nat → Nat → Nat → Nat) (qs : List PInfo) : Tbl Nat :=
  let step (acc : Tbl Nat × Tbl Nat) (q : PInfo) : Tbl Nat × Tbl Nat :=
    (tilePixels p q.st i).foldl (fun acc xy => (covered p q i xy.1 xy.2).foldl (fun (acc : Tbl Nat × Tbl Nat) j =>
      let k := sampleKey p xy.1 xy.2 j
      let z := sampleDepth p q fmt i xy.1 xy.2 j
      let old := (tfind acc.1 k).getD (depth0 xy.1 xy.2 j)
      if cmpCode (stDepthCmp q.st) (depthOrd fmt z old) then (tset acc.1 k z, tset acc.2 k q.prim) else acc) acc) acc
  ((qs.filter (fun q => eligible p q.st)).foldl step ([], [])).2

/-- R133: the varyings of a pixel, with perspective correction. -/
def varyings (p : RPass) (q : PInfo) (i x y : Nat) : List Word :=
  let d := tileDims p.tile
  let w := baryAt q ((256 * (i % p.gx * d.1 + x) + 128 : Nat), (256 * (i / p.gx * d.2 + y) + 128 : Nat))
  let ra := dec32 q.a.rw
  let rb := dec32 q.b.rw
  let rc := dec32 q.c.rw
  let den := mix3 w ra rb rc
  (List.range q.a.vary.length).map (fun k =>
    let v (f : FVert) : Num := dec32 (f.vary.getD k 0)
    enc32 (ratio (mix3 w (Num.mul ra (v q.a)) (Num.mul rb (v q.b)) (Num.mul rc (v q.c))) den))

/-! ### Blending (R134) -/

/-- A colour: red, green, blue, alpha. -/
abbrev Colour := Nat → Num

def oneMinus (x : Num) : Num := round32 (Num.add (Num.ofInt 1) x.neg)

/-- A blend factor of Vulkan 1.3 for component `c`; none for a code that R134 does not name. -/
def blendFactor (f c : Nat) (src src1 dst k : Colour) : Option Num :=
  if f = 0 then some (Num.zero false) else if f = 1 then some (Num.ofInt 1)
  else if f = 2 then some (src c) else if f = 3 then some (oneMinus (src c))
  else if f = 4 then some (dst c) else if f = 5 then some (oneMinus (dst c))
  else if f = 6 then some (src 3) else if f = 7 then some (oneMinus (src 3))
  else if f = 8 then some (dst 3) else if f = 9 then some (oneMinus (dst 3))
  else if f = 10 then some (k c) else if f = 11 then some (oneMinus (k c))
  else if f = 12 then some (k 3) else if f = 13 then some (oneMinus (k 3))
  else if f = 14 then some (if c = 3 then Num.ofInt 1 else minNum (src 3) (oneMinus (dst 3)))
  else if f = 15 then some (src1 c) else if f = 16 then some (oneMinus (src1 c))
  else if f = 17 then some (src1 3) else if f = 18 then some (oneMinus (src1 3))
  else none

/-- A blend operation; none for a code that R134 does not name. -/
def blendOp (op : Nat) (s sf d df : Num) : Option Num :=
  let a := round32 (Num.mul s sf)
  let b := round32 (Num.mul d df)
  if op = 0 then some (round32 (Num.add a b)) else if op = 1 then some (round32 (Num.add a b.neg))
  else if op = 2 then some (round32 (Num.add b a.neg)) else if op = 3 then some (minNum s d) else if op = 4 then some (maxNum s d) else none

/-- One component blended by an 8-byte entry of the blend table; a code that R134 does not name gives a free value. -/
def blendComp (e : Nat) (c : Nat) (src src1 dst k : Colour) : Num :=
  let o := if c = 3 then 13 else 0
  let sf := blendFactor (natBits e o 5) c src src1 dst k
  let df := blendFactor (natBits e (o + 5) 5) c src src1 dst k
  match sf, df with
  | some a, some b => (blendOp (natBits e (o + 10) 3) (src c) a (dst c) b).getD
      (dec32 (BitVec.ofNat 32 (Config.openVal 10 [e, c, (enc32 (src c)).toNat, (enc32 (dst c)).toNat])))
  | _, _ => dec32 (BitVec.ofNat 32 (Config.openVal 10 [e, c, (enc32 (src c)).toNat, (enc32 (dst c)).toNat]))

/-- WRITE_MASK of a location as a mask of components: its bits name channels in stored order. -/
def compMask (fmt m : Nat) : Nat :=
  let ch := colourChans fmt
  (List.range ch.length).foldl (fun a j => a + natBits m j 1 * 2 ^ ((ch.getD j ⟨0, 0, 0, 0⟩).comp)) 0

/-- R134: a sample's bytes after a fragment's output for a location: `out` and `out1` are the words of the location
and of the next one. -/
def blendSample (fmt : Nat) (st : List Byte) (loc e : Nat) (k : Colour) (out out1 : Nat → Word) (old : List Byte) : List Byte :=
  let src : Colour := fun c => dec32 (out c)
  let src1 : Colour := fun c => dec32 (out1 c)
  let dst : Colour := fun c => compOf fmt old c
  let on := natBits (stBlendEn st) loc 1 == 1 && colourBlend fmt
  putComps fmt old (compMask fmt (natBits (stMask st) (4 * loc) 4)) (fun c => if on then blendComp e c src src1 dst k else src c) out

/-! ### Resolving (R136) -/

/-- The mean of the samples of a pixel, or sample 0 for an integer format. -/
def resolvePixel (fmt : Nat) (ss : List (List Byte)) : List Byte :=
  if 0x10 ≤ fmt then ss.headD []
  else
    let f (c : Nat) : Num :=
      round32 (ratio ((ss.map (fun b => compOf fmt b c)).foldl (fun a x => round32 (Num.add a x)) (Num.zero false)) (Num.ofInt ss.length))
    putComps fmt (List.replicate (colourBytes fmt) 0) 15 f (fun _ => 0)

/-- R136: the depth of a pixel as stored: sample 0, the least or the greatest. -/
def resolveDepth (fmt mode : Nat) (ss : List Nat) : Nat :=
  let pick (o : Ordering) : Nat := ss.foldl (fun a x => if depthOrd fmt x a = some o then x else a) (ss.headD 0)
  if mode = 1 then pick .lt else if mode = 2 then pick .gt else ss.headD 0

/-- The resolved bytes of one pixel of plane `k` of a tile in the Plate. -/
def resolvedPixel (s : State) (c : Nat) (g : Img) (at_ : List Byte) (i k y x : Nat) : List Byte :=
  let n := g.planeBytes k
  let ss := (List.range g.samples).map (fun j => tileRd s c g i (g.byteAt k y x j) n)
  if g.cls = 1 then (if k = 1 then ss.headD [] else toLe (resolveDepth g.format (atDs at_) (ss.map leNat)) n)
  else resolvePixel (if g.cls = 2 then g.planeFmt k else g.format) ss

end Sys2Proof.Machine
end

