-- ==== Sys2Proof/Machine/Scanout.lean ====
section
/-! DEFINITION. Scanout: composition (R309, R310), fetch and underflow (R312, R313), transmit packets (R319) and the
configuration of an output (R303, R320). -/

namespace Sys2Proof.Machine

/-! ### Source pixels (R309, R312) -/

/-- A component of a layer's pixel: UNORM codes with no linearisation, FP16 held finite. -/
def crComp (fmt : Nat) (b : List Byte) (c : Nat) : Num :=
  match (colourChans fmt).find? (·.comp == c) with
  | none => if c = 3 then Num.ofInt 1 else Num.zero false
  | some k =>
    let raw := natBits (leNat b) k.lo k.len
    if k.kind ≤ 1 then fdivN fp32 (Num.ofInt raw) (Num.ofInt (2 ^ k.len - 1))
    else match chanNum k raw with
      | .nan => Num.zero false
      | .inf n => if n then Num.ofInt (-65504) else Num.ofInt 65504
      | x => x

/-- Memory address of a pixel of a memory source (R138). -/
def srcVa (l : List Byte) (y x : Nat) : Nat :=
  let n := colourBytes (lyFmt l)
  if lyTiled l then
    lyAddr l + (y / 64 * ceilDiv (lySrcW l) 64 + x / 64) * up64 (4096 * n) + (y % 64 * 64 + x % 64) * n
  else lyAddr l + y * lyPitch l + x * n

/-- The bytes of a source pixel. -/
def srcPixel (s : State) (m : PageMap) (l : Layer) (y x : Nat) : List Byte :=
  let n := colourBytes (lyFmt l.bytes)
  if lyPlate l.bytes then
    let i : Img := l.entry
    tileRd s l.ctx i (y / i.th * i.gx + x / i.tw) (i.byteAt 0 (y % i.th) (x % i.tw) 0) n
  else vaRd s false m (srcVa l.bytes y x) n

/-- R309: the source coordinate of a destination coordinate on one axis. -/
def srcCoord (crop cropN dst dstN x : Nat) : Num :=
  let a := round32 (Num.add (Num.ofInt ((x : Int) - dst)) (.fin false 1 (-1)))
  let b := fdivN fp32 (round32 (Num.mul a (Num.ofInt cropN))) (Num.ofInt dstN)
  let c := round32 (Num.add (round32 (Num.add (Num.ofInt crop) b)) (.fin true 1 (-1)))
  let hi := Num.ofInt ((crop + cropN : Nat) - 1)
  if Num.lt c (Num.ofInt crop) then Num.ofInt crop else if Num.lt hi c then hi else c

/-- The whole part of a coordinate that is not negative. -/
def floorNum (x : Num) : Nat := match x with
  | .fin n m e => (Num.toInt .rtz n m e).toNat
  | _ => 0

/-- Nearest source position of a coordinate, held in the crop. -/
def nearPos (crop cropN : Nat) (x : Num) : Nat := Nat.min (floorNum (round32 (Num.add x (.fin false 1 (-1))))) (crop + cropN - 1)

/-- R309: blend of two values by a fraction (assumption log 29). -/
def lerp32 (f a b : Num) : Num :=
  let g := round32 (Num.add (Num.ofInt 1) f.neg)
  round32 (Num.add (round32 (Num.mul g a)) (round32 (Num.mul f b)))

/-- R309: component `c` of a layer's filtered source at raster position (y, x). -/
def srcComp (s : State) (m : PageMap) (l : Layer) (y x c : Nat) : Num :=
  let b := l.bytes
  let sx := srcCoord (lyCropX b) (lyCropW b) (lyDstX b) (lyDstW b) x
  let sy := srcCoord (lyCropY b) (lyCropH b) (lyDstY b) (lyDstH b) y
  let px := fun yy xx => crComp (lyFmt b) (srcPixel s m l yy xx) c
  if lyBilinear b = false then px (nearPos (lyCropY b) (lyCropH b) sy) (nearPos (lyCropX b) (lyCropW b) sx)
  else
    let x0 := floorNum sx
    let y0 := floorNum sy
    let x1 := Nat.min (x0 + 1) (lyCropX b + lyCropW b - 1)
    let y1 := Nat.min (y0 + 1) (lyCropY b + lyCropH b - 1)
    let fx := round32 (Num.add sx (Num.ofInt (-(x0 : Int))))
    let fy := round32 (Num.add sy (Num.ofInt (-(y0 : Int))))
    lerp32 fy (lerp32 fx (px y0 x0) (px y0 x1)) (lerp32 fx (px y1 x0) (px y1 x1))

/-! ### Composition (R309, R310) -/

def mul32 (a b : Num) : Num := round32 (Num.mul a b)
def add32 (a b : Num) : Num := round32 (Num.add a b)

/-- The colour matrix's product with a colour, for one row, with the offset taken `k` times. -/
def matRow (b : List Byte) (r : Nat) (cs : List Num) (k : Num) : Num :=
  if lyMatrix b = false then cs.getD r (Num.zero false)
  else
    let m := fun c => dec32 (lyM b r c)
    let p := add32 (add32 (mul32 (m 0) (cs.getD 0 .nan)) (mul32 (m 1) (cs.getD 1 .nan))) (mul32 (m 2) (cs.getD 2 .nan))
    add32 p (mul32 k (m 3))

/-- R309: one layer over the accumulator. -/
def overLayer (s : State) (m : PageMap) (l : Layer) (y x : Nat) (acc : List Num) : List Num :=
  let b := l.bytes
  let cs := (List.range 3).map (srcComp s m l y x)
  let one := Num.ofInt 1
  let a := if lyAlpha b = 0 then one else srcComp s m l y x 3
  let k := fdivN fp32 (Num.ofInt (lyL b)) (Num.ofInt 65535)
  let al := mul32 a k
  (List.range 3).map (fun r =>
    let p := if lyAlpha b = 1 then mul32 al (matRow b r cs one) else if lyAlpha b = 2 then mul32 k (matRow b r cs a) else mul32 k (matRow b r cs one)
    add32 p (mul32 (add32 one al.neg) (acc.getD r (Num.zero false))))

/-- The background colour (CR_OUTo_BG). -/
def bgOf (s : State) (o : Nat) : List Num :=
  let c := fun n => fdivN fp32 (Num.ofInt n) (Num.ofInt 65535)
  [c (rfld s (Reg.CR_OUT_BG0 o) 0 16), c (rfld s (Reg.CR_OUT_BG0 o) 16 16), c (rfld s (Reg.CR_OUT_BG1 o) 0 16)]

/-- A destination holds a raster pixel. -/
def lyHolds (b : List Byte) (y x : Nat) : Bool :=
  decide (lyDstX b ≤ x) && decide (x < lyDstX b + lyDstW b) && decide (lyDstY b ≤ y) && decide (y < lyDstY b + lyDstH b)

/-- Blocks across an output, and the raster rectangle of a block: x0, y0, x1, y1, ends excluded. -/
def blocksWide (s : State) (o : Nat) : Nat := Nat.max 1 (ceilDiv (outW s o) 32)
def blockRect (s : State) (o b : Nat) : Nat × Nat × Nat × Nat :=
  let x := b % blocksWide s o * 32
  let y := b / blocksWide s o * 32
  (x, y, Nat.min (x + 32) (outW s o), Nat.min (y + 32) (outH s o))

/-- The part of a rectangle that a layer's destination holds, if any. -/
def lyMeets (b : List Byte) (r : Nat × Nat × Nat × Nat) : Option (Nat × Nat × Nat × Nat) :=
  let x0 := Nat.max r.1 (lyDstX b)
  let y0 := Nat.max r.2.1 (lyDstY b)
  let x1 := Nat.min r.2.2.1 (lyDstX b + lyDstW b)
  let y1 := Nat.min r.2.2.2 (lyDstY b + lyDstH b)
  if x0 < x1 ∧ y0 < y1 then some (x0, y0, x1, y1) else none

/-- R310: the layer is opaque over a rectangle. -/
def lyCovers (b : List Byte) (r : Nat × Nat × Nat × Nat) : Bool := lyAlpha b == 0 && lyL b == 0xFFFF && lyMeets b r == some r

/-- The layers that meet a block, Z ascending, split at the highest opaque one: those culled and those fetched. -/
def blockLayers (s : State) (o b : Nat) : List Layer × List Layer :=
  let r := blockRect s o b
  let ls := ((outOf s o).shown.filter (fun l => (lyMeets l.bytes r).isSome)).mergeSort (fun a c => decide (lyZ a.bytes ≤ lyZ c.bytes))
  match (ls.filter (fun l => lyCovers l.bytes r)).getLast? with
  | none => ([], ls)
  | some top => ls.partition (fun l => decide (lyZ l.bytes < lyZ top.bytes))

/-! ### Fetch (R312, R313) -/

/-- The reads that a layer's part of a rectangle needs from memory. -/
def layerReads (l : Layer) (r : Nat × Nat × Nat × Nat) : List Acc :=
  let b := l.bytes
  if lyPlate b then []
  else match lyMeets b r with
    | none => []
    | some q =>
      let cx := srcCoord (lyCropX b) (lyCropW b) (lyDstX b) (lyDstW b)
      let cy := srcCoord (lyCropY b) (lyCropH b) (lyDstY b) (lyDstH b)
      let x0 := floorNum (cx q.1)
      let x1 := Nat.min (floorNum (cx (q.2.2.1 - 1)) + 1) (lyCropX b + lyCropW b - 1)
      let y0 := floorNum (cy q.2.1)
      let y1 := Nat.min (floorNum (cy (q.2.2.2 - 1)) + 1) (lyCropY b + lyCropH b - 1)
      let n := colourBytes (lyFmt b)
      let step := if lyTiled b then 64 else 16384
      ((List.range (y1 + 1 - y0)).map (fun i =>
        (List.range (x1 / step + 1 - x0 / step)).map (fun k =>
          let a := Nat.max x0 ((x0 / step + k) * step)
          let z := Nat.min x1 ((x0 / step + k) * step + step - 1)
          { va := srcVa b (y0 + i) a, len := (z + 1 - a) * n, kind := 0 : Acc }))).flatten

def crWho (l : Layer) (o : Nat) : Who := { stream := 52 + o, ctx := l.ctx, eng := 4 }

/-- What fetching the layers of a block answers: their page maps, or a reason for underflow. -/
def fetchLayers (s : State) (o : Nat) (r : Nat × Nat × Nat × Nat) : List Layer → State × Option (List (Layer × PageMap))
  | [] => (s, some [])
  | l :: ls =>
    let plate := lyPlate l.bytes && tileCode s l.ctx l.entry 0 != 0
    match laneMem s (crWho l o) (laneAccs (layerReads l r)) with
    | .wait s => ((fetchLayers s o r ls).1, none)
    | .go s m bad =>
      let s := if bad = [] then s else setFlag s Reg.CR_ERR 3 true
      let t := fetchLayers s o r ls
      if bad != [] || plate then (t.1, none) else (t.1, t.2.map (fun x => (l, m) :: x))

/-- The words of a block: three for each of its 1,024 positions. -/
def composeBlock (s : State) (o b : Nat) (ls : List (Layer × PageMap)) : List Word :=
  let r := blockRect s o b
  ((List.range 1024).map (fun i =>
    let x := r.1 + i % 32
    let y := r.2.1 + i / 32
    let on := ls.filter (fun l => lyHolds l.1.bytes y x)
    (on.foldl (fun acc l => overLayer s l.2 l.1 y x acc) (bgOf s o)).map enc32)).flatten

/-- A block as it is sent; every block sent counts a tick for the output's owner. -/
def putBlock (s : State) (o b : Nat) (w : List Word) : State :=
  let s := addWide (setOut s o { outOf s o with blocks := tset (outOf s o).blocks b w }) Reg.CR_TICKS_LO 1
  if rbit s (Reg.CR_OUT_CFG o) 30 then tickFor s (rfld s (Reg.CR_OUT_CFG o) 22 8) 4 else s

/-- R313: a block is sent as background colour; the Chronograph records it once a frame. -/
def underflow (s : State) (o b : Nat) : State :=
  let x := outOf s o
  let s := if x.uf = 0 then chrono s Chr.CR_UNDERFLOW (if rbit s (Reg.CR_OUT_CFG o) 30 then some (rfld s (Reg.CR_OUT_CFG o) 22 8) else none) Fun.CRYSTAL o (frameNo s o) else s
  let s := setFlag (countReg s (Reg.CR_OUT_UNDERFLOW o) 32 1) Reg.CR_ERR 2 true
  putBlock (setOut s o { outOf s o with uf := x.uf + 1 }) o b (composeBlock s o b [])

/-- A block falls due: composed where its data has arrived, else sent as background (R310, R313). A fenced Crystal
shows the background colour (Table ER-3). -/
def dueBlock (s : State) (o b : Nat) : State :=
  if (tfind (outOf s o).blocks b).isSome then s
  else if fnFenced s Fun.CRYSTAL then putBlock s o b (composeBlock s o b [])
  else
    let ls := blockLayers s o b
    let s := countReg s (Reg.CR_OUT_CULLED o) 32 ls.1.length
    match fetchLayers s o (blockRect s o b) ls.2 with
    | (s, some ms) => putBlock s o b (composeBlock s o b ms)
    | (s, none) => underflow s o b

/-- BLOCK_UNDERFLOW (R313): a block of the frame whose data has not arrived when it is due. -/
def execBlockUnderflow (output block : Nat) (s : State) : Out :=
  .next <|
    if (outOf s output).running = false ∨ (tfind (outOf s output).blocks block).isSome ∨ blocksWide s output * ceilDiv (outH s output) 32 ≤ block ∨
      (blockLayers s output block).2 = [] then s
    else underflow s output block

/-- R312: the fetch of a block row ahead of the raster asks for the translations it needs. -/
def fetchAhead (s : State) (o row : Nat) : State :=
  let r := (0, row * 32, outW s o, Nat.min (row * 32 + 32) (outH s o))
  (outOf s o).shown.foldl (fun s l => match laneMem s (crWho l o) (laneAccs (layerReads l r)) with
    | .wait s => s
    | .go _ _ _ => s) s

/-! ### Packets (R319) -/

def txWord (s : State) (o i : Nat) : Word := getReg s (Reg.MP_TXREC (16 * o + i))
def out422 (s : State) (o : Nat) : Bool := rbit s (Reg.CR_OUT_CFG o) 12
def out12 (s : State) (o : Nat) : Bool := rbit s (Reg.CR_OUT_CFG o) 13
/-- Pixels and bytes of a pgroup of ST 2110-20. -/
def pgPixels (s : State) (o : Nat) : Nat := if out422 s o || out12 s o then 2 else 4
def pgBytes (s : State) (o : Nat) : Nat := if out422 s o then (if out12 s o then 6 else 5) else if out12 s o then 9 else 15
def lineBytes (s : State) (o : Nat) : Nat := ceilDiv (outW s o) (pgPixels s o) * pgBytes s o
def outBpm (s : State) (o : Nat) : Bool := bit (txWord s o 0) 28
/-- Payload bytes of a full packet, packets of a line under GPM, and packets of a frame. -/
def fullPay (s : State) (o : Nat) : Nat := if outBpm s o then 1260 else 1200 / pgBytes s o * pgBytes s o
def linePkts (s : State) (o : Nat) : Nat := Nat.max 1 (ceilDiv (lineBytes s o) (fullPay s o))
def framePkts (s : State) (o : Nat) : Nat :=
  if outBpm s o then ceilDiv (lineBytes s o * outH s o) 1260 else outH s o * linePkts s o

/-- First byte and length of packet `i` of a frame. -/
def pktSpan (s : State) (o i : Nat) : Nat × Nat :=
  if outBpm s o then (1260 * i, Nat.min 1260 (lineBytes s o * outH s o - 1260 * i))
  else
    let p := i % linePkts s o * fullPay s o
    (i / linePkts s o * lineBytes s o + p, Nat.min (fullPay s o) (lineBytes s o - p))

/-- Value of channel `c` at a raster position, from the block's words; a position past the line reads 0. -/
def outValue (s : State) (o y x c : Nat) : Num :=
  if outW s o ≤ x then Num.zero false
  else
    let b := (tfind (outOf s o).blocks (y / 32 * blocksWide s o + x / 32)).getD []
    clamp01 (dec32 (b.getD (3 * (y % 32 * 32 + x % 32) + c) 0))

/-- The code of a value. -/
def outCode (s : State) (o : Nat) (v : Num) : Nat :=
  match mul32 v (Num.ofInt (2 ^ (if out12 s o then 12 else 10) - 1)) with
  | .fin n m e => (Num.toInt .rne n m e).toNat
  | _ => 0

/-- The codes of a pgroup in stream order: R, G, B of each pixel, or Cb, Y, Cr, Y of a pair. -/
def pgCodes (s : State) (o y x : Nat) : List Nat :=
  let v := outValue s o y
  if out422 s o then
    let avg := fun c => mul32 (add32 (v x c) (v (x + 1) c)) (.fin false 1 (-1))
    [outCode s o (avg 1), outCode s o (v x 0), outCode s o (avg 2), outCode s o (v (x + 1) 0)]
  else ((List.range (pgPixels s o)).map (fun i => (List.range 3).map (fun c => outCode s o (v (x + i) c)))).flatten

/-- The bytes of a pgroup: codes packed from the most significant bit down. -/
def pgPack (n : Nat) (codes : List Nat) : List Byte :=
  let x := codes.foldl (fun a c => a * 2 ^ n + c % 2 ^ n) 0
  (toLe x (ceilDiv (n * codes.length) 8)).reverse

/-- Payload bytes of a frame from byte `q` on. -/
def payload (s : State) (o q n : Nat) : List Byte :=
  let lb := Nat.max 1 (lineBytes s o)
  let pb := pgBytes s o
  let g0 := q / pb
  let bytes := ((List.range ((q + n - 1) / pb + 1 - g0)).map (fun i =>
    let a := (g0 + i) * pb
    pgPack (if out12 s o then 12 else 10) (pgCodes s o (a / lb) (a % lb / pb * pgPixels s o)))).flatten
  (bytes.drop (q - g0 * pb)).take n

/-- The blocks that a run of payload bytes needs. -/
def spanBlocks (s : State) (o q n : Nat) : List Nat :=
  let lb := Nat.max 1 (lineBytes s o)
  let pb := pgBytes s o
  ((List.range ((q + n - 1) / pb + 1 - q / pb)).map (fun i =>
    let a := (q / pb + i) * pb
    let x := a % lb / pb * pgPixels s o
    a / lb / 32 * blocksWide s o + x / 32)).eraseDups

/-- PACKET_TRANSMIT (R319, R320): the next packet of the frame in progress, once its place in the period has come. One
sent on a port that is off or whose link is down is lost at the MAC. -/
def execPacketTransmit (output : Nat) (s : State) : Out :=
  .next <|
    let o := output
    let x := outOf s o
    let n := framePkts s o
    if x.running = false ∨ outEn s o = false ∨ bit (txWord s o 0) 31 = false ∨ n ≤ x.pkt ∨ genNum s o = 0 ∨
      s.time.cal < x.began + x.pkt * genDen s o * 1000000000 / (genNum s o * n) then s
    else
      let q := pktSpan s o x.pkt
      let s := (spanBlocks s o q.1 q.2).foldl (fun s b => dueBlock s o b) s
      let s := fetchAhead s o (q.1 / Nat.max 1 (lineBytes s o) / 32 + 1)
      let port := rfld s (Reg.CR_OUT_CFG o) 10 2
      let p : TxPkt :=
        { port := port, ts := x.began * 90000 / 1000000000 % 2 ^ 32, marker := x.pkt + 1 == n, pt := bits (txWord s o 0) 0 7, first := q.1
          payload := payload s o q.1 q.2, group := (txWord s o 2).toNat, srcIp := (getReg s (Reg.MP_P_IP port)).toNat, ports := (txWord s o 4).toNat
          ssrc := (txWord s o 5).toNat, dscp := bits (txWord s o 6) 2 6 }
      let up := rbit s (Reg.MP_P_CFG port) 31 && rbit s (Reg.MP_P_STATUS port) 0
      setOut s o { outOf s o with pkt := x.pkt + 1, last := if up then some p else (outOf s o).last }

/-! ### FRAME_BOUNDARY -/

/-- FRAME_BOUNDARY (R327, R308, R319): generator `gen` reaches its next boundary. -/
def execFrameBoundary (gen : Nat) (s : State) : Out :=
  .next <|
    if 8 ≤ gen ∨ genEn s gen = false ∨ s.time.cal < (genOf s gen).due then s
    else
      let n := (genOf s gen).next
      let ev := rfld s (Reg.TM_GEN_CTRL gen) 0 16
      let s := if rbit s (Reg.TM_GEN_CTRL gen) 30 && (evOf s ev).alloc then recordEv s ev (.set false (n % 2 ^ 63)) else s
      let s := if gen < Config.crOutputs s.fuse.variant ∧ outEn s gen = true then fetchAhead (outBoundary s gen n) gen 0 else s
      setGen s gen { next := n + 1, due := boundaryAt s gen (n + 1) }

/-! ### CR_OUTo_CFG (R303, R315, R320) -/

/-- The load of an output on its port as a fraction, in bits per second. -/
def txLoad (s : State) (o : Nat) : Nat × Nat :=
  let pay := if outBpm s o then 1260 else Nat.min (fullPay s o) (lineBytes s o)
  (framePkts s o * (pay + 96) * 8 * genNum s o, Nat.max 1 (genDen s o))

/-- R320: the load of a port is above 95 Gb/s. -/
def txOver (s : State) (port : Nat) : Bool :=
  let os := (List.range (Config.crOutputs s.fuse.variant)).filter (fun o => outEn s o && rfld s (Reg.CR_OUT_CFG o) 10 2 == port)
  let t := os.foldl (fun (a : Nat × Nat) o => let l := txLoad s o; (a.1 * l.2 + l.1 * a.2, a.2 * l.2)) (0, 1)
  decide (95000000000 * t.2 < t.1)

/-- EN is cleared: armed commits complete with OUTPUT_OFF, and no frame is sent. -/
def stopOutput (s : State) (o : Nat) : State :=
  let x := outOf s o
  setOut s o { x with
    armed := [], taken := [], due := x.due ++ (x.armed.map (·.desc) ++ x.taken).map (fun d => failDue s o d St.OUTPUT_OFF)
    latched := none, running := false, blocks := [], pkt := 0 }

/-- EN is set: frames are counted from 0. -/
def startOutput (s : State) (o : Nat) : State :=
  setOut { s with wide := tput 0 s.wide (Reg.CR_OUT_FRAME_LO o) 0 } o { outOf s o with running := false, latched := none, uf := 0, ufLast := 0 }

/-- CR_OUT_CFG_WRITE (R303, R320): a write of CR_OUTo_CFG. -/
def execCrOutCfgWrite (output : Nat) (val : Word) (s : State) : Out :=
  .next <| hostWr s (Reg.CR_OUT_CFG output) fun s =>
    let o := output
    let r := Reg.CR_OUT_CFG o
    let old := getReg s r
    let new := val &&& 0xFFFFFC00
    if Config.crOutputs s.fuse.variant ≤ o then s
    else if bit old 31 then
      if new = setBit old 31 false then stopOutput (putReg s r new) o
      else if !bit old 30 && setBits (setBits new 22 8 0) 30 1 0 == setBits (setBits old 22 8 0) 30 1 0 then putReg s r new
      else setFlag s Reg.CR_ERR 0 true
    else if bit new 31 = false then putReg s r new
    else
      let off := setBit new 31 false
      let heavy := txOver (putReg s r new) (bits new 10 2)
      let gone := !genEn s o
      let fast := genEn s o && !rateOk (genNum s o) (genDen s o) 120
      if heavy || gone || fast then
        let s := putReg s r off
        let s := if heavy then setFlag s Reg.MP_ERR 2 true else s
        let s := if gone then setFlag s Reg.MP_ERR 3 true else s
        if fast then setFlag s Reg.MP_ERR 5 true else s
      else startOutput (putReg s r new) o

end Sys2Proof.Machine
end

