-- ==== Sys2Proof/Machine/WheelChecks.lean ====
section
/-! DEFINITION. The checks of Table WO-4 and the shapes they rest on (R58 to R74): what an operation's record says of
its vectors, slices and wavefronts (R39 to R45). -/

namespace Sys2Proof.Machine

/-! ### Rate classes and slices (R39, R42, R45, R69) -/

/-- The rate class of a record: 8, 4 or 16 bits. -/
def rateOf (r : List Byte) : Nat := ((pairing (rAFmt r) (rWFmt r)).map (·.1)).getD 8
/-- Wavefronts per vector. -/
def wPer (r : List Byte) : Nat := if rateOf r = 16 then 4 else 1
/-- Totalizer entries per vector. -/
def ePer (r : List Byte) : Nat := if rateOf r = 4 then 2 else 1
/-- The weights are FP16 or BF16. -/
def wide16 (r : List Byte) : Bool := rWFmt r == 1 || rWFmt r == 2
/-- Slice load L for `c` active columns. -/
def loadLen (r : List Byte) (c : Nat) : Nat := if wide16 r then c else c / 2
/-- Logical columns of a slice for `c` active columns, and of a weight block. -/
def colsPer (r : List Byte) (c : Nat) : Nat := if rateOf r = 4 then 2 * c else c
def blockCols (r : List Byte) : Nat := if rateOf r = 4 then 512 else 256
/-- Blocks for one column range of one K-pass. -/
def blocksPer (r : List Byte) : Nat := if wide16 r then 2 else 1
/-- K-passes. -/
def passesOf (r : List Byte) : Nat := ceilDiv (rK r) 512

/-- R42, R52, R69: the slices of an operation as (first column, columns): runs of columns within a block, from its
column 0 upward (assumption log 28). -/
def slicesOf (r : List Byte) (c : Nat) : List (Nat × Nat) :=
  let cps := colsPer r c
  let n := rN r
  let nb := if rKind r = 4 then n else blockCols r
  if cps = 0 ∨ nb = 0 then [] else
  ((List.range (ceilDiv n nb)).map (fun b =>
    (List.range (ceilDiv nb cps)).filterMap (fun k =>
      let first := b * nb + k * cps
      if first < n then some (first, Nat.min cps (nb - k * cps)) else none))).flatten

/-- Vectors of an M-tile, slices interleaved, M-tiles and slice groups (R42). -/
def mTile (r : List Byte) (m : Nat) : Nat := Nat.min m (2048 / ePer r)
def interleave (r : List Byte) (c m : Nat) : Nat := Nat.min (slicesOf r c).length (2048 / ePer r / mTile r m)

/-- R45: W with L0 taken as zero. -/
def opW (r : List Byte) (c m : Nat) : Nat :=
  if m = 0 then 0
  else
    let mt := mTile r m
    let s := interleave r c m
    let n := (slicesOf r c).length
    let p := passesOf r
    let w := wPer r
    let group (mg sg : Nat) : Nat :=
      let ws := Nat.max (mg * w) (loadLen r c)
      p * sg * ws + (p - 1) * (520 * w - sg * ws)
    let tile (mg : Nat) : Nat := n / s * group mg s + (if n % s = 0 then 0 else group mg (n % s))
    m / mt * tile mt + (if m % mt = 0 then 0 else tile (m % mt)) + w * (512 + c) + 16

/-! ### Shapes (R61 to R66) -/

/-- Footprint of a vector. -/
def fhOf (r : List Byte) : Nat := if rKind r = 3 then rPH r + (rKH r - 1) * rDY r else (rPH r - 1) * rSY r + (rKH r - 1) * rDY r + 1
def fwOf (r : List Byte) : Nat := if rKind r = 3 then rPW r + (rKW r - 1) * rDX r else (rPW r - 1) * rSX r + (rKW r - 1) * rDX r + 1
/-- Half the kernel's reach. -/
def ryOf (r : List Byte) : Nat := (rKH r - 1) * rDY r / 2
def rxOf (r : List Byte) : Nat := (rKW r - 1) * rDX r / 2

/-- Output blocks of a tile: rows and columns. -/
def blockRows (r : List Byte) (o : Img) : Nat := (o.th + 2 * rOutApron r) / rPH r
def blockColsOf (r : List Byte) (o : Img) : Nat := (o.tw + 2 * rOutApron r) / rPW r
/-- M per tile (Table WO-3). -/
def mPer (r : List Byte) (o : Img) : Nat := if rKind r = 4 then rMY r * rMX r else blockRows r o * blockColsOf r o

/-- Element format and channels that the feed reads an image as (R140); none for one it may not read. -/
def actView (b : Img) : Option (Nat × Nat) :=
  if b.cls = 0 then (if b.samples = 1 then colourView b.format else none)
  else if 3 ≤ b.cls then some (b.format, b.channels) else none

/-- One axis of the reach of R62: stride, dilation reach, footprint, blocks, tile size and aprons. -/
def reachOk (deconv : Bool) (s ry fh ph blocks th ain aout : Nat) : Bool :=
  let first : Int := if deconv then -(aout : Int) - ry else -((aout * s : Nat) : Int) - ry
  let lastO : Int := ((blocks - 1) * ph : Nat) - (aout : Int)
  let last : Int := (if deconv then lastO else lastO * s) - ry + fh - 1
  if deconv then decide (-((s * ain : Nat) : Int) ≤ first) && decide (last ≤ s * ((th + ain : Nat) - 1 : Int))
  else decide (-(ain : Int) ≤ first) && decide (last ≤ ((th + ain : Nat) : Int) - 1)

/-- Check 6 of Table WO-4 for a tile operation. -/
def tileShapeOk (r : List Byte) (imgs : List Img) (perTile : Bool) : Bool :=
  let a := imgs.getD (rAImage r) []
  let o := imgs.getD (rOutImage r) []
  let t := imgs.getD (rWImage r) []
  let ain := rAApron r
  let aout := rOutApron r
  let in_ := fun (lo hi n : Nat) => decide (lo ≤ n) && decide (n ≤ hi)
  let chan := fun (b : Img) (n : Nat) => match actView b with
    | some v => v.2 == n
    | none => true
  let aprons := (a.apron == 0 || decide (ain ≤ a.apron)) && o.apron == aout && decide (ain ≤ 16) && decide (aout ≤ 16) &&
    (decide (ain ≤ a.apron) || (decide (ain ≤ a.th) && decide (ain ≤ a.tw)))
  if rKind r = 4 then
    perTile && aprons && aout == 0 && o.th == rMY r && o.tw == rMX r && rK r == rWH r * rWW r * rCC r && rN r == rNTY r * rNTX r &&
    in_ 1 64 (rNTX r) && in_ 1 64 (rNTY r) && in_ 1 64 (rTSX r) && in_ 1 64 (rTSY r) && in_ 1 255 (rMX r) && in_ 1 255 (rMY r) &&
    in_ 1 16 (rDSX r) && in_ 1 16 (rDSY r) && in_ 1 64 (rCC r) && in_ 1 64 (rWW r) && in_ 1 64 (rWH r) && o.channels == rN r &&
    (match actView a with
      | some v => decide (rCC r ≤ v.2)
      | none => true) &&
    (match actView t with
      | some v => decide (rCC r ≤ v.2)
      | none => true) &&
    decide (rTY0 r + (rNTY r - 1) * rTSY r + rWH r ≤ t.th) && decide (rTX0 r + (rNTX r - 1) * rTSX r + rWW r ≤ t.tw) &&
    decide (-(ain : Int) ≤ rBY0 r) && decide (rBY0 r + ((rMY r - 1) * rDSY r + rWH r : Nat) ≤ (a.th + ain : Nat)) &&
    decide (-(ain : Int) ≤ rBX0 r) && decide (rBX0 r + ((rMX r - 1) * rDSX r + rWW r : Nat) ≤ (a.tw + ain : Nat))
  else
    let p2 := fun n => n == 1 || n == 2 || n == 4
    let dims := p2 (rPH r) && p2 (rPW r) && in_ 1 4 (rDX r) && in_ 1 4 (rDY r) && in_ 1 2 (rSX r) && in_ 1 2 (rSY r) &&
      in_ 1 7 (rKW r) && in_ 1 7 (rKH r) && in_ 1 4096 (rCIN r) && in_ 1 4096 (rCOUT r)
    dims && aprons && chan a (rCIN r) && o.channels == rCOUT r &&
    (if rKind r = 1 then
      rK r == rCIN r && rN r == rCOUT r && o.th == a.th && o.tw == a.tw && decide (aout ≤ ain) && rPH r == 1 && rPW r == 1 &&
      rKH r == 1 && rKW r == 1 && rSY r == 1 && rSX r == 1 && rDY r == 1 && rDX r == 1
    else
      rK r == fhOf r * fwOf r * rCIN r && rN r == rPH r * rPW r * rCOUT r &&
      (if rKind r = 2 then a.th == o.th * rSY r && a.tw == o.tw * rSX r else o.th == a.th * rSY r && o.tw == a.tw * rSX r) &&
      (o.th + 2 * aout) % rPH r == 0 && (o.tw + 2 * aout) % rPW r == 0 &&
      reachOk (rKind r == 3) (rSY r) (ryOf r) (fhOf r) (rPH r) (blockRows r o) a.th ain aout &&
      reachOk (rKind r == 3) (rSX r) (rxOf r) (fwOf r) (rPW r) (blockColsOf r o) a.tw ain aout)

/-! ### Checks 3 to 8 -/

/-- Check 3: reserved and unused fields of a record are zero (R60, R64). -/
def recordOk (r : List Byte) : Bool :=
  natBits (rW0 r) 27 5 == 0 && rEdge r != 3 && decide (rKind r ≤ 4) && natBits (leAt r 0x38 4) 5 3 == 0 && natBits (leAt r 0x38 4) 13 3 == 0 &&
  natBits (leAt r 0x3C 4) 8 24 == 0 && leAt r 0x54 44 == 0 &&
  (if rKind r = 0 then rEdge r == 0 && leAt r 0x30 0x24 == 0
   else if rKind r = 4 then leAt r 0xC 4 == 0 && leAt r 0x30 8 == 0
   else rWImage r == 0 && leAt r 0x40 0x14 == 0)

/-- Check 7 (R69). -/
def blocksOk (r : List Byte) (m : Model) : Bool :=
  rKind r == 4 || (rBlockCount r == passesOf r * ceilDiv (rN r) (blockCols r) * blocksPer r && decide (rFirstBlock r + rBlockCount r ≤ m.blocks))

/-- Offsets from PBASE are multiples of 64 (R60). -/
def offsOk (r : List Byte) : Bool :=
  rScaleOff r % 64 == 0 && rBiasOff r % 64 == 0 && rWscaleOff r % 64 == 0 && rActOff r % 64 == 0

/-- Checks 1 and 2: the model and the record of an issue. -/
def findRecord (s : State) (c model idx : Nat) : Except Nat (Model × List Byte) :=
  match modelOf s model with
  | none => .error St.BAD_MODEL
  | some m =>
    if m.ctx ≠ c then .error St.BAD_MODEL
    else if m.ops ≤ idx then .error St.BAD_OP_INDEX
    else .ok (m, (m.list.drop (128 * idx)).take 128)

/-- Checks 4, 5 and 7, which both paths share, around the path's own checks 3, 6 and 8. -/
def checkRecord (r : List Byte) (m : Model) (c3 c6 c8 : Bool) : Option Nat :=
  if (recordOk r && c3) = false then some St.BAD_OPERAND
  else if (fmtOk (rAFmt r) && fmtOk (rWFmt r) && fmtOk (rOutFmt r)) = false then some St.BAD_FORMAT
  else match pairing (rAFmt r) (rWFmt r) with
    | none => some St.BAD_PAIRING
    | some (_, ok) =>
      if rBscale r ∧ ok = false then some St.BAD_PAIRING
      else if (decide (1 ≤ rK r) && decide (rK r ≤ 65536) && decide (1 ≤ rN r) && decide (rN r ≤ 65536) && c6) = false then some St.BAD_SHAPE
      else if blocksOk r m = false then some St.BAD_BLOCKS
      else if (offsOk r && c8) = false then some St.BAD_OPERAND
      else none

/-- Check 8 for a tile operation: its images (R71, R74, R140). -/
def tileImagesOk (r : List Byte) (imgs : List Img) : Bool :=
  let a := imgs.getD (rAImage r) []
  let o := imgs.getD (rOutImage r) []
  let t := imgs.getD (rWImage r) []
  let fmtIs := fun (b : Img) f => match actView b with
    | some v => v.1 == f
    | none => false
  decide (rAImage r < imgs.length) && decide (rOutImage r < imgs.length) && rOutImage r != rAImage r && fmtIs a (rAFmt r) &&
  decide (3 ≤ o.cls) && o.format == rOutFmt r && (!rBscale r || rAUnit r) &&
  (rKind r != 4 || (decide (rWImage r < imgs.length) && rOutImage r != rWImage r && fmtIs t (rWFmt r)))

/-- Check 9: conversion parameters as read (Table NF-5). -/
def convOk (r : List Byte) (act : Option (List Word)) : Option Nat :=
  let lo := dec32 (rClipMin r)
  let hi := dec32 (rClipMax r)
  if 1 < rScaleMode r ∨ rBiasMode r = 3 then some St.BAD_CONVERT
  else if rActEn r ∧ ((act.map actOk).getD false) = false then some St.BAD_ACT_TABLE
  else if lo.isNan ∨ hi.isNan ∨ Num.lt hi lo = true then some St.BAD_CLIP
  else none

end Sys2Proof.Machine
end

