-- ==== Sys2Proof/Machine/Wheel.lean ====
section
/-! DEFINITION. Operations reach the Great Wheel (R56 to R59, R72, R73) and are chosen by it (R44, R240, R241). -/

namespace Sys2Proof.Machine

def gwOp (s : State) (id : Nat) : Option GwOp := tfind s.gw.ops id
def setGwOp (s : State) (id : Nat) (o : GwOp) : State := { s with gw := { s.gw with ops := tset s.gw.ops id o } }

/-- Active columns C. -/
def activeCols (s : State) : Nat := 16 * rfld s Reg.GW_SPARE_USE 15 5

/-- An operation added to those the Great Wheel holds. -/
def addGwOp (s : State) (o : GwOp) : State :=
  let id := s.gw.nextOp
  setGwOp { s with gw := { s.gw with nextOp := id + 1 } } id o

/-- An operation refused, or stopped before it runs, with a status. -/
def refuseOp (o : GwOp) (code : Nat) : GwOp := { o with refusal := some code, phase := .ended }

/-! ### WHEEL_OP (R58, R59, R72) -/

/-- R58, R70: check 8 for a MATMUL from a descriptor. -/
def matmulAddrOk (d : Desc) (r : List Byte) : Bool :=
  let sa := leAt d.bytes 0x14 2
  let so := leAt d.bytes 0x16 2
  vaOk 64 (bodyVal d 0x20 8) && vaOk 64 (bodyVal d 0x28 8) && vaOk 64 (bodyVal d 0x30 8) && vaOk 64 (leAt d.bytes 0x38 8) &&
  decide (1 ≤ sa) && decide (1 ≤ so) && decide (packedBytes (rAFmt r) (rK r) ≤ 64 * sa) && decide (packedBytes (rOutFmt r) (rN r) ≤ 64 * so)

/-- The operation of a started WHEEL_OP, its checks made. -/
def wheelOp (s : State) (id : Nat) (d : Desc) : GwOp :=
  let w := leAt d.bytes 0x10 4
  let model := w % 4096
  let idx := natBits w 12 16
  let o : GwOp :=
    { desc := some id, ctx := d.ctx, ring := d.ring, model := model, opIndex := idx, m := bodyVal d 0x18 8, aAddr := bodyVal d 0x20 8
      outAddr := bodyVal d 0x28 8, aScale := bodyVal d 0x30 8, aStride := leAt d.bytes 0x14 2, outStride := leAt d.bytes 0x16 2
      compl := if vaOk 64 (leAt d.bytes 0x38 8) then leAt d.bytes 0x38 8 else 0 }
  if d.indBad then refuseOp o St.BAD_OPERAND
  else if d.indFault then refuseOp o St.IN_FAULT
  else match findRecord s d.ctx model idx with
    | .error c => refuseOp o c
    | .ok (m, r) =>
      let o := { o with oprec := r, need := rFirstBlock r + blocksPer r }
      match checkRecord r m (rKind r == 0 && decide (bodyVal d 0x18 8 < 2 ^ 32)) true (matmulAddrOk d r && (!rBscale r || rAUnit r || vaOk 64 (bodyVal d 0x30 8))) with
      | some c => refuseOp o c
      | none => o

/-- WHEEL_OP (R72): steps 4 and 5 for a started descriptor. -/
def execWheelOp (desc : Nat) (s : State) : Out :=
  .next <| match startedDesc s desc Op.WHEEL_OP with
  | none => s
  | some d =>
    if s.gw.ops.any (fun p => p.2.desc == some desc) then s
    else addGwOp s (wheelOp s desc d)

/-! ### NETWORK_PASS_ISSUE (R57, R73) -/

/-- The issue after one in a pass: operation, tile, entry, unit (R57). -/
def nextIssue (p : RPass) (at_ : Nat × Nat × Nat × Nat) : Nat × Nat × Nat × Nat :=
  let (u, t, e, j) := at_
  let ent := p.nets.getD e []
  if j + 1 < neCount ent then (u, t, e, j + 1)
  else if nePerTile ent ∧ t + 1 < (unitTiles p u).length then (u, t + 1, e, 0)
  else if e + 1 < p.nets.length then (u, 0, e + 1, 0)
  else (u + 1, 0, 0, 0)

/-- The operation of an issue, its checks made. -/
def issueOp (s : State) (id : Nat) (p : RPass) : GwOp :=
  let (u, t, e, j) := p.netAt
  let ent := p.nets.getD e []
  let tiles := if nePerTile ent then [(unitTiles p u).getD t 0] else unitTiles p u
  let idx := neFirst ent + j
  let o : GwOp :=
    { pass := id, unit := u, entry := e, jpos := j, ctx := p.ctx, ring := p.ring, model := neModel ent, opIndex := idx, tiles := tiles
      compl := if neRecord ent = 0 then 0 else neRecord ent + 64 * (u * neCount ent + j) }
  match findRecord s p.ctx (neModel ent) idx with
  | .error c => refuseOp o c
  | .ok (m, r) =>
    let o := { o with oprec := r, m := tiles.length * mPer r (p.imgs.getD (rOutImage r) []), need := if rKind r = 4 then 0 else rFirstBlock r + blocksPer r }
    match checkRecord r m (rKind r != 0) (tileShapeOk r p.imgs (nePerTile ent)) (tileImagesOk r p.imgs) with
    | some c => refuseOp o c
    | none => o

/-- NETWORK_PASS_ISSUE (R57, R73): the next operation of a pass's stream, once its unit's raster phase has ended and
the issue before it has been selected. -/
def execNetworkPassIssue (pass : Nat) (s : State) : Out :=
  .next <| match passOf s pass with
  | none => s
  | some p =>
    let waiting := s.gw.ops.any (fun o => o.2.desc.isNone && o.2.pass == pass &&
      (o.2.phase == .params || o.2.phase == .blocks || o.2.phase == .eligible))
    if p.phase ≠ .run ∨ p.final = false ∨ p.nets = [] ∨ waiting = true ∨ p.rastUnits.contains p.netAt.1 = false then s
    else
      let o := issueOp s pass p
      addGwOp (setPass s pass { p with netAt := nextIssue p p.netAt }) o

/-! ### OPERATION_PARAMETER_READ (R27, R28, R72) -/

/-- The words of an array of `n` bytes. -/
def wordsOf (b : List Byte) : List Word := (List.range (b.length / 4)).map (fun i => BitVec.ofNat 32 (leAt b (4 * i) 4))

/-- R72, step 8: an operation past its checks waits for its model's blocks, whose admission it demands (R84); one of a
failed model is refused (R97). -/
def awaitBlocks (s : State) (id : Nat) (o : GwOp) : State :=
  match modelOf s o.model with
  | none => setGwOp s id (refuseOp o St.BAD_MODEL)
  | some m =>
    if rKind o.oprec = 4 then setGwOp s id { o with phase := .blocks }
    else if m.failed && !isResident m && !s.ba.queue.any (fun a => a.model == o.model) then setGwOp s id (refuseOp o St.LOAD_FAILED)
    else wakeOps (requestModel (setGwOp s id { o with phase := .blocks }) o.model)

/-- OPERATION_PARAMETER_READ (R72, steps 6 and 7): per-column arrays and the activation table, through stream 3. -/
def execOperationParameterRead (op : Nat) (s : State) : Out :=
  .next <| match gwOp s op with
  | none => s
  | some o =>
    if o.phase ≠ .params then s
    else
      let r := o.oprec
      let base := ((modelOf s o.model).map (·.pbase)).getD 0
      let arr (on : Bool) (off n : Nat) : List Acc := if on then [{ va := base + off, len := n, kind := 0 }] else []
      let accs := arr (rScaleMode r == 1) (rScaleOff r) (4 * rN r) ++ arr (rBiasMode r == 2) (rBiasOff r) (4 * rN r) ++ arr (rActEn r) (rActOff r) 192
      let w : Who := { stream := 3, ctx := o.ctx, eng := 0, ring := some o.ring }
      withMem s w accs
        (fun s m =>
          let rd (on : Bool) (off n : Nat) : List Word := if on then wordsOf (vaRd s false m (base + off) n) else []
          let act := if rActEn r then some (rd true (rActOff r) 192) else none
          let bad := accs.foldl (fun b a => if b ≠ 0 then b else vaPoison s m a.va a.len) 0
          let o := { o with scales := rd (rScaleMode r == 1) (rScaleOff r) (4 * rN r), biases := rd (rBiasMode r == 2) (rBiasOff r) (4 * rN r), act := act }
          let o := if bad = 0 then o else { o with fails := o.fails ++ [if bad = 2 then St.CACHE_ECC else St.MEMORY_ECC] }
          match convOk r act with
          | some c => setGwOp s op (refuseOp o c)
          | none => awaitBlocks s op o)
        (fun s _ => setGwOp s op (refuseOp o St.IN_FAULT))

/-! ### GW_SELECT (R44, R240, R241) -/

/-- R109: a tile of an image is complete for an issue: a geometry image by the end of its unit's raster phase, one that
issues write by the order of the stream; EXTERNAL images wait on rows. -/
def tileDone (p : RPass) (k i : Nat) : Bool :=
  decide (3 ≤ Img.cls (p.imgs.getD k [])) || p.rastUnits.contains (unitOf p i)

/-- R44: CORRELATE operations whose template tile is complete become eligible. -/
def wakeTemplates (s : State) : State :=
  makeEligible s ((s.gw.ops.filter (fun x => x.2.phase == .blocks && rKind x.2.oprec == 4 &&
    (match passOf s x.2.pass with
    | some p =>
      let k := rWImage x.2.oprec
      let b : Img := p.imgs.getD k []
      let ty := x.2.tiles.headD 0 / p.gx
      x.2.tiles.all (tileDone p k) && (!Img.external b || decide (Img.extBase b + ty + 1 ≤ (evOf s (Img.extEvent b)).count))
    | none => true))).map (·.1))

/-- R240: the candidate of a context. -/
def gwCand (s : State) (c : Nat) : Option (Nat × GwOp) :=
  (s.gw.ops.filter (fun p => p.2.phase == .eligible && p.2.ctx == c)).foldl (fun b p => match b with
    | none => some p
    | some q => if p.2.eligAt < q.2.eligAt ∨ (p.2.eligAt = q.2.eligAt ∧ p.2.ring < q.2.ring) then some p else some q) none

/-- The next context after `x`, ascending and wrapping, that has a candidate. -/
def nextCand (s : State) (x : Nat) : Option Nat :=
  nextWrap (fun c => (gwCand s c).isSome) ((x + 1) % 256) 256

/-- R241: the loop of the selection: each turn grants, and selects where the deficit is positive. -/
def dwrr (s : State) : Nat → Option (State × Nat × GwOp)
  | 0 => none
  | n + 1 =>
    let x := s.sched.cur
    let c := ctxOf s x
    let c := if c.grant then { c with deficit := c.deficit + 4096 * c.weight, grant := false } else c
    match gwCand s x with
    | some (id, o) =>
      if 0 < c.deficit then
        some (setCtx s x { c with deficit := c.deficit - opW o.oprec (activeCols s) o.m }, id, o)
      else
        match nextCand s x with
        | none => none
        | some y =>
          let s := setCtx s x c
          dwrr { setCtx s y { ctxOf s y with grant := true } with sched := { s.sched with cur := y } } n
    | none =>
      match nextCand s x with
      | none => none
      | some y =>
        let s := setCtx s x { ctxOf s x with deficit := min (ctxOf s x).deficit 0 }
        dwrr { setCtx s y { ctxOf s y with grant := true } with sched := { s.sched with cur := y } } n

/-- R49: the pattern test of an active group is due. -/
def testDue (s : State) : Bool :=
  rbit s Reg.GW_CONFIG 16 && isDue s 1 (Nat.max 1 (rfld s Reg.GW_CONFIG 0 16) * 1000000)

/-- Wavefronts that the running operation still has to run. -/
def wavesLeft (s : State) : Nat :=
  match s.gw.run.bind (gwOp s) with
  | some o => o.l0 + opW o.oprec (16 * o.groups) o.m - o.w
  | none => 0

/-- R44: the array is at a selection point: no next operation is committed, and the running one, if any, has entered
its last slice. -/
def atSelection (s : State) : Bool :=
  s.gw.sel.isNone && !fnNotReady s Fun.GREAT_WHEEL && (match s.gw.run.bind (gwOp s) with
    | some o => o.lastSlice
    | none => !testDue s && s.gw.faulty.isEmpty)

/-- GW_SELECT (R44, R76, R240, R241): the next operation is committed, and its model's recency renewed (R91). One
with no vectors ends at once. -/
def execGwSelect (s : State) : Out :=
  .next <|
    let s := wakeTemplates s
    if atSelection s = false ∨ rfld s Reg.GW_SPARE_USE 15 5 = 0 then s
    else match dwrr s (2 ^ 64) with
      | none => s
      | some (s, id, o) =>
        let k := s.ba.clock + 1
        let s := match modelOf s o.model with
          | some m => setModel { s with ba := { s.ba with clock := k } } o.model { m with recency := k }
          | none => s
        let g := rfld s Reg.GW_SPARE_USE 15 5
        if o.m = 0 then setGwOp s id { o with phase := .ended, groups := g }
        else
          let l0 := loadLen o.oprec (16 * g) - wavesLeft s
          setGwOp { s with gw := { s.gw with sel := some id } } id { o with phase := .selected, groups := g, l0 := l0, gap := l0 }

end Sys2Proof.Machine
end

