-- ==== Sys2Proof/Machine/WheelFeed.lean ====
section
/-! DEFINITION. The feed, the slices and the output of the Great Wheel: pixels and patches (R62, R64, R65), rows in
memory (R70, R71), weights (R69, R79) and where results go (R63, R64, R70). -/

namespace Sys2Proof.Machine

/-! ### Pixels (R65) -/

/-- A coordinate outside `[0, n)` brought into it: replicate, or one reflection and then replicate. -/
def edgePos (edge n : Nat) (y : Int) : Nat :=
  let y := if edge = 2 then (if y < 0 then -y else if n ≤ y then 2 * ((n : Int) - 1) - y else y) else y
  if y < 0 then 0 else if (n : Int) ≤ y then n - 1 else y.toNat

/-- R65: the raw element at position (y, x) of a tile, channel c. -/
def pixelRaw (s : State) (p : RPass) (k tile : Nat) (fmt edge : Nat) (y x : Int) (c : Nat) : Nat :=
  let b : Img := p.imgs.getD k []
  let fy := (tile / p.gx * b.th : Nat) + y
  let fx := (tile % p.gx * b.tw : Nat) + x
  let out := decide (fy < 0) || decide ((b.frameH : Int) ≤ fy) || decide (fx < 0) || decide ((b.frameW : Int) ≤ fx)
  if out ∧ edge = 1 then 0
  else
    let gy := edgePos edge b.frameH fy
    let gx := edgePos edge b.frameW fx
    let ty : Int := gy - (tile / p.gx * b.th : Nat)
    let tx : Int := gx - (tile % p.gx * b.tw : Nat)
    let a : Int := b.apron
    let here := decide (-a ≤ ty) && decide (ty < b.th + a) && decide (-a ≤ tx) && decide (tx < b.tw + a)
    let n := fmtBits fmt / 8
    let t := if here then tile else gy / b.th * p.gx + gx / b.tw
    let py := if here then (ty + a).toNat else gy % b.th + b.apron
    let px := if here then (tx + a).toNat else gx % b.tw + b.apron
    leNat (tileRd s p.ctx b t (b.byteAt 0 py px 0 + c * n) n)

/-! ### Vectors of a tile operation (R62, R64, R66) -/

/-- Where vector `m` of an issue lies: its tile, and its row and column among the tile's output blocks or windows. -/
def vecAt (o : GwOp) (p : RPass) (m : Nat) : Nat × Nat × Nat :=
  let r := o.oprec
  let g : Img := p.imgs.getD (rOutImage r) []
  let per := Nat.max 1 (mPer r g)
  let cols := Nat.max 1 (if rKind r = 4 then rMX r else blockColsOf r g)
  (o.tiles.getD (m / per) 0, m % per / cols, m % per % cols)

/-- The source of element `k` of a vector: row, column and channel of the input tile, or none for an inserted zero. -/
def elemSrc (r : List Byte) (v : Nat × Nat × Nat) (k : Nat) : Option (Int × Int × Nat) :=
  if rKind r = 4 then
    let f := k / rCC r
    some (rBY0 r + (v.2.1 * rDSY r + f / rWW r : Nat), rBX0 r + (v.2.2 * rDSX r + f % rWW r : Nat), k % rCC r)
  else
    let oy : Int := (v.2.1 * rPH r : Nat) - (rOutApron r : Int)
    let ox : Int := (v.2.2 * rPW r : Nat) - (rOutApron r : Int)
    if rKind r = 1 then some (oy, ox, k)
    else
      let f := k / rCIN r
      let fy := f / fwOf r
      let fx := f % fwOf r
      if rKind r = 2 then some (oy * rSY r - ryOf r + fy, ox * rSX r - rxOf r + fx, k % rCIN r)
      else
        let y : Int := oy - ryOf r + fy
        let x : Int := ox - rxOf r + fx
        if y % rSY r = 0 ∧ x % rSX r = 0 then some (y / rSY r, x / rSX r, k % rCIN r) else none

/-- Elements of K-pass `p`: the first and how many. -/
def passElems (r : List Byte) (p : Nat) : Nat × Nat := (512 * p, Nat.min 512 (rK r - 512 * p))

/-- The raw elements of a vector in a K-pass, with whether each is delivered by the feed. -/
def tileVec (s : State) (o : GwOp) (p : RPass) (m pass : Nat) : List (Nat × Bool) :=
  let r := o.oprec
  let v := vecAt o p m
  (List.range (passElems r pass).2).map (fun i => match elemSrc r v (512 * pass + i) with
    | some (y, x, c) => (pixelRaw s p (rAImage r) v.1 (rAFmt r) (rEdge r) y x c, true)
    | none => (0, false))

/-- R67: a channel width that takes two feed handshakes. -/
def oddWidth (r : List Byte) : Bool :=
  let n := (if rKind r = 4 then rCC r else rCIN r) * fmtBits (rAFmt r) / 8
  rKind r != 0 && n != 1 && n != 2 && n % 4 != 0

/-- Tiles of the input image that an issue needs for a tile: the tile, and its neighbours when it reads beyond the
stored apron. -/
def tilesNeeded (r : List Byte) (p : RPass) (tile : Nat) : List Nat :=
  if Img.apron (p.imgs.getD (rAImage r) []) < rAApron r then tile :: around p tile else [tile]

/-- The tiles of an image that a vector needs are complete (R65, R109). A failed or stale row of an EXTERNAL image
sends the pass to its drain. A pass no longer rendering waits for nothing. -/
def tilesReady (s : State) (o : GwOp) (p : RPass) (k : Nat) (ts : List Nat) : State × Bool :=
  if p.phase ≠ .run then (s, true)
  else
    let b : Img := p.imgs.getD k []
    let ign := ((tfind s.esc.descs o.pass).map (fun d => hIgnErr d.bytes)).getD false
    ts.foldl (fun (acc : State × Bool) t =>
      if tileDone p k t = false then (acc.1, false)
      else if Img.external b = false then acc
      else
        let row := t / p.gx
        let q := awaitEv acc.1 3 o.pass (k * 65536 + row + 1) o.ctx (Img.extEvent b) ((Img.extBase b + row + 1) % 2 ^ 63)
        match q.2 with
        | .pending => (q.1, false)
        | .met => (q.1, acc.2)
        | .err => (if ign then q.1 else enterDrain q.1 o.pass St.DEPENDENCY_ERROR, acc.2)
        | .gone => (enterDrain q.1 o.pass St.BAD_EVENT, acc.2)) (s, true)

/-! ### MATMUL operands (R70, R71) -/

/-- SW of R71. -/
def scaleStride (r : List Byte) : Nat := 64 * ceilDiv (ceilDiv (rK r) 32) 64

/-- Where the part of activation row `m` for a K-pass begins, and its bytes. -/
def rowPart (o : GwOp) (m pass : Nat) : Nat × Nat :=
  let e := passElems o.oprec pass
  (o.aAddr + 64 * o.aStride * m + packedBytes (rAFmt o.oprec) e.1, packedBytes (rAFmt o.oprec) e.2)

/-- Activation scales of row `m` for a K-pass: none are read where they are taken as 0x7F. -/
def scalePart (o : GwOp) (m pass : Nat) : Nat × Nat :=
  if rBscale o.oprec && !rAUnit o.oprec then (o.aScale + m * scaleStride o.oprec + 16 * pass, ceilDiv (passElems o.oprec pass).2 32)
  else (0, 0)

/-- Free bytes. -/
def freeBytes (s : State) (n : Nat) : List Byte := (List.range n).map (fun i => Config.freeBits 8 (s.free + i))

/-- Bytes read for an operation, with what poison they met; poisoned data is undefined, so free values stand for it. -/
def cleanRd (s : State) (m : PageMap) (va n : Nat) : State × List Byte × Nat :=
  let bad := vaPoison s m va n
  if bad = 0 then (s, vaRd s false m va n, 0) else ({ s with free := s.free + n }, freeBytes s n, bad)

/-- The status that poison gives (R429). -/
def poisonFails (bad : Nat) : List Nat := if bad = 0 then [] else [if bad = 2 then St.CACHE_ECC else St.MEMORY_ECC]

/-! ### Slices (R42, R43, R69, R79) -/

/-- Slices of the operation's group `sg`, and their number. -/
def groupLen (o : GwOp) (sg : Nat) : Nat :=
  let c := 16 * o.groups
  let s := Nat.max 1 (interleave o.oprec c o.m)
  Nat.min s ((slicesOf o.oprec c).length - sg * s)

/-- The columns of a slice: first and count. -/
def sliceCols (o : GwOp) (sg j : Nat) : Nat × Nat :=
  let c := 16 * o.groups
  (slicesOf o.oprec c).getD (sg * Nat.max 1 (interleave o.oprec c o.m) + j) (0, 0)

/-- Vectors of M-tile `mt`. -/
def tileVecs (o : GwOp) (mt : Nat) : Nat := Nat.min (mTile o.oprec o.m) (o.m - mt * mTile o.oprec o.m)

/-- The slice after one in the order of R42. -/
def nextSlice (o : GwOp) (q : GwPos) : Option GwPos :=
  let c := 16 * o.groups
  let s := Nat.max 1 (interleave o.oprec c o.m)
  if q.j + 1 < groupLen o q.sg then some { mt := q.mt, sg := q.sg, p := q.p, j := q.j + 1 }
  else if q.p + 1 < passesOf o.oprec then some { mt := q.mt, sg := q.sg, p := q.p + 1 }
  else if (q.sg + 1) * s < (slicesOf o.oprec c).length then some { mt := q.mt, sg := q.sg + 1 }
  else if (q.mt + 1) * mTile o.oprec o.m < o.m then some { mt := q.mt + 1 }
  else none

/-- The place of the next slice to be loaded; none once the last is loaded. -/
def toLoad (o : GwOp) : Option GwPos :=
  if o.shadow.isSome then none
  else match o.active with
    | none => some {}
    | some a => nextSlice o { mt := a.mt, sg := a.sg, p := a.p, j := a.j }

/-- First block of a slice (R69). -/
def sliceBlock (o : GwOp) (q : GwPos) : Nat :=
  let r := o.oprec
  rFirstBlock r + ((sliceCols o q.sg q.j).1 / blockCols r * passesOf r + q.p) * blocksPer r

/-- The frame that holds a block of a model. -/
def frameOfBlock (s : State) (model block : Nat) : Option Nat :=
  (s.ba.frames.find? (fun p => p.2.model == model + 1 && p.2.block == block)).map (·.1)

/-- R79: the weight of a row and a logical column of its block. -/
def weightAt (s : State) (model block : Nat) (r : List Byte) (row col : Nat) : Nat :=
  let cell := if rateOf r = 4 then col / 2 else col
  let byte := fun b => match frameOfBlock s model b with
    | some f => (tget (0 : Byte) s.ba.bytes (f * 131072 + 8192 * (cell / 16) + 16 * row + cell % 16)).toNat
    | none => 0
  if rateOf r = 4 then natBits (byte block) (4 * (col % 2)) 4
  else if wide16 r then byte block + 256 * byte (block + 1)
  else byte block

/-- The elements of a weight slice, every row of the array, row by row. -/
def weightSlice (s : State) (o : GwOp) (q : GwPos) : List Nat :=
  let r := o.oprec
  let c := sliceCols o q.sg q.j
  ((List.range 512).map (fun row => (List.range c.2).map (fun j =>
    weightAt s o.model (sliceBlock o q) r row (c.1 % blockCols r + j)))).flatten

/-- R64: the elements of a template slice. -/
def templateSlice (s : State) (o : GwOp) (p : RPass) (q : GwPos) : List Nat :=
  let r := o.oprec
  let c := sliceCols o q.sg q.j
  ((List.range (passElems r q.p).2).map (fun row =>
    let k := 512 * q.p + row
    let f := k / rCC r
    (List.range c.2).map (fun j =>
      let n := c.1 + j
      pixelRaw s p (rWImage r) (o.tiles.headD 0) (rWFmt r) (rEdge r) (rTY0 r + n / rNTX r * rTSY r + f / rWW r : Nat)
        (rTX0 r + n % rNTX r * rTSX r + f % rWW r : Nat) (k % rCC r)))).flatten

/-! ### Accumulation and output (R25, R41, R63, R64) -/

/-- The integer of an integral accumulator. -/
def numInt : Num → Int
  | .fin n m e => Num.toInt .rtz n m e
  | _ => 0

/-- R25: the running sum of one column carried through one K-pass. -/
def dotFrom (fa fw : Nat) (scaled : Bool) (start : Num × Bool) (els : List (Nat × Nat × Nat × Nat)) : Num × Bool :=
  if fp32Class fa fw scaled then
    (accF start.1 (els.map (fun x =>
      if scaled then scaleProd (Num.mul (scaledElem fa x.1) (scaledElem fw x.2.1)) x.2.2.1 x.2.2.2
      else Num.mul (loadFmt fa x.1) (loadFmt fw x.2.1))), false)
  else
    let val := fun c w => match ifmtOf c with
      | some (b, sg) => iload b sg w
      | none => 0
    let r := accI (numInt start.1, start.2) (els.map (fun x => val fa x.1 * val fw x.2.1))
    (Num.ofInt r.1, r.2)

/-- The conversion of a column (R27, Table NF-5). -/
def convOf (o : GwOp) (n : Nat) : Conv :=
  let r := o.oprec
  { fmt := rOutFmt r, scale := if rScaleMode r = 1 then o.scales.getD n 0 else rScale r
    bias := if rBiasMode r = 0 then none else some (if rBiasMode r = 2 then o.biases.getD n 0 else rBias r)
    act := o.act, clipMin := rClipMin r, clipMax := rClipMax r, rnd := if rRtz r then .rtz else .rne, ieee := rIeee r }

/-- Where column `n` of a vector goes in its output tile: row and column of the stored region, and channel. -/
def outAt (r : List Byte) (v : Nat × Nat × Nat) (n : Nat) : Nat × Nat × Nat :=
  if rKind r = 4 then (v.2.1, v.2.2, n)
  else
    let b := n / rCOUT r
    (v.2.1 * rPH r + b / rPW r, v.2.2 * rPW r + b % rPW r, n % rCOUT r)

/-- Results of a vector written into its output tile. -/
def tileOut (s : State) (o : GwOp) (p : RPass) (m n0 : Nat) (es : List Nat) : State :=
  let r := o.oprec
  let b : Img := p.imgs.getD (rOutImage r) []
  let v := vecAt o p m
  let k := fmtBits (rOutFmt r) / 8
  ((List.range es.length).zip es).foldl (fun s x =>
    let a := outAt r v (n0 + x.1)
    tileWr s p.ctx b v.1 (b.byteAt 0 a.1 a.2.1 0 + a.2.2 * k) (toLe x.2 k)) s

/-- Columns of a slice that the operation has (R69). -/
def realCols (o : GwOp) (c : Nat × Nat) : Nat := Nat.min c.2 (rN o.oprec - c.1)

/-- Where a slice's columns of output row `m` lie, and their bytes. -/
def outPart (o : GwOp) (m : Nat) (c : Nat × Nat) : Nat × Nat :=
  (o.outAddr + 64 * o.outStride * m + packedBytes (rOutFmt o.oprec) c.1, packedBytes (rOutFmt o.oprec) (realCols o c))

end Sys2Proof.Machine
end

