-- ==== Sys2Proof/Machine/WheelRun.lean ====
section
/-! DEFINITION. An operation's run on the array (R39 to R47, R67, R68) and its completion (R50, R75, R429). -/

namespace Sys2Proof.Machine

def gwWho (o : GwOp) (stream : Nat) : Who := { stream := stream, ctx := o.ctx, eng := 0, ring := some o.ring }

/-! ### SLICE_LOAD (R42, R43, R69, R71) -/

/-- The blocks of a slice are resident; a template is by R44. -/
def sliceIn (s : State) (o : GwOp) (q : GwPos) : Bool :=
  rKind o.oprec == 4 || (match modelOf s o.model with
    | some m => decide (sliceBlock o q + blocksPer o.oprec ≤ m.resident)
    | none => false)

/-- Reads of a slice's weight scales, one run for each column. -/
def scaleReads (s : State) (o : GwOp) (q : GwPos) : List (Nat × Nat) :=
  let r := o.oprec
  if rBscale r = false then []
  else
    let base := ((modelOf s o.model).map (·.pbase)).getD 0
    let c := sliceCols o q.sg q.j
    (List.range (realCols o c)).map (fun i =>
      (base + rWscaleOff r + (c.1 + i) * scaleStride r + 16 * q.p, ceilDiv (passElems r q.p).2 32))

/-- The slice at a place put into the shadow registers. -/
def fillShadow (s : State) (id : Nat) (o : GwOp) (q : GwPos) : State :=
  let rs := scaleReads s o q
  match laneMem s (gwWho o 3) (laneAccs ((rs.map (fun x => pageCuts x.1 x.2 0)).flatten)) with
  | .wait s => s
  | .go s pm bad =>
    let step (a : State × List Nat × Nat) (x : Nat × Nat) : State × List Nat × Nat :=
      let r := cleanRd a.1 pm x.1 x.2
      (r.1, a.2.1 ++ ((padTo 16 r.2.1).map (·.toNat)), if a.2.2 = 0 then r.2.2 else a.2.2)
    let z := rs.foldl step (dropArrived s 3 o.ctx, [], 0)
    let elems := if rKind o.oprec = 4 then (match passOf s o.pass with
        | some p => templateSlice s o p q
        | none => []) else weightSlice s o q
    let sl : Slice := { mt := q.mt, sg := q.sg, p := q.p, j := q.j, elems := elems, scales := z.2.1 }
    let o := { o with
      shadow := some sl
      inFlush := satTo 0xFFFFFFFF (o.inFlush + (elems.filter (flushes (rWFmt o.oprec))).length)
      fails := o.fails ++ (if bad = [] then [] else [St.IN_FAULT]) ++ poisonFails z.2.2
      loadsDone := (nextSlice o q).isNone }
    releaseHeld (setGwOp z.1 id o)

/-- The operation whose slice is loaded next: the running one until its last slice is loaded, then the selected one. -/
def loadCand (s : State) : Option (Nat × GwOp × GwPos) :=
  let next (id : Option Nat) : Option (Nat × GwOp × GwPos) :=
    id.bind (fun i => (gwOp s i).bind (fun o => (toLoad o).map (fun q => (i, o, q))))
  match s.gw.run.bind (gwOp s) with
  | some o => if o.lastSlice then next s.gw.sel else next s.gw.run
  | none => next s.gw.sel

/-- SLICE_LOAD (R43): the next slice in the order of R42. -/
def execSliceLoad (s : State) : Out :=
  .next <| match loadCand s with
  | none => s
  | some (id, o, q) => if sliceIn s o q then fillShadow s id o q else s

/-! ### WAVEFRONT (R42, R43, R45, R47) -/

/-- The selected operation starts once the array is free, no group awaits repair and no test is due (R51, R54). -/
def startSel (s : State) : State :=
  match s.gw.run, s.gw.sel with
  | none, some id =>
    match gwOp s id with
    | none => s
    | some o =>
      if (fenceStatus s o.ctx 0).isSome then setGwOp { s with gw := { s.gw with sel := none } } id { o with phase := .ended, shadow := none }
      else if s.gw.faulty ≠ [] ∨ testDue s then s
      else setGwOp { s with gw := { s.gw with run := some id, sel := none } } id { o with phase := .running, groups := rfld s Reg.GW_SPARE_USE 15 5 }
  | _, _ => s

/-- R45: a wavefront of an operation is counted. -/
def countWave (s : State) (id : Nat) (o : GwOp) : State :=
  let s := setGwOp s id { o with w := o.w + 1 }
  tickFor (addWide { s with gw := { s.gw with stepped := s.gw.stepped + 1, stall := 0 } } Reg.GW_TICKS_LO 1) o.ctx 0

/-- R47: a wavefront that waits is counted in one stall counter: 1 feed, 2 output, 3 load. -/
def stallOn (s : State) (id k : Nat) : State :=
  let s := { s with gw := { s.gw with stall := k } }
  let s := countReg s (if k = 1 then Reg.GW_STALL_FEED else if k = 2 then Reg.GW_STALL_OUT else Reg.GW_STALL_LOAD) 32 1
  match gwOp s id with
  | none => s
  | some o => setGwOp s id { o with
      stallFeed := satTo 0xFFFFFFFF (o.stallFeed + b2n (k == 1)), stallOut := satTo 0xFFFFFFFF (o.stallOut + b2n (k == 2))
      stallLoad := satTo 0xFFFFFFFF (o.stallLoad + b2n (k == 3)) }

/-- The running operation has left the array. -/
def endOnArray (s : State) (id : Nat) (o : GwOp) : State :=
  setGwOp { s with gw := { s.gw with run := none, stall := 0 } } id { o with phase := .ended, shadow := none, active := none }

/-- The vector that enters at a place, counted over the operation. -/
def vecNo (o : GwOp) (q : GwPos) : Nat := q.mt * mTile o.oprec o.m + q.v

/-- R65, R67, R73: the feed has the vector. -/
def feedReady (s : State) (id : Nat) (o : GwOp) (q : GwPos) : State × Bool :=
  if rKind o.oprec = 0 then
    let a := rowPart o (vecNo o q) q.p
    let c := scalePart o (vecNo o q) q.p
    match laneMem s (gwWho o 1) (laneAccs (pageCuts a.1 a.2 0 ++ pageCuts c.1 c.2 0)) with
    | .wait s => (s, false)
    | .go _ _ _ => (s, true)
  else match passOf s o.pass with
    | none => (s, true)
    | some p =>
      if s.gw.ops.any (fun x => x.2.desc.isNone && x.2.pass == o.pass && decide (x.1 < id)) then (s, false)
      else
        let r := tilesReady s o p (rAImage o.oprec) (tilesNeeded o.oprec p (vecAt o p (vecNo o q)).1)
        if r.2 = true ∧ oddWidth o.oprec = true ∧ o.fed = false then (setGwOp r.1 id { o with fed := true }, false) else r

/-- R68, R110: the output path takes the vector's results. -/
def outReady (s : State) (o : GwOp) (q : GwPos) : State × Bool :=
  if q.p + 1 < passesOf o.oprec then (s, true)
  else if rKind o.oprec = 0 then
    let a := outPart o (vecNo o q) (sliceCols o q.sg q.j)
    match laneMem s (gwWho o 2) (laneAccs (pageCuts a.1 a.2 1)) with
    | .wait s => (s, false)
    | .go _ _ _ => (s, true)
  else match passOf s o.pass with
    | none => (s, true)
    | some p => (s, decide (p.phase ≠ .run) || bufFree p (imgsNbr p.imgs (passOps s p.ctx p.nets)) (rOutImage o.oprec) (vecAt o p (vecNo o q)).1)

/-- The vector's elements for a K-pass with their scales, the state after their reads, and the failures met. -/
def readVec (s : State) (o : GwOp) (q : GwPos) : State × List (Nat × Bool) × List Nat × List Nat :=
  let r := o.oprec
  let m := vecNo o q
  if rKind r = 0 then
    let a := rowPart o m q.p
    let c := scalePart o m q.p
    match laneMem s (gwWho o 1) (laneAccs (pageCuts a.1 a.2 0 ++ pageCuts c.1 c.2 0)) with
    | .wait s => (s, [], [], [])
    | .go s pm bad =>
      let x := cleanRd s pm a.1 a.2
      let y := cleanRd x.1 pm c.1 c.2
      (dropArrived y.1 1 o.ctx, (List.range (passElems r q.p).2).map (fun i => (elemAt (rAFmt r) x.2.1 i, true)), y.2.1.map (·.toNat),
        (if bad = [] then [] else [St.IN_FAULT]) ++ poisonFails (if x.2.2 = 0 then y.2.2 else x.2.2))
  else match passOf s o.pass with
    | none => (s, [], [], [])
    | some p =>
      let c := tileCode s p.ctx (p.imgs.getD (rAImage r) []) (vecAt o p m).1
      (if c = 0 then s else noteFail s o.pass c, tileVec s o p m q.p, [], [])

/-! ### Overlapping MATMUL operands (R74) -/

/-- A byte lies in an array of rows. -/
def inRows (base stride rows bytes va : Nat) : Bool :=
  decide (base ≤ va) && decide ((va - base) / Nat.max 1 stride < rows) && decide ((va - base) % Nat.max 1 stride < bytes)

/-- A byte of context memory holds an activation or a scale that the operation reads. -/
def operandAt (s : State) (o : GwOp) (va : Nat) : Bool :=
  let r := o.oprec
  let scaleBytes := ceilDiv (rK r) 32
  inRows o.aAddr (64 * o.aStride) o.m (packedBytes (rAFmt r) (rK r)) va ||
  (rBscale r && !rAUnit r && inRows o.aScale (scaleStride r) o.m scaleBytes va) ||
  (rBscale r && inRows (((modelOf s o.model).map (·.pbase)).getD 0 + rWscaleOff r) (scaleStride r) (rN r) scaleBytes va)

/-- Bytes of the smallest whole run of output elements. -/
def outUnit (r : List Byte) : Nat := if rOutFmt r = 5 then 3 else Nat.max 1 (fmtBits (rOutFmt r) / 8)

/-- A run of output bytes cut into whole elements, each with whether it overlaps an operand: those are undefined. -/
def outUnits (s : State) (o : GwOp) (va n : Nat) : List (Nat × Nat × Bool) :=
  let k := outUnit o.oprec
  (List.range (ceilDiv n k)).map (fun i =>
    let c := Nat.min k (n - k * i)
    (va + k * i, c, (List.range c).any (fun j => operandAt s o (va + k * i + j))))

/-- A row of results written, but for the elements that overlap an operand. -/
def writeRow (s : State) (o : GwOp) (m : PageMap) (va : Nat) (d : List Byte) : State :=
  let us := outUnits s o va d.length
  if us.all (fun u => !u.2.2) then vaWr s false (gwWho o 2) m va d
  else us.foldl (fun s u => if u.2.2 then s else vaWr s false (gwWho o 2) m u.1 ((d.drop (u.1 - va)).take u.2.1)) s

/-- The output elements of the vectors run that overlap an operand: address and bytes. -/
def overlapRuns (s : State) (o : GwOp) : List (Nat × Nat) :=
  if rKind o.oprec = 0 then
    ((List.range o.ran).map (fun m =>
      ((outUnits s o (o.outAddr + 64 * o.outStride * m) (packedBytes (rOutFmt o.oprec) (rN o.oprec))).filter (·.2.2)).map
        (fun u => (u.1, u.2.1)))).flatten
  else []

/-- A vector enters a slice: its sums in every column are carried through the K-pass, and after the last they are
converted and written. -/
def runVec (s : State) (id : Nat) (o : GwOp) (q : GwPos) (sl : Slice) : State :=
  let r := o.oprec
  let m := vecNo o q
  let x := readVec s o q
  let s := x.1
  let cols := sliceCols o q.sg q.j
  let last := decide (passesOf r ≤ q.p + 1)
  let scaled := rBscale r
  let els (j : Nat) : List (Nat × Nat × Nat × Nat) := ((List.range x.2.1.length).zip x.2.1).map (fun e =>
    (e.2.1, sl.elems.getD (e.1 * cols.2 + j) 0, if rAUnit r then 0x7F else x.2.2.1.getD (e.1 / 32) 0, sl.scales.getD (j * 16 + e.1 / 32) 0))
  let sum (j : Nat) : Num × Bool :=
    dotFrom (rAFmt r) (rWFmt r) scaled (if q.p = 0 then (Num.zero false, false) else tget (Num.zero false, false) o.tot (q.v * 131072 + cols.1 + j)) (els j)
  let js := List.range (realCols o cols)
  let flush := (x.2.1.filter (fun e => e.2 && flushes (rAFmt r) e.1)).length
  let o := { o with
    fed := false, ran := Nat.max o.ran (m + 1), fails := o.fails ++ x.2.2.2, inFlush := satTo 0xFFFFFFFF (o.inFlush + flush) }
  if last = false then
    let tot : Tbl (Num × Bool) := js.foldl (fun t j => tset t (q.v * 131072 + cols.1 + j) (sum j)) o.tot
    setGwOp s id { o with tot := tot }
  else
    let res := js.map (fun j => let a := sum j; convert (convOf o (cols.1 + j)) a.1 a.2)
    let cs := res.foldl (fun (c : Census) y => c.plus y.2) { sat := o.sat, inFlush := o.inFlush, outFlush := o.outFlush, nan := o.nan }
    let o := { o with sat := cs.sat, outFlush := cs.outFlush, nan := cs.nan }
    let es := res.map (·.1)
    if rKind r = 0 then
      let a := outPart o m cols
      match laneMem s (gwWho o 2) (laneAccs (pageCuts a.1 a.2 1)) with
      | .wait s => setGwOp s id o
      | .go s pm bad =>
        setGwOp (writeRow s o pm a.1 (packElems (rOutFmt r) es)) id { o with fails := o.fails ++ (if bad = [] then [] else [St.OUT_FAULT]) }
    else match passOf s o.pass with
      | none => setGwOp s id o
      | some p =>
        let c := tileCode s p.ctx (p.imgs.getD (rOutImage r) []) (vecAt o p m).1
        tileOut (setGwOp (if c = 0 then s else noteFail s o.pass c) id o) o p m cols.1 es

/-- R42, R45: the place after a wavefront, with the empty wavefronts that follow it. -/
def advance (o : GwOp) : GwOp :=
  let r := o.oprec
  let q := o.pos
  let w := wPer r
  let c := 16 * o.groups
  let mg := tileVecs o q.mt
  if q.sub + 1 < w then { o with pos := { q with sub := q.sub + 1 } }
  else if q.v + 1 < mg then { o with pos := { q with v := q.v + 1, sub := 0 } }
  else
    let ws := Nat.max (mg * w) (loadLen r c)
    let loop := if q.j + 1 = groupLen o q.sg ∧ q.p + 1 < passesOf r then 520 * w - groupLen o q.sg * ws else 0
    match nextSlice o q with
    | some q' => { o with pos := q', gap := ws - mg * w + loop }
    | none => { o with gap := ws - mg * w + w * (512 + c) + 16, drained := true }

/-- R97, Table WO-7: blocks that the next slice needs will not become resident. -/
def loadLost (s : State) (o : GwOp) : Bool := !sliceIn s o o.pos && !s.ba.queue.any (fun a => a.model == o.model)

/-- A fault shown on a wavefront (R49): 1 weight parity, 2 a corrected Totalizer error, 3 a double one. -/
def gwFault (s : State) (id fault group : Nat) : State :=
  if fault = 2 then countReg s Reg.GW_TOT_CORRECTED 32 1
  else if fault = 1 ∨ fault = 3 then
    match gwOp s id with
    | none => s
    | some o =>
      if o.groups ≤ group then s
      else
        let s := setFlag s Reg.GW_ERR (if fault = 1 then 1 else 2) true
        let f := if s.gw.faulty.contains group then s.gw.faulty else s.gw.faulty ++ [group]
        setGwOp { s with gw := { s.gw with faulty := f } } id { o with badGroups := if o.badGroups.contains group then o.badGroups else o.badGroups ++ [group] }
  else s

/-- A slice is loaded for the vector at the operation's place. -/
def loadReady (o : GwOp) : Bool :=
  let is (x : Option Slice) : Bool := match x with
    | some a => a.mt == o.pos.mt && a.sg == o.pos.sg && a.p == o.pos.p && a.j == o.pos.j
    | none => false
  if o.pos.v = 0 then is o.shadow else is o.active

/-- The first vector of a slice swaps the shadow registers in (R43). -/
def swapIn (o : GwOp) : GwOp :=
  if o.pos.v = 0 then { o with active := o.shadow, shadow := none, lastSlice := o.lastSlice || (nextSlice o o.pos).isNone } else o

/-- One wavefront of the running operation. -/
def waveOf (s : State) (id : Nat) (o : GwOp) (fault group : Nat) : State :=
  if 0 < o.gap then
    let s := countWave s id { o with gap := o.gap - 1 }
    let s := gwFault s id fault group
    match gwOp s id with
    | some o => if o.gap = 0 ∧ o.drained then endOnArray s id o else s
    | none => s
  else if 0 < o.pos.sub then gwFault (countWave s id (advance o)) id fault group
  else
    let f := feedReady s id o o.pos
    if f.2 = false then stallOn f.1 id 1
    else
      let t := outReady f.1 o o.pos
      if t.2 = false then stallOn t.1 id 2
      else if loadReady o = false then
        if loadLost s o then endOnArray t.1 id { o with fails := o.fails ++ [St.LOAD_FAILED] } else stallOn t.1 id 3
      else
        let o := swapIn o
        let s := runVec (setGwOp t.1 id o) id o o.pos (o.active.getD { mt := 0, sg := 0, p := 0, j := 0, elems := [], scales := [] })
        match gwOp s id with
        | some o => gwFault (countWave s id (advance o)) id fault group
        | none => s

/-- WAVEFRONT (R45, R47): one wavefront, or one wait of it; `fault` and `group` tell what fault it shows. -/
def execWavefront (fault group : Nat) (s : State) : Out :=
  .next <|
    let s := startSel s
    match s.gw.run with
    | none => s
    | some id => match gwOp s id with
      | none => s
      | some o => waveOf s id o fault group

/-! ### GW_OPERATION_COMPLETE (R50, R75, R76, R429) -/

/-- R429: the first failure of the list that an operation met. -/
def firstFail (fence : Option Nat) (o : GwOp) : Nat :=
  let has (l : List Nat) : Option Nat := o.fails.find? l.contains
  (fence <|> has [St.MODEL_GONE] <|> has [St.LOAD_FAILED, St.QUOTA_EXCEEDED] <|> (if o.badGroups = [] then none else some St.GW_CELL_FAULT) <|>
    has [St.BARREL_ECC] <|> has [St.PLATE_ECC] <|> has [St.MEMORY_ECC, St.CACHE_ECC] <|> has [St.IN_FAULT] <|> has [St.OUT_FAULT]).getD St.SUCCESS

/-- The status an operation completes with: the refusal of a check, or the order of R429. -/
def opStatus (s : State) (o : GwOp) : Nat :=
  match o.refusal with
  | some c => if o.fails.contains c then firstFail (fenceStatus s o.ctx 0) o else c
  | none => firstFail (fenceStatus s o.ctx 0) o

/-- Table WO-6. GROUPS of an operation that was never selected is G at its completion. -/
def opRecord (s : State) (o : GwOp) (st : Nat) : List Byte :=
  toLe (st + o.opIndex * 2 ^ 16) 4 ++ toLe (o.model + o.ctx * 2 ^ 16 + (if o.groups = 0 then rfld s Reg.GW_SPARE_USE 15 5 else o.groups) * 2 ^ 24) 4 ++ toLe o.w 8 ++ toLe o.stallFeed 4 ++ toLe o.stallOut 4 ++
  toLe o.stallLoad 4 ++ toLe o.ran 4 ++ toLe o.sat 4 ++ toLe o.inFlush 4 ++ toLe o.outFlush 4 ++ toLe o.nan 4 ++ toLe o.unit 4 ++ toLe 0 4 ++ toLe (calTime s) 8

/-- Columns whose outputs are undefined, as runs of logical columns: those of faulty groups in every slice (R50), and
of slices that met a Barrel error (R98). -/
def spoiledCols (o : GwOp) : List (Nat × Nat) :=
  let r := o.oprec
  let g := if rateOf r = 4 then 32 else 16
  let all := slicesOf r (16 * o.groups)
  let cut (c : Nat × Nat) : Nat × Nat := (c.1, Nat.min c.2 (rN r - c.1))
  ((all.map (fun c => o.badGroups.map (fun b => cut (c.1 + g * b, Nat.min g (c.2 - g * b))))).flatten ++
    o.badCols.map (fun b => cut (sliceCols o b.1 b.2))).filter (fun c => decide (0 < c.2))

/-- Undefined outputs of a tile operation: free values in the spoiled columns of every vector. -/
def spoilTiles (s : State) (o : GwOp) (p : RPass) : State :=
  (List.range o.m).foldl (fun s m => (spoiledCols o).foldl (fun (s : State) c =>
    let k := fmtBits (rOutFmt o.oprec) / 8
    tileOut { s with free := s.free + c.2 * k } o p m c.1 ((List.range c.2).map (fun i => leNat ((freeBytes s (c.2 * k)).drop (k * i) |>.take k)))) s) s

/-- What is read of one spoiled run of a row: its address and bytes. -/
def spoiledRuns (o : GwOp) : List (Nat × Nat) :=
  ((List.range o.m).map (fun m => (spoiledCols o).map (fun c =>
    (o.outAddr + 64 * o.outStride * m + packedBytes (rOutFmt o.oprec) c.1, packedBytes (rOutFmt o.oprec) c.2)))).flatten

/-- An issue is the last of its unit's network phase. -/
def lastOfUnit (o : GwOp) (p : RPass) : Bool :=
  let e := p.nets.getD o.entry []
  decide (p.nets.length ≤ o.entry + 1) && decide (neCount e ≤ o.jpos + 1) && (!nePerTile e || o.tiles.getLastD 0 == (unitTiles p o.unit).getLastD 0)

/-- The operation leaves the Great Wheel. -/
def dropOp (s : State) (id : Nat) : State :=
  releaseHeld { s with gw := { s.gw with ops := tdel s.gw.ops id, sel := if s.gw.sel = some id then none else s.gw.sel } }

/-- The end of an operation, its undefined outputs in place. -/
def closeOp (s : State) (id : Nat) (o : GwOp) (st : Nat) : State :=
  match o.desc with
  | some d =>
    match tfind s.esc.descs d with
    | none => dropOp s id
    | some x =>
      let rec_ := if o.compl = 0 then none else some (o.compl, opRecord s o st)
      endDesc (setDesc (dropOp s id) d { x with record := rec_ }) d st
  | none =>
    let done (s : State) : State :=
      let s := if st = St.SUCCESS then s else noteFail s o.pass st
      let s := dropOp s id
      match passOf s o.pass with
      | some p => if lastOfUnit o p && p.phase == .run then setPass s o.pass { p with netUnits := p.netUnits ++ [o.unit] } else s
      | none => s
    if o.compl = 0 then done s
    else
      let w : Who := { gwWho o 0 with eng := ((passOf s o.pass).map (fun p => 16 + p.lead)).getD 0 }
      withMem s w [{ va := o.compl, len := 64, kind := 1 }]
        (fun s m => done (vaWr s true w m o.compl (opRecord s o st)))
        (fun s _ => done (noteFail s o.pass St.OUT_FAULT))

/-- The operation can end: it has run or was stopped, or a fence ends it before it runs. -/
def opEnds (s : State) (o : GwOp) : Bool := o.phase == .ended || (o.phase != .running && (fenceStatus s o.ctx 0).isSome)

/-- GW_OPERATION_COMPLETE (R50, R75, R429). -/
def execGwOperationComplete (op : Nat) (s : State) : Out :=
  .next <| match gwOp s op with
  | none => s
  | some o =>
    if opEnds s o = false then s
    else
      let st := opStatus s o
      let lapped := overlapRuns s o
      if o.ran = 0 ∨ (spoiledCols o = [] ∧ lapped = []) then closeOp s op o st
      else if rKind o.oprec = 0 then
        let rs := spoiledRuns o ++ lapped
        match laneMem s (gwWho o 2) (laneAccs ((rs.map (fun x => pageCuts x.1 x.2 1)).flatten)) with
        | .wait s => s
        | .go s pm _ =>
          let s := rs.foldl (fun (s : State) x => vaWr { s with free := s.free + x.2 } false (gwWho o 2) pm x.1 (freeBytes s x.2)) s
          closeOp s op { o with badGroups := [], badCols := [] } st
      else match passOf s o.pass with
        | some p => closeOp (spoilTiles s o p) op o st
        | none => closeOp s op o st

end Sys2Proof.Machine
end

