-- ==== Sys2Proof/Machine/WheelRepair.lean ====
section
/-! DEFINITION. Pattern tests, repair and rate of the Great Wheel (R46, R49 to R53). -/

namespace Sys2Proof.Machine

/-! ### The steering map (GW_GROUP_MAP, GW_SPARE_USE, GW_GROUP_HEALTH) -/

def activeGroups (s : State) : Nat := rfld s Reg.GW_SPARE_USE 15 5
def mapReg (l : Nat) : Nat := if l < 6 then Reg.GW_GROUP_MAP0 else if l < 12 then Reg.GW_GROUP_MAP1 else Reg.GW_GROUP_MAP2
/-- Physical group of a logical group. -/
def physOf (s : State) (l : Nat) : Nat := rfld s (mapReg l) (5 * (l % 6)) 5
def setPhys (s : State) (l p : Nat) : State := setFld s (mapReg l) (5 * (l % 6)) 5 p
/-- Physical groups that carry operations, by logical number. -/
def usedGroups (s : State) : List Nat := (List.range (activeGroups s)).map (physOf s)
def groupRetired (s : State) (p : Nat) : Bool := rbit s Reg.GW_GROUP_HEALTH p
/-- Healthy spares, ascending. -/
def gwSpares (s : State) : List Nat :=
  (List.range Config.gwPhys).filter (fun p => !groupRetired s p && !(usedGroups s).contains p)

/-- A physical group is retired and kept in the settings block. -/
def retireGroup (s : State) (p : Nat) : State :=
  let s := setFlag s Reg.GW_GROUP_HEALTH p true
  retainedDirty (setFld s Reg.GW_SPARE_USE 0 5 (rfld s Reg.GW_SPARE_USE 0 5 + 1))

/-- AVAILABLE follows the spares. -/
def syncSpares (s : State) : State := setFld s Reg.GW_SPARE_USE 10 5 (gwSpares s).length

/-- Test wavefronts, which GW_RATE counts and GW_TICKS does not (R49). -/
def testWaves (s : State) : State := { s with gw := { s.gw with stepped := s.gw.stepped + 1024 } }

/-! ### PATTERN_TEST, SPARE_TEST_FAILURE (R49) -/

/-- PATTERN_TEST (R49): at an operation boundary, once the interval has passed; `pass` tells whether the signature
is the fixed one. -/
def execPatternTest (pass : Bool) (s : State) : Out :=
  .next <|
    if s.gw.run.isSome ∨ testDue s = false ∨ fnNotReady s Fun.GREAT_WHEEL = true ∨ activeGroups s = 0 then s
    else
      let l := s.gw.testGroup % activeGroups s
      let s := markDone (testWaves s) 1
      let s := { s with gw := { s.gw with testGroup := (l + 1) % activeGroups s } }
      if pass ∨ s.gw.faulty.contains l = true then s
      else setFlag { s with gw := { s.gw with faulty := s.gw.faulty ++ [l] } } Reg.GW_ERR 0 true

/-- SPARE_TEST_FAILURE (R49): a healthy spare fails its background test and is retired. -/
def execSpareTestFailure (phys : Nat) (s : State) : Out :=
  .next <|
    if (gwSpares s).contains phys then setFlag (syncSpares (retireGroup s phys)) Reg.GW_ERR 0 true else s

/-! ### GROUP_REPAIR (R51, R52) -/

/-- The selected operation's load is discarded, to be repeated with the groups now active (R51, R54). -/
def dropShadow (s : State) : State :=
  match s.gw.sel with
  | none => s
  | some id => match gwOp s id with
    | none => s
    | some o => setGwOp s id { o with shadow := none, loadsDone := false, groups := activeGroups s }

/-- The lowest faulty logical group. -/
def lowFaulty (s : State) : Option Nat :=
  s.gw.faulty.foldl (fun b l => match b with
    | none => some l
    | some x => some (Nat.min x l)) none

/-- R51: a spare takes the logical number. -/
def swapGroup (s : State) (l sp : Nat) : State :=
  let old := physOf s l
  let s := retireGroup (setPhys s l sp) old
  let s := syncSpares (setFld s Reg.GW_SPARE_USE 5 5 (rfld s Reg.GW_SPARE_USE 5 5 + 1))
  let s := { s with gw := { s.gw with faulty := s.gw.faulty.filter (· != l) } }
  dropShadow (chrono s Chr.GW_GROUP_RETIRED none Fun.GREAT_WHEEL old l)

/-- R52: no spare remains; the logical numbering closes up over the healthy groups. -/
def degradeGw (s : State) (l : Nat) : State :=
  let old := physOf s l
  let bad := (s.gw.faulty.filter (· != l)).map (physOf s)
  let s := retireGroup s old
  let live := (List.range Config.gwPhys).filter (fun p => !groupRetired s p)
  let g := live.length
  let s := (List.range 16).foldl (fun s k => setPhys s k (live.getD k 0x1F)) s
  let s := setFlag (setFld s Reg.GW_SPARE_USE 15 5 g) Reg.GW_SPARE_USE 20 true
  let s := { s with gw := { s.gw with faulty := (List.range g).filter (fun k => bad.contains (physOf s k)) } }
  let s := dropShadow (chrono s Chr.GW_DEGRADED none Fun.GREAT_WHEEL g 0)
  if g = 0 then fenceFn s Fun.GREAT_WHEEL 3 else s

/-- GROUP_REPAIR (R51, R52): the lowest faulty logical group is replaced while no operation holds the array; `pass`
tells whether the spare passes its pattern test. -/
def execGroupRepair (pass : Bool) (s : State) : Out :=
  .next <| match s.gw.run, lowFaulty s with
  | none, some l =>
    match gwSpares s with
    | [] => degradeGw s l
    | sp :: _ =>
      let s := testWaves s
      if pass then swapGroup s l sp else setFlag (syncSpares (retireGroup s sp)) Reg.GW_ERR 0 true
  | _, _ => s

/-! ### FORGET (R53, R386), GW_RATE -/

/-- GW_STATUS.IDLE. -/
def gwIdle (s : State) : Bool := s.gw.run.isNone && s.gw.sel.isNone && s.gw.faulty.isEmpty

/-- The Great Wheel's repair history is forgotten, or the write is ignored while it is not idle. -/
def forgetGw (s : State) : State :=
  if gwIdle s then
    let s := setFld s Reg.GW_SPARE_USE 0 10 0
    let f : Copy := { s.bu.forgiven with gwRetired := rfld s Reg.GW_GROUP_HEALTH 0 (Config.gwEnabled s.fuse.variant) }
    retainedDirty { s with bu := { s.bu with forgot := s.bu.forgot ||| 1, forgiven := f } }
  else setFlag s Reg.GW_ERR 3 true

/-- FORGET (R53): a write of GW_REPAIR_CTRL. -/
def execForget (val : Word) (s : State) : Out :=
  .next (hostWr s Reg.GW_REPAIR_CTRL fun s => if bit val 0 then forgetGw s else s)

/-- GW_RATE_SAMPLE (R55): each millisecond of the timebase, the wavefronts stepped over the time in which the array
was stepping. -/
def execGwRateSample (stepNs : Nat) (s : State) : Out :=
  .next <|
    if isDue s 5 1000000 then
      let r := if stepNs = 0 then 0 else s.gw.stepped * 1000 / stepNs
      let s := setFld s Reg.GW_RATE 0 16 (satTo 0xFFFF r)
      markDone { s with gw := { s.gw with stepped := 0 } } 5
    else s

end Sys2Proof.Machine
end

