-- ==== Sys2Proof/Machine/Resets.lean ====
section
/-! DEFINITION. What each reset clears (Table BU-2), function fences and function resets (R384, R395 to R397), and the
resets that stand alone: FLR, PIN and REMONTOIRE. -/

namespace Sys2Proof.Machine

/-! ### One function cleared (Table BU-2) -/

/-- Health and retirement registers, kept by an FLR and by a function reset. -/
def healthReg (off : Nat) : Bool :=
  [Reg.GW_SPARE_USE, Reg.GW_GROUP_MAP0, Reg.GW_GROUP_MAP1, Reg.GW_GROUP_MAP2, Reg.GW_GROUP_HEALTH, Reg.BA_HEALTHY,
   Reg.PL_HEALTHY, Reg.PL_FREE, Reg.PN_ACTIVE].contains off ||
  (decide (Reg.PN_HEALTH0 ≤ off) && decide (off ≤ Reg.PN_HEALTH3)) ||
  (decide (Reg.CA_WAY_HEALTH 0 ≤ off) && decide (off < Reg.CA_WAY_HEALTH 16))

/-- Registers of function `n` at their reset values, health apart. -/
def clearFnRegs (s : State) (n : Nat) : State :=
  { s with
    regs := s.regs.filter (fun p => blockFn p.1 != some n || healthReg p.1)
    wide := s.wide.filter (fun p => blockFn p.1 != some n) }

/-- R98: the Barrel's contents are empty; models stay registered, and frames keep their health. -/
def emptyBarrel (s : State) : State :=
  let fs := (s.ba.frames.map (fun (p : Nat × Frame) => (p.1, { p.2 with model := 0, block := 0 }))).filter (fun p => decide (p.2 ≠ {}))
  { s with ba :=
      { frames := fs, models := s.ba.models.map (fun (p : Nat × Model) => (p.1, { p.2 with resident := 0, pinned := false }))
        nextModel := s.ba.nextModel, clock := s.ba.clock } }

/-- Lanes with their health alone. -/
def idleLanes (s : State) : Tbl Lane :=
  (s.df.lanes.map (fun (p : Nat × Lane) => (p.1, ({ retired := p.2.retired, dbl := p.2.dbl } : Lane)))).filter (fun p => decide (p.2 ≠ {}))

/-- The stores of a function at their reset contents (FUNCTION column of Table BU-2); health and contexts stay. -/
def clearFnStore (s : State) (n : Nat) : State :=
  if n = Fun.BARREL then emptyBarrel s
  else if n = Fun.PLATE then { s with pl := { s.pl with bytes := [], rdata := [] } }
  else if n = Fun.GREAT_WHEEL then { s with gw := { testGroup := s.gw.testGroup, faulty := s.gw.faulty } }
  else if n = Fun.BINNER then { s with ra := { s.ra with bins := [] } }
  else if n = Fun.TILE_ENGINES then { s with ra := { s.ra with passes := [], units := [] } }
  else if n = Fun.PINIONS then { s with pn := { s.pn with disps := [], wgs := [], idleSince := [] } }
  else if n = Fun.DEFLATE then { s with df := { lanes := idleLanes s } }
  else if n = Fun.CRYSTAL then { s with cr := {} }
  else if n = Fun.MEDIA then { s with mp := {} }
  else if n = Fun.FABRIC then { s with nl := { roleOpt := s.nl.roleOpt, acting := s.nl.roleOpt, tx := s.nl.tx } }
  else if n = Fun.CHRONOGRAPH then { s with ch := { s.ch with buckets := [] } }
  else s

/-- A function's state cleared. -/
def clearFn (s : State) (n : Nat) : State := clearFnStore (clearFnRegs s n) n

/-! ### Function fences (R395 to R397) -/

/-- The function in which a job's work lies, for SELF_TEST the one under test. -/
def jobFn (x : Job) : Option Nat :=
  if Cmd.MODEL_LOAD ≤ x.code ∧ x.code ≤ Cmd.BARREL_QUOTA then some Fun.BARREL
  else if x.code = Cmd.PLATE_PARTITION then some Fun.PLATE
  else if isFabJob x then some Fun.FABRIC
  else if x.code = Cmd.CHRONO_EXPORT then some Fun.CHRONOGRAPH
  else if x.code = Cmd.SCRUB then some ([Fun.MEMORY, Fun.BARREL, Fun.PLATE, Fun.SYSTEM_CACHE].getD x.obj Fun.MEMORY)
  else none

/-- R183: the jobs whose work lies in a function take its fence status as their final one. -/
def fenceFnJobs (s : State) (n : Nat) : State :=
  { s with rg := { s.rg with jobs := s.rg.jobs.map (fun (p : Nat × Job) =>
      if p.2.st == .running && jobFn p.2 == some n && p.2.final == none then (p.1, { p.2 with final := some (St.FN_FENCED n) }) else p) } }

/-- Table ER-3: work that a fence ends at once. The rest ends in the commands of its own unit, at the points the table
names. -/
def stopWork (s : State) (n : Nat) : State :=
  if n = Fun.PINIONS then abandonAll s St.PINION_FAULT (fun w => w.phase == .resident || w.kind != 0)
  else if n = Fun.CRYSTAL then
    (List.range 4).foldl (fun s o =>
      let x := outOf s o
      let l := x.due ++ (x.armed.map (·.desc) ++ x.taken).map (fun d => failDue s o d (St.FN_FENCED n))
      l.foldl (fun s q => endCommit s o q) (setOut s o { x with armed := [], taken := [], due := [] })) s
  else s

/-- A fence source of R395 fences a function. -/
def fenceUnit (s : State) (n source : Nat) : State :=
  if (fnOf s n).st = .up then fenceFnJobs (stopWork (fenceFn s n source) n) n else s

/-- Descriptors of a function still in flight (ER_FNn_STATE.IN_FLIGHT). -/
def fnInFlight (s : State) (n : Nat) : Nat :=
  if n = Fun.TRANSLATION ∨ n = Fun.ESCAPEMENTS ∨ n = Fun.EVENTS then s.esc.descs.length
  else if n = Fun.BARREL then s.ba.queue.length + s.ba.loads.length
  else (s.esc.descs.filter (fun p => engFn p.2.eng == n)).length

/-- FUNCTION_FENCE (R397): a source of Table R395's list, 1 to 5, fences a function. -/
def execFunctionFence (fn source : Nat) (s : State) : Out :=
  .next <|
    if 19 ≤ fn ∨ source = 0 ∨ 5 < source ∨ fnNotReady s fn = true ∨ (fn = Fun.DEFLATE ∧ Config.dfPresent s.fuse.variant = false) then s
    else fenceUnit s fn source

/-- R396: a drained function is FENCED, and goes on to RESTORING, cleared, when a reset or test of it is under way. -/
def drainFn (s : State) (n : Nat) : State :=
  if (fnOf s n).st = .fencing ∧ fnInFlight s n ≠ 0 then s
  else
    let s := if (fnOf s n).st = .fencing then setFn s n { fnOf s n with st := .fenced } else s
    if (fnOf s n).st = .fenced ∧ s.bu.restoring.contains n = true then
      setFn (clearFn s n) n { fnOf s n with st := .restoring }
    else s

/-- FUNCTION_DRAIN_END (R396): the last descriptor of a FENCING function has completed. -/
def execFunctionDrainEnd (fn : Nat) (s : State) : Out := .next (drainFn s fn)

/-- R384: a function reset begins: the fence, the count of the source, and, once drained, the clearing. -/
def resetFn (s : State) (n : Nat) : State :=
  let s := fenceUnit s n 1
  let s := { s with bu := { s.bu with restoring := if s.bu.restoring.contains n then s.bu.restoring else s.bu.restoring ++ [n] } }
  drainFn (countSource s 9) n

/-! ### The whole device cleared -/

/-- An NVM write in progress is lost: its page or sector is undefined (Table BU-6). -/
def loseNvm (s : State) : State := match s.bu.nvmOp with
  | none => s
  | some (erase, addr, _) =>
    let n := if erase then 65536 else 256
    let d := (List.range n).map (fun i => Config.freeBits 8 (s.free + i))
    { s with free := s.free + n, mem := { s.mem with nvm := memWr s.mem.nvm addr d }, bu := { s.bu with nvmOp := none } }

/-- Table ER-4: the causes that a device reset of a source leaves standing. -/
def causesKept (src : Nat) : Word :=
  if src = 1 then 0 else if src = 2 ∨ src = 6 then 0b00010#32 else 0b00011#32

/-- The state after a reset of source 1, 2, 5, 6 or 7 has cleared what Table BU-2 names, before its count. -/
def clearDevice (s : State) (src : Nat) : State :=
  let s := loseNvm s
  let gone := src == 1 || src == 6
  let causes := getReg s Reg.ER_DEVICE &&& causesKept src
  let cal := s.bu.backup.rtcNs
  let ch : Chrono := if src = 1 then { perm := s.ch.perm.take s.ch.durable, durable := s.ch.durable }
    else { circ := s.ch.circ, nextSeq := s.ch.nextSeq, perm := s.ch.perm, durable := s.ch.durable, erasing := s.ch.erasing, eraseMask := s.ch.eraseMask }
  let pins := getReg s Reg.GLOBAL_PINS
  let t : State :=
    { fuse := s.fuse
      time := { s.time with cal := cal }
      regs := s.regs.filter (fun p => p.1 == Reg.RS_CAUSE)
      mem := if gone then { s.mem with dev := [], poison := [] } else s.mem
      tu := { sent := s.tu.sent }
      sched := { perEnd := periodEnd 3600 0 cal }
      hl := { msgs := s.hl.msgs, readData := s.hl.readData, readPoison := s.hl.readPoison, readMem := s.hl.readMem }
      nl := { tx := s.nl.tx }
      pk := { railsMv := s.pk.railsMv, temps := s.pk.temps }
      bu := { uncounted := s.bu.uncounted || src == 1, tripped := s.bu.tripped && src != 1, tripRec := s.bu.tripRec, backup := s.bu.backup }
      er := { rmFailed := bit causes 0 }
      ch := ch
      free := s.free
      pending := s.pending }
  let t := putReg t Reg.ER_DEVICE causes
  let t := if bit causes 0 then setFlag (setFld t Reg.RM_STATUS 0 2 2) Reg.RG_STATUS 9 true else t
  let t := putReg t Reg.GLOBAL_PINS (setBits (BitVec.ofNat 32 (pins.toNat % 32)) 5 3 7)
  let t := if t.bu.tripped then setFlag (setFld t Reg.GLOBAL_THERM_STATUS 0 2 3) Reg.GLOBAL_PINS 6 false else t
  driveAlarm t

/-- A device reset takes effect and is counted; a power-on is counted at step 1 (R391). -/
def deviceReset (s : State) (src : Nat) : State :=
  if src = 1 then clearDevice s 1 else countSource (clearDevice s src) src

/-- R367, R376, R382: nPWR_OK is asserted, nRESET is high and no trip is in force. -/
def mayStart (s : State) : Bool := !rbit s Reg.GLOBAL_PINS 1 && rbit s Reg.GLOBAL_PINS 0 && !s.bu.tripped

/-- R382: bring-up starts from its first step when it may. -/
def startUp (s : State) : State :=
  if mayStart s && s.bu.pos == .held then { s with bu := { s.bu with pos := .step 1, flr := false, startedAt := s.time.dev, forgot := 0 } }
  else s

/-- PIN (R367): nRESET is low for 10 µs or longer. -/
def execPinReset (s : State) : Out := .next (deviceReset (setFlag s Reg.GLOBAL_PINS 0 false) 2)

/-- NRESET_RELEASE (R382): bring-up may start. -/
def execNresetRelease (s : State) : Out := .next (startUp (setFlag s Reg.GLOBAL_PINS 0 true))

/-- NPWR_OK_ASSERT (R364): the board declares every rail in range. -/
def execNpwrOkAssert (s : State) : Out := .next (startUp (setFlag s Reg.GLOBAL_PINS 1 false))

/-- REMONTOIRE (R405): the Remontoire resets the device where AUTO_RESET has it so. -/
def execRemontoire (s : State) : Out := .next (if s.er.wantReset && !s.er.rmFailed then deviceReset s 7 else s)

/-- RESET_DEVICE (R180): the response is written and the reset starts. -/
def execResetDevice (mb : Nat) (s : State) : Out :=
  .next <| match cmdReq s mb Cmd.RESET_DEVICE with
  | none => s
  | some _ =>
    if mb ≤ 14 ∧ s.er.rmFailed = true then refuse s mb St.RM_UNAVAILABLE
    else deviceReset (answerOk s mb []) 5

/-! ### FLR (R381) -/

/-- The low 64 MiB reserved to firmware zeroed, the copy of the running image apart when it is kept (R382, R426). -/
def zeroReserved (s : State) (keepCopy : Bool) : State :=
  let keep := fun (a : Nat) => decide (2 ^ 26 ≤ a) || (keepCopy && decide (0x00800000 ≤ a) && decide (a < 0x00C00000))
  { s with mem := { s.mem with dev := s.mem.dev.filter (fun p => keep p.1), poison := s.mem.poison.filter (fun l => keep (l * 128)) } }

/-- Functions that an FLR clears: all but the Remontoire, the Regulator and the fabric's membership. -/
def flrFns : List Nat := (List.range 17).filter (fun n => 3 ≤ n) ++ [Fun.CHRONOGRAPH]

/-- Table BU-2, column FLR: everything outside the functions' own stores. -/
def clearFlr (s : State) : State :=
  let s := maintain s 1 (fun _ _ => true) (fun _ _ => true)
  let s := zeroReserved { s with ca := { wayErr := s.ca.wayErr } } true
  let s := flrFns.foldl clearFn s
  let keep := fun (off : Nat) => blockFn off != some Fun.REGULATOR && blockFn off != some Fun.REMONTOIRE
  let fw := getReg s Reg.RG_FW_VERSION
  let st := rfld s Reg.RG_STATUS 0 2
  let s := { s with regs := s.regs.filter (fun p => keep p.1) }
  let s := setFld (putReg s Reg.RG_FW_VERSION fw) Reg.RG_STATUS 0 2 st
  let s := { s with
    esc := {}, evs := {}, ctxs := [], al := {}, ra := {}
    tu := { sent := s.tu.sent }
    rg := { fenceClock := s.rg.fenceClock }
    sched := { perLen := s.sched.perLen, perStart := s.sched.perStart, perEnd := s.sched.perEnd }
    ba := { s.ba with models := [], nextModel := 0 }
    pl := { s.pl with claims := [], grans := (s.pl.grans.map (fun (p : Nat × Gran) => (p.1, { p.2 with owner := 0 }))).filter (fun p => decide (p.2 ≠ {})) }
    er := { s.er with rmFailed := false, copiedAt := none, starts := [], wantReset := false, disagrees := 0, selfTests := 0 } }
  let s := putReg s Reg.ER_DEVICE (getReg s Reg.ER_DEVICE &&& 0b01010#32)
  driveAlarm (syncPlate s)

/-- FLR (R381, R382): contexts are fenced and destroyed, host requests are ended, and bring-up runs steps 3, 3a and 6.
During the bring-up of a device reset, that reset governs and its bring-up starts again (Table BU-6). -/
def execFlr (s : State) : Out :=
  .next <|
    if hostUp s = false ∨ s.hl.cfgReady = false then s
    else if s.bu.pos ≠ .done ∧ s.bu.pos ≠ .step 6 ∧ s.bu.flr = false then
      countSource (startUp (clearDevice (endHostWork s) 2)) 4
    else
      let s := clearConfig (clearFlr (endHostWork (fenceAllCtx s 1)))
      let reg := fnOf s Fun.REGULATOR
      let s := setFn { s with fns := [] } Fun.REGULATOR reg
      let s := setFlag s Reg.RS_STATUS 0 false
      countSource { s with bu := { s.bu with pos := .step 30, flr := true, startedAt := s.time.dev, restoring := [], forgot := 0 } } 4

end Sys2Proof.Machine
end

