-- ==== Sys2Proof/Machine/BringUp.lean ====
section
/-! DEFINITION. Bring-up (chapter 22): its steps, option bytes and firmware images, repair history, the NVM window and
the backup domain. -/

namespace Sys2Proof.Machine

/-! ### Retirement records (Table BU-5, R386) -/

/-- A unit's retired numbers set apart from others. -/
def without (l m : List Nat) : List Nat := l.filter (fun x => !m.contains x)
/-- The set bits of a mask of `n` bits. -/
def maskList (m n : Nat) : List Nat := (List.range n).filter (fun i => natBits m i 1 == 1)

/-- The units now retired; ways as 16 × slice + way, Pinions as 9 × train + position. -/
def retiredNow (s : State) : Copy :=
  { gwRetired := rfld s Reg.GW_GROUP_HEALTH 0 (Config.gwEnabled s.fuse.variant)
    dfRetired := (s.df.lanes.filter (·.2.retired)).foldl (fun m p => m + 2 ^ p.1) 0
    plRetired := (s.pl.grans.filter (·.2.retired)).map (·.1)
    pnRetired := (s.pn.pinions.filter (·.2.retired)).map (·.1)
    caRetired := (List.range 16).flatMap (fun q => (maskList (rfld s (Reg.CA_WAY_HEALTH q) 0 16) 16).map (16 * q + ·))
    baRetired := (s.ba.frames.filter (·.2.retired)).map (·.1) }

/-- Records of a copy without those of another. -/
def lessCopy (c f : Copy) : Copy :=
  { c with
    gwRetired := c.gwRetired &&& ((2 ^ 19 - 1) ^^^ f.gwRetired)
    dfRetired := c.dfRetired &&& (0xFF ^^^ f.dfRetired)
    plRetired := without c.plRetired f.plRetired
    pnRetired := without c.pnRetired f.pnRetired
    caRetired := without c.caRetired f.caRetired
    baRetired := without c.baRetired f.baRetired }

/-- The copy of the retained settings block in use. -/
def curCopy (s : State) : Copy := if s.bu.backup.useB then s.bu.backup.copyB else s.bu.backup.copyA

/-- The records that the bring-up applies: those of the block, or after an FLR the units still retired (R386). -/
def bringCopy (s : State) : Copy :=
  if s.bu.flr then lessCopy (retiredNow s) s.bu.forgiven
  else let c := curCopy s; if c.valid then c else {}

/-- R48, R51 to R53: the logical groups laid over the healthy ones. -/
def layGroups (s : State) (m : Nat) : State :=
  let n := Config.gwEnabled s.fuse.variant
  let act := Config.gwActive s.fuse.variant
  let ok := fun i => natBits m i 1 == 0
  let live := (List.range n).filter ok
  let bad := (List.range act).filter (fun i => !ok i)
  let spares := (live.filter (fun i => decide (act ≤ i)))
  let short := decide (live.length < act)
  let phys := fun l => if short then live.getD l 0x1F else if act ≤ l then 0x1F else if ok l then l else spares.getD (bad.findIdx (· == l)) 0x1F
  let s := putReg s Reg.GW_GROUP_HEALTH (BitVec.ofNat 32 ((2 ^ 19 - 2 ^ n) ||| m))
  let s := (List.range 16).foldl (fun s l => setPhys s l (phys l)) s
  putReg s Reg.GW_SPARE_USE (BitVec.ofNat 32
    (b2n short * 2 ^ 20 + Nat.min act live.length * 2 ^ 15 + (live.length - act) * 2 ^ 10 + Nat.min bad.length spares.length * 2 ^ 5 + (n - live.length)))

/-- A table of units whose retired ones are those of a list; a unit returned to service starts afresh. -/
def layUnits {α : Type} [DecidableEq α] (d : α) (isRet : α → Bool) (set : α → Bool → α) (t : Tbl α) (l : List Nat) : Tbl α :=
  ((t.map (·.1)) ++ l).foldl (fun t k =>
    let x := tget d t k
    tput d t k (if l.contains k then set x true else if isRet x then set d false else x)) t

/-- The retirement records of a function applied, as it comes up. -/
def applyRecords (s : State) (n : Nat) : State :=
  let c := bringCopy s
  if s.bu.flr && decide (s.bu.forgiven = {}) then s
  else if n = Fun.SYSTEM_CACHE then
    (List.range 16).foldl (fun s q =>
      putReg s (Reg.CA_WAY_HEALTH q) (BitVec.ofNat 32 ((c.caRetired.filter (fun k => k / 16 == q)).foldl (fun m k => m ||| 2 ^ (k % 16)) 0))) s
  else if n = Fun.BARREL then
    let s := { s with ba := { s.ba with frames := layUnits {} (·.retired) (fun x b => { x with retired := b }) s.ba.frames c.baRetired } }
    setFld s Reg.BA_HEALTHY 0 12 (Config.frames s.fuse.variant - c.baRetired.length)
  else if n = Fun.PLATE then
    syncPlate { s with pl := { s.pl with grans := layUnits {} (·.retired) (fun x b => { x with retired := b }) s.pl.grans c.plRetired } }
  else if n = Fun.GREAT_WHEEL then layGroups s c.gwRetired
  else if n = Fun.PINIONS then
    let s := (retiredNow s).pnRetired.foldl (fun s k => setFlag s (Reg.PN_HEALTH0 + 4 * (k / 32)) (k % 32) false) s
    let t := layUnits {} (·.retired) (fun x b => { x with retired := b }) s.pn.pinions c.pnRetired
    let lost := fun (tr : Nat) => c.pnRetired.any (fun k => k / 9 == tr && decide (k % 9 < 8)) && decide (tr < Config.pnSpares s.fuse.variant)
    let t := (List.range 12).foldl (fun t tr => if lost tr then tput {} t (9 * tr + 8) { tget ({} : Pinion) t (9 * tr + 8) with promoted := true } else t) t
    syncPinions { s with pn := { s.pn with pinions := t } }
  else if n = Fun.DEFLATE then
    { s with df := { s.df with lanes := layUnits {} (·.retired) (fun x b => { x with retired := b }) s.df.lanes (maskList c.dfRetired 8) } }
  else s

/-! ### Step 1: option bytes and the backup domain (R387, R390, R391) -/

/-- The 256 option bytes of the NVM, when MAGIC, VERSION and CRC are right. -/
def optionBytes (s : State) : Option (List Byte) :=
  let b := memRd s.mem.nvm 0 256
  if leAt b 0 4 = 0x3154504F ∧ leAt b 4 1 = 1 ∧ crc32 (b.take 252) = leAt b 252 4 then some b else none

/-- The defaults of Table BU-4; the bytes for which it gives none are free values. -/
def optionDefaults : List Byte :=
  let free := fun (i : Nat) => (BitVec.ofNat 8 (Config.openVal 14 [i]) : Byte)
  (List.range 5).map free ++ [0, 4, 0] ++ toLe 0x00010000 4 ++ toLe 0x00810000 4 ++ List.replicate 236 0 ++ (List.range 4).map (fun i => free (252 + i))

/-- A field of the option bytes in use. -/
def optFld (s : State) (word lo len : Nat) : Nat := rfld s (Reg.RS_OPT word) lo len
def optRole (s : State) : Nat := optFld s 1 8 2
def optAltOnFail (s : State) : Bool := optFld s 1 18 1 == 1
def optNoRestore (s : State) : Bool := optFld s 1 17 1 == 1
def optBootAltEn (s : State) : Bool := optFld s 1 16 1 == 1

/-- The option loader (R387) and BOOT_ALT sampled. -/
def loadOptions (s : State) : State :=
  let o := optionBytes s
  let b := o.getD optionDefaults
  let s := (List.range 64).foldl (fun s k => putReg s (Reg.RS_OPT k) (BitVec.ofNat 32 (leAt b (4 * k) 4))) s
  let s := setFlag (setFlag s Reg.RS_STATUS 2 o.isNone) Reg.RS_STATUS 9 (rbit s Reg.GLOBAL_PINS 4)
  { s with nl := { s.nl with roleOpt := optRole s } }

/-- R391: the backup domain checked, and a power-on or its loss counted. -/
def checkBackup (s : State) : State :=
  let lost := s.bu.backup.lost
  if lost then
    let s := { s with bu := { s.bu with uncounted := false, tripRec := false, backup := { lost := false, total := 1, counts := [(8, 1)] } } }
    setFlag (putReg { s with time := { s.time with cal := 0 }, sched := { s.sched with perEnd := periodEnd 3600 0 0 } } Reg.RS_CAUSE (0x00800008#32)) Reg.RS_STATUS 3 true
  else if s.bu.uncounted then countSource { s with bu := { s.bu with uncounted := false } } 1
  else s

/-- R390: which copy is taken: the valid one, and of two the one with the higher SEQ. -/
def chooseCopy (b : Backup) : Option Bool :=
  if b.copyA.valid && b.copyB.valid then some (decide (0 < (b.copyB.seq - b.copyA.seq).toNat) && decide ((b.copyB.seq - b.copyA.seq).toNat < 2 ^ 31))
  else if b.copyA.valid then some false
  else if b.copyB.valid then some true
  else none

/-- The registers of SETTINGS, in the order of Table BU-5. -/
def settingRegs : List Nat :=
  [Reg.GLOBAL_PWR_CAP, Reg.GLOBAL_THERM_CFG, Reg.GW_CONFIG, Reg.PN_CONFIG, Reg.ESC_CONFIG, Reg.DF_CONFIG, Reg.CA_WAYS, Reg.TM_CFG]

/-- R390: the settings of the block restored. -/
def restoreSettings (s : State) : State :=
  let c := curCopy s
  let s := (settingRegs.zip c.settings).foldl (fun s p => putReg s p.1 p.2) s
  let s := { s with sched := { s.sched with perLen := c.acctLen, perStart := c.acctStart, perEnd := periodEnd c.acctLen c.acctStart s.time.cal } }
  setFlag s Reg.RS_STATUS 5 true

/-- R390: the block taken at step 1. -/
def takeRetained (s : State) : State := match chooseCopy s.bu.backup with
  | none => retainedDirty (setFlag s Reg.RS_STATUS 4 true)
  | some b =>
    let s := { s with bu := { s.bu with backup := { s.bu.backup with useB := b } } }
    if optNoRestore s then s else restoreSettings s

/-! ### Step 5: the firmware image (R388) -/

/-- The image at an offset of the NVM, header included, when its header and CRC are right. -/
def imageAt (t : Tbl Byte) (off : Nat) : Option (List Byte) :=
  let h := memRd t off 16
  let n := leAt h 4 4
  if leAt h 0 4 ≠ 0x31455245 ∨ n < 16 ∨ 4194288 < n ∨ leAt h 12 4 ≠ 0 then none
  else
    let c := memRd t (off + 16) n
    if crc32 c = leAt h 8 4 then some (h ++ c) else none

/-- The image that R388 chooses: whether it is the alternate, whether the first tried failed, and its bytes. -/
def chooseImage (s : State) : Option (Bool × Bool × List Byte) :=
  let altFirst := optBootAltEn s && rbit s Reg.RS_STATUS 9
  let place := fun (alt : Bool) => if alt then optFld s 3 0 32 else optFld s 2 0 32
  match imageAt s.mem.nvm (place altFirst) with
  | some b => some (altFirst, false, b)
  | none =>
    if optAltOnFail s then (imageAt s.mem.nvm (place !altFirst)).map (fun b => (!altFirst, true, b)) else none

/-- An image runs in the Regulator: its version is shown and its copy lies in device memory (R426). -/
def runImage (s : State) (img : List Byte) (copy : Bool) : State :=
  let s := if copy then memStore s false 0x00800000 img else s
  putReg s Reg.RG_FW_VERSION (Config.fwVersion (leAt img 4 4) (leAt img 8 4))

/-- An image of the NVM is taken: RS_STATUS shows which, and a fallback is recorded with its code, 1 or 2. -/
def takeImage (s : State) (alt fb : Bool) : State :=
  let s := setFlag (setFlag s Reg.RS_STATUS 7 alt) Reg.RS_STATUS 6 fb
  if fb then chrono s Chr.FW_FALLBACK none Fun.REGULATOR (if alt then 2 else 1) 0 else s

/-- The Regulator serves mailboxes 0 to 14. -/
def regulatorUp (s : State) : State :=
  let s := setFn (setFld s Reg.RG_STATUS 0 2 1) Fun.REGULATOR { ready := true }
  driveReady { s with er := { s.er with retiredAt := s.time.dev } }

/-! ### READY and failure -/

/-- A function that its test leaves unusable (R382). -/
def failUnit (s : State) (n : Nat) : State := setFlag (fenceUnit s n 2) Reg.RS_FAILED n true

/-- R382, R417: the records held are written as the Chronograph becomes ready, and the losses reported. -/
def flushHeld (s : State) : State :=
  let lost := s.ch.buckets.filter (fun p => decide (p.2.pending ≠ 0))
  let held := s.ch.held
  let bs := (s.ch.buckets.map (fun (p : Nat × Bucket) => (p.1, { p.2 with pending := 0, firstTime := 0 }))).filter (fun p => decide (p.2 ≠ {}))
  let s := { s with ch := { s.ch with held := [], buckets := bs } }
  let s := held.foldl acceptRec s
  lost.foldl (fun s p => storeRec s
    { time := calTime s, code := Chr.SUPPRESSED, arg0 := BitVec.ofNat 64 (p.1 + p.2.pending <<< 32), arg1 := BitVec.ofNat 64 p.2.firstTime }) s

/-- A function passes its test: its records are applied and its READY bit is set. -/
def unitUp (s : State) (n : Nat) : State :=
  let s := if s.bu.restoring.contains n then s else applyRecords s n
  let s := setFn s n { ready := true }
  let s := setFlag s Reg.RS_FAILED n false
  if n = Fun.CHRONOGRAPH then flushHeld s
  else if n = Fun.FABRIC ∧ s.bu.flr = false then { s with nl := { s.nl with acting := s.nl.roleOpt } }
  else s

/-- The functions the variant has. -/
def present (s : State) (n : Nat) : Bool := decide (n < 19) && (n != Fun.DEFLATE || Config.dfPresent s.fuse.variant)

/-- R376, R382: bring-up is complete once every function present is READY or recorded in RS_FAILED. -/
def checkDone (s : State) : State :=
  if s.bu.pos = .fn 19 ∧ (List.range 19).all (fun n => !present s n || (fnOf s n).ready || rbit s Reg.RS_FAILED n) then
    let us := satTo 0xFFFFFFFF ((s.time.dev - s.bu.startedAt) / 1000)
    let s := setFlag (putReg s Reg.RS_BRINGUP_US (BitVec.ofNat 32 us)) Reg.RS_STATUS 0 true
    let s := chrono s Chr.BRINGUP none 0 (rfld s Reg.RS_CAUSE 0 4) us
    let s := if s.bu.tripRec then
        let t := s.bu.backup.trip.getD (0, 0, 0)
        setFlag (chrono s Chr.THERMAL_TRIP none 0 (t.2.1 % 256 + (BitVec.ofInt 8 t.1).toNat * 256) t.2.2) Reg.GLOBAL_PK_EVENTS 6 true
      else s
    { s with bu := { s.bu with pos := .done, flr := false, tripRec := false, forgiven := {} } }
  else s

/-- LINK_UP (R338, step 3a of R382): the link reaches L0, once bring-up has reached step 3. -/
def execLinkUp (lanes width speed : Nat) (s : State) : Out :=
  .next <|
    if (fnOf s Fun.REMONTOIRE).ready = false ∧ s.er.rmFailed = false then s
    else
      let s := putReg s Reg.HL_LINK (BitVec.ofNat 32 (lanes % 2 ^ 16 * 2 ^ 16 + width % 32 * 16 + speed % 8 * 2 + 1))
      let s := { s with hl := { s.hl with cfgReady := true, l1 := false } }
      checkDone (driveReady (setFn s Fun.HOST_LINK { fnOf s Fun.HOST_LINK with ready := true }))

/-! ### The steps of Table BU-3 -/

/-- The function that step 6 brings up after `n`; 19 after the last. -/
def nextFn (s : State) (n : Nat) : Nat := ((List.range 19).find? (fun k => decide (n < k) && present s k)).getD 19

def buAt (s : State) (p : BuAt) : State := { s with bu := { s.bu with pos := p } }

/-- Step 3: the Remontoire starts and checks its voting. -/
def stepRemontoire (s : State) (pass : Bool) : State :=
  let s := if pass then setFn s Fun.REMONTOIRE { ready := true }
    else
      let s := failUnit { s with er := { s.er with rmFailed := true } } Fun.REMONTOIRE
      raiseCause (setFlag (setFld s Reg.RM_STATUS 0 2 2) Reg.RG_STATUS 9 true) 0
  buAt s (if s.bu.flr = false then .step 4 else if rbit s Reg.RS_STATUS 8 then .step 6 else .fn 3)

/-- Step 4: memory and the system cache, and the reserved regions. -/
def stepMemory (s : State) (pass : Bool) : State :=
  let s := unitUp (zeroReserved s false) Fun.MEMORY
  buAt (if pass then unitUp s Fun.SYSTEM_CACHE else failUnit s Fun.SYSTEM_CACHE) (.step 5)

/-- Step 5: a firmware image is loaded and the cores start; step 6 does not run when no image passes. -/
def stepFirmware (s : State) : State := match chooseImage s with
  | some (alt, fb, img) =>
    let s := regulatorUp (runImage (takeImage s alt fb) img true)
    buAt (driveAlarm (setFlag s Reg.ER_DEVICE 1 false)) (.fn 5)
  | none => buAt (raiseCause (setFlag s Reg.RS_STATUS 8 true) 1) (.step 6)

/-- BRINGUP_STEP_COMPLETE (R382): the step, or the function of step 6, that bring-up works on ends; `pass` tells
whether the test of steps 3, 4 and 6 passes. -/
def execBringupStepComplete (pass : Bool) (s : State) : Out :=
  .next <| if mayStart s = false then s else match s.bu.pos with
  | .held => s
  | .done => s
  | .step n =>
    if n = 1 then buAt (takeRetained (checkBackup (loadOptions s))) (.step 2)
    else if n = 2 then buAt s (.step 30)
    else if n = 30 then stepRemontoire s pass
    else if n = 4 then stepMemory s pass
    else if n = 5 then stepFirmware s
    else s
  | .fn n =>
    if 19 ≤ n then s
    else
      let s := if pass then unitUp s n else failUnit s n
      checkDone (buAt s (.fn (nextFn s n)))

/-- BRINGUP (R382): bring-up starts from step 1, after a reset that left the pins as they were. -/
def execBringup (s : State) : Out := .next (startUp s)

/-! ### Repair history (R386) -/

/-- The history of one unit forgotten: its retired ones stay out of service until the next bring-up. -/
def forgetUnit (s : State) (u : Nat) : State :=
  let now := retiredNow s
  let f := s.bu.forgiven
  if u = 0 then forgetGw s
  else if u = 5 ∧ Config.dfPresent s.fuse.variant = false then s
  else
    let f := if u = 1 then { f with baRetired := now.baRetired }
      else if u = 2 then { f with plRetired := now.plRetired }
      else if u = 3 then { f with pnRetired := now.pnRetired }
      else if u = 4 then { f with caRetired := now.caRetired }
      else { f with dfRetired := now.dfRetired }
    retainedDirty { s with bu := { s.bu with forgot := s.bu.forgot ||| 2 ^ u, forgiven := f } }

/-- RS_FORGET (R386). -/
def execRsForget (val : Word) (s : State) : Out :=
  .next <| hostWr s Reg.RS_FORGET fun s =>
    if bits val 16 16 ≠ 0x4647 then s
    else (List.range 6).foldl (fun s u => if bit val u then forgetUnit s u else s) s

/-! ### The NVM window (R389) -/

/-- The part refuses an NVM write: NVM_WP is high, or a write is in progress. -/
def nvmRefused (s : State) : Bool := rbit s Reg.GLOBAL_PINS 3 || s.bu.nvmOp.isSome

def nvmPage (s : State) : Nat := rfld s Reg.RS_NVM_ADDR 8 16 * 256

/-- A write of the NVM begins, or is refused. -/
def nvmStart (s : State) (op : Bool × Nat × List Byte) : State :=
  if nvmRefused s then setFlag s Reg.RS_NVM_STATUS 2 true
  else setFlag { s with bu := { s.bu with nvmOp := some op } } Reg.RS_NVM_STATUS 0 true

/-- PROGRAM of the page of RS_NVM_ADDR from RS_NVM_DATA. -/
def nvmProgram (s : State) : State :=
  nvmStart s (false, nvmPage s, (List.range 64).flatMap (fun i => toLe (getReg s (Reg.RS_NVM_DATA i)).toNat 4))

/-- ERASE of the sector that holds RS_NVM_ADDR. -/
def nvmErase (s : State) : State := nvmStart s (true, nvmPage s / 65536 * 65536, [])

/-- PROGRAM (R389): a write of RS_NVM_CTRL with its key and PROGRAM. -/
def execProgram (s : State) : Out := .next (hostWr s Reg.RS_NVM_CTRL nvmProgram)

/-- ERASE (R389): a write of RS_NVM_CTRL with its key and ERASE. -/
def execErase (s : State) : Out := .next (hostWr s Reg.RS_NVM_CTRL nvmErase)

/-- NVM_WRITE_COMPLETE (R389): an erased sector is clear, a programmed page holds its data. -/
def execNvmWriteComplete (s : State) : Out :=
  .next <| match s.bu.nvmOp with
  | none => s
  | some (erase, addr, d) =>
    let t := if erase then s.mem.nvm.filter (fun p => !(decide (addr ≤ p.1) && decide (p.1 < addr + 65536))) else memWr s.mem.nvm addr d
    let s := { s with mem := { s.mem with nvm := t }, bu := { s.bu with nvmOp := none } }
    setFlag (setFlag s Reg.RS_NVM_STATUS 0 false) Reg.RS_NVM_STATUS 1 true

/-! ### The backup domain (R390, R391, R393) -/

/-- CLEAR_COUNTS (R391): a write of BK_CTRL. -/
def execClearCounts (val : Word) (s : State) : Out :=
  .next <| hostWr s Reg.BK_CTRL fun s =>
    if bits val 16 16 = 0x434C ∧ bit val 0 = true then { s with bu := { s.bu with backup := { s.bu.backup with total := 0, counts := [] } } }
    else s

/-- BK_RTC_SET (R393): a write of BK_RTC_SET_LO. -/
def execBkRtcSet (val : Word) (s : State) : Out :=
  .next <| hostWr s Reg.BK_RTC_SET_LO fun s =>
    let ns := (s.bu.backup.rtcSetHi.toNat * 2 ^ 32 + val.toNat) * 1000000000
    let s := setRtc s ns
    if tmState s = 0 then stepTime s ns else s

/-- The block as firmware writes it: settings and records now in force. -/
def freshCopy (s : State) : Copy :=
  { lessCopy (retiredNow s) s.bu.forgiven with
    valid := true, seq := (curCopy s).seq + 1, settings := settingRegs.map (getReg s)
    acctLen := s.sched.perLen, acctStart := s.sched.perStart, trip := s.bu.backup.trip }

/-- RETAINED_BLOCK_WRITE (R390): within 10 ms of a change, firmware writes the older copy. -/
def execRetainedBlockWrite (s : State) : Out :=
  .next <|
    if s.bu.dirty = false ∨ rgRunning s = false then s
    else
      let c := freshCopy s
      let b := s.bu.backup
      let b := if b.useB then { b with copyA := c, useB := false } else { b with copyB := c, useB := true }
      { s with bu := { s.bu with backup := b, dirty := false } }

end Sys2Proof.Machine
end

