-- ==== Sys2Proof/Machine/Errors.lean ====
section
/-! DEFINITION. Errors and recovery (chapter 23): function resets and tests, device-wide causes, memory errors, the
lockstep checker, recovery of the Regulator, the Remontoire's voting. -/

namespace Sys2Proof.Machine

/-! ### The Remontoire's voting (R407, R408) -/

/-- R408: no two sequencers agree. -/
def votingFailed (s : State) : State :=
  if s.er.rmFailed then s
  else
    let s := setFlag (setFld { s with er := { s.er with rmFailed := true } } Reg.RM_STATUS 0 2 2) Reg.RG_STATUS 9 true
    raiseCause s 0

/-- RM_FAILED (R407, R408). -/
def execRmFailed (s : State) : Out := .next (if (fnOf s Fun.REMONTOIRE).ready then votingFailed s else s)

/-- RM_DISAGREE (R407): sequencer 1 A, 2 B or 3 C is outvoted and copied from the majority; one that disagrees again
within 1 ms of its copy ends the vote. -/
def execRmDisagree (seq : Nat) (s : State) : Out :=
  .next <|
    if (fnOf s Fun.REMONTOIRE).ready = false ∨ s.er.rmFailed = true ∨ seq = 0 ∨ 3 < seq then s
    else if (match s.er.copiedAt with
      | some (t, q) => q == seq && decide (s.time.dev < t + 1000000)
      | none => false) then votingFailed s
    else
      let s := setFld (countReg s Reg.RM_DISAGREE 32 1) Reg.RM_STATUS 4 2 seq
      let s := { s with er := { s.er with disagrees := s.er.disagrees + 1, copiedAt := some (s.time.dev, seq) } }
      chrono s Chr.RM_DISAGREE none Fun.REMONTOIRE seq 0

/-! ### The Regulator frozen (R404, R405) -/

/-- The cores are frozen, and READY is cleared; the fence's source is 1 for a reset, 4 for a recovery. -/
def freeze (s : State) (source : Nat) : State := fenceUnit (setFld s Reg.RG_STATUS 0 2 2) Fun.REGULATOR source

/-- Every mailbox of the Regulator in a state completes with REGULATOR_RESTART. -/
def restartBoxes (s : State) (st : MbSt) : State :=
  (List.range 15).foldl (fun s m =>
    let x := mboxOf s m
    if x.st = st then refuse (setMbox s m (if st = .pending then { x with taken := x.req } else x)) m St.REGULATOR_RESTART else s) s

/-- R405: the reload limit is passed, or no image is good: the Regulator is held FROZEN, or a reset of the device is
due. -/
def regulatorDead (s : State) : State :=
  let s := setFld { s with er := { s.er with recov := none, heldFrozen := true } } Reg.RG_STATUS 0 2 2
  if rbit s Reg.RM_CFG 0 then { s with er := { s.er with wantReset := true } }
  else restartBoxes (raiseCause s 2) .pending

/-- A start of a recovery is noted; true when the limit of R405 is reached. -/
def noteStart (s : State) : State × Bool :=
  let l := s.time.dev :: s.er.starts.filter (fun t => decide (s.time.dev < t + 10000000000))
  ({ s with er := { s.er with starts := l } }, decide (Nat.max 1 (rfld s Reg.RM_CFG 8 4) ≤ l.length))

/-- R404, step 1: a recovery starts. -/
def startRecovery (s : State) (cause : Nat) : State :=
  let r := noteStart s
  let s := freeze r.1 4
  let s := { s with er := { s.er with recov := some { cause := cause, frozenAt := s.time.dev, fencedCtx := 0 } } }
  if r.2 then regulatorDead s else s

/-- The Regulator runs and retires instructions. -/
def rgAlive (s : State) : Bool := rfld s Reg.RG_STATUS 0 2 == 1

/-- LOCKSTEP_MISMATCH (R402, R411): what the two comparators flag. -/
def execLockstepMismatch (a b : Bool) (s : State) : Out :=
  .next <|
    if (a || b) = false ∨ unchecked s = true then s
    else if s.er.recov.isSome then
      let r := noteStart s
      if r.2 && !s.er.rmFailed then regulatorDead r.1 else r.1
    else if rgAlive s = false then s
    else if s.er.rmFailed then
      let s := freeze s 4
      { s with er := { s.er with heldFrozen := true } }
    else startRecovery s (if a && b then 1 else 2)

/-- REGULATOR_STALL (R404): no instruction retired over 100 ms while RUNNING. -/
def execRegulatorStall (s : State) : Out :=
  .next <|
    if rgAlive s && !s.er.rmFailed && s.er.recov.isNone && decide (s.er.retiredAt + 100000000 ≤ s.time.dev) then startRecovery s 3 else s

/-- R403: a comparator is at fault. -/
def checkerFault (s : State) (which : Nat) : State :=
  raiseCause (setFlag (chrono s Chr.CHECKER none Fun.REGULATOR which 0) Reg.RG_STATUS 8 true) 4

/-- CHECKER_SELF_TEST (R402, R403): every 50 ms, and in the recovery from a disagreement: whether each comparator
flags exactly its injected compare. -/
def execCheckerSelfTest (aOk bOk : Bool) (s : State) : Out :=
  .next <|
    let dis := match s.er.recov with
      | some r => r.cause == 2
      | none => false
    if (fnOf s Fun.REMONTOIRE).ready = false ∨ s.er.rmFailed = true ∨ unchecked s = true ∨
      (s.er.recov.isSome = true ∧ dis = false) ∨ (dis = false ∧ isDue s 10 50000000 = false) then s
    else
      let s := setFlag (setFlag (markDone s 10) Reg.RM_STATUS 6 aOk) Reg.RM_STATUS 7 bOk
      if aOk && bOk then
        let s := { s with er := { s.er with selfTests := s.er.selfTests + 1 } }
        (match s.er.recov with
        | some r => { s with er := { s.er with recov := some { r with cause := 1 } } }
        | none => s)
      else
        let s := if aOk then s else checkerFault s 0
        if bOk then s else checkerFault s 1

/-! ### Recovery (R404) -/

/-- Commands whose first argument names a context. -/
def namesCtx (code : Nat) : Bool :=
  (decide (Cmd.CTX_DESTROY ≤ code) && decide (code ≤ Cmd.HANG_POLICY)) || code == Cmd.RING_CREATE || code == Cmd.MODEL_REGISTER ||
  code == Cmd.BARREL_QUOTA || code == Cmd.ACCT_BIND || code == Cmd.FENCE_CONTEXT

/-- Jobs that R182 lets run on. -/
def fillJob (x : Job) : Bool :=
  x.code == Cmd.MODEL_LOAD || x.code == Cmd.MODEL_PIN || x.code == Cmd.MODEL_EVICT || x.code == Cmd.MODEL_UNLOAD

/-- R404, step 2: the contexts that RUNNING commands and jobs name. -/
def halfChanged (s : State) : List Nat :=
  (((List.range 15).map (mboxOf s)).filter (fun x => x.st == .running && namesCtx (reqCode x.taken))).map (fun x => wd x.taken 4) ++
  ((runningJobs s).filter (fun p => !fillJob p.2)).filterMap (fun p => p.2.ctx)

/-- The copy of the image in device memory, where its CRC is right and no line of it is poisoned. -/
def copyImage (s : State) : Option (List Byte) :=
  match imageAt s.mem.dev 0x00800000 with
  | some b => if s.mem.poison.any (fun l => decide (0x00800000 ≤ l * 128 + 127) && decide (l * 128 < 0x00800000 + b.length)) then none else some b
  | none => none

/-- RECOVERY (R404, steps 2 and 3): the contexts are fenced, and an image is loaded: the copy (0), or from NVM the
primary (1) or the alternate (2). -/
def execRecovery (s : State) : Out :=
  .next <| match s.er.recov with
  | none => s
  | some r =>
    if s.er.rmFailed = true ∨ r.image.isSome = true then s
    else
      let k := s.er.ctxFences
      let s := if r.cause = 0 then s else (halfChanged s).foldl (fun s c => fenceCtx s c 4) s
      let r := { r with fencedCtx := s.er.ctxFences - k }
      let load := fun (s : State) (i : Nat) => setFld { s with er := { s.er with recov := some { r with image := some i } } } Reg.RG_STATUS 0 2 3
      match copyImage s with
      | some _ => load s 0
      | none => match chooseImage s with
        | some (alt, fb, _) => load (takeImage s alt fb) (if alt then 2 else 1)
        | none => regulatorDead s

/-- R182, R406: what a reload leaves of mailboxes, jobs, creations in hand and hang sampling. -/
def afterReload (s : State) : State :=
  let s := restartBoxes s .running
  let s := ((runningJobs s).filter (fun p => !fillJob p.2)).foldl (fun s p => endJob s p.1 St.REGULATOR_RESTART) s
  let s := { s with nl := { s.nl with enumJob := none } }
  { s with ctxs := s.ctxs.map (fun (p : Nat × Ctx) =>
      (p.1, { p.2 with spans := [], stuck := 0, quiet := 0, stage := if p.2.stage = 5 then 0 else p.2.stage })) }

/-- RELOAD_COMPLETE (R182, steps 4 and 5 of R404): the cores restart in lockstep. -/
def execReloadComplete (s : State) : Out :=
  .next <| match s.er.recov with
  | none => s
  | some r => match r.image with
    | none => s
    | some k =>
      if s.er.rmFailed then s
      else
        let s := match (if k = 0 then copyImage s else (chooseImage s).map (·.2.2)) with
          | some img => runImage s img (k != 0)
          | none => s
        let s := countReg (regulatorUp s) Reg.RG_RESTARTS 16 1
        let s := { s with
          er := { s.er with recov := none, heldFrozen := false }, bu := { s.bu with restoring := s.bu.restoring.filter (· != Fun.REGULATOR) } }
        let s := if r.cause = 0 then
            let s := driveAlarm (setFlag s Reg.ER_DEVICE 2 false)
            chrono (setFlag s Reg.RS_FAILED Fun.REGULATOR false) Chr.FN_RESTORED none Fun.REGULATOR 1 0
          else
            let ms := satTo 0xFFFF ((s.time.dev - r.frozenAt) / 100000)
            let s := putReg (countReg s Reg.RM_RECOVERIES 32 1) Reg.RM_LAST (BitVec.ofNat 32 (ms * 2 ^ 16 + k * 16 + r.cause))
            setFlag (chrono s Chr.RECOVERY none Fun.REGULATOR r.cause r.fencedCtx) Reg.ER_IRQ 3 true
        checkDone (afterReload s)

/-! ### Function resets and tests (R384, R385) -/

/-- Bit 1: the Regulator is frozen and its firmware reloaded (R182). -/
def resetRegulator (s : State) : State :=
  let s := freeze (countSource s 9) 1
  { s with er := { s.er with recov := some { cause := 0, frozenAt := s.time.dev, fencedCtx := 0 } } }

/-- A function reset of any bit of R384. -/
def resetAny (s : State) (n : Nat) : State := if n = Fun.REGULATOR then resetRegulator s else resetFn s n

/-- The SELF_TEST job at work on a function. -/
def testJob (s : State) (n : Nat) : Option (Nat × Job) :=
  (runningJobs s).find? (fun p => p.2.code == Cmd.SELF_TEST && p.2.arg == n + 1 && p.2.final.isNone)

/-- RESET_FUNCTION (R384): answered once the fence is in force (R409). -/
def execResetFunction (mb : Nat) (s : State) : Out :=
  .next <| match cmdReq s mb Cmd.RESET_FUNCTION with
  | none => s
  | some r =>
    let n := wd r 4
    if mb ≤ 14 ∧ s.er.rmFailed = true then refuse s mb St.RM_UNAVAILABLE
    else
      let s := match testJob s n with
        | some (j, x) => setJob s j { x with final := some (St.FN_FENCED n) }
        | none => s
      resetAny (answerOk s mb []) n

/-- R385: a SELF_TEST job goes on with its lowest function from `k`, or has its final status. -/
def testFrom (s : State) (j k : Nat) : State :=
  let x := jobOf s j
  match (maskList x.obj 19).find? (fun n => decide (k ≤ n)) with
  | some n => resetAny (setJob s j { x with arg := n + 1 }) n
  | none => setJob s j { x with arg := 0, result := x.arg2, final := some (if x.arg2 = 0 then St.SUCCESS else St.FUNCTION_FAILED) }

/-- SELF_TEST (R385): a job over the named functions. -/
def execSelfTest (mb : Nat) (s : State) : Out :=
  .next <| match cmdReq s mb Cmd.SELF_TEST with
  | none => s
  | some r => match freeJob s with
    | none => refuse s mb St.JOBS_FULL
    | some j =>
      let m := wd r 4
      let s := acceptJob s mb { obj := m, total := (maskList m 19).length }
      if m = 0 then endJob s j St.SUCCESS else testFrom s j 0

/-- FUNCTION_RESTORED (R396): the test of a function in RESTORING ends. -/
def execFunctionRestored (fn : Nat) (pass : Bool) (s : State) : Out :=
  .next <|
    if (fnOf s fn).st ≠ .restoring then s
    else
      let s := if pass then unitUp s fn else setFlag (setFn s fn { fnOf s fn with st := .fenced }) Reg.RS_FAILED fn true
      let s := { s with bu := { s.bu with restoring := s.bu.restoring.filter (· != fn) } }
      let s := chrono s Chr.FN_RESTORED none fn (b2n pass) 0
      match testJob s fn with
      | some (j, x) => testFrom (setJob s j { x with done := x.done + 1, arg2 := if pass then x.arg2 else x.arg2 ||| 2 ^ fn }) j (fn + 1)
      | none => s

/-! ### Device-wide causes and memory errors (R399, R400) -/

/-- DEVICE_CAUSE (R399): a fault that cannot be confined; causes 0, 2 and 4 come with what R408, R405 and R403 do. -/
def execDeviceCause (cause : Nat) (s : State) : Out :=
  .next <|
    if cause = 0 then votingFailed s
    else if cause = 2 then (if s.er.heldFrozen then raiseCause s 2 else regulatorDead (freeze s 4))
    else if cause = 4 then raiseCause (setFlag s Reg.RG_STATUS 8 true) 4
    else if cause ≤ 4 then raiseCause s cause
    else s

/-- A line of device memory marked poisoned, in rising order. -/
def poisonIns (l : Nat) : List Nat → List Nat
  | [] => [l]
  | x :: t => if l < x then l :: x :: t else if l = x then x :: t else x :: poisonIns l t

/-- MEMORY_ECC_ERROR (R400): a word read from HBM3E is corrected, or its line is poisoned. -/
def execMemoryEccError (addr : Nat) (double : Bool) (s : State) : Out :=
  .next <|
    if Config.memBytes s.fuse.variant ≤ addr then s
    else if double = false then
      noteScrub { countReg s Reg.ER_MEM_CORRECTED 32 1 with er := { s.er with memFixed := s.er.memFixed + 1 } } 0 addr false
    else if s.mem.poison.contains (addr / 128) then s
    else
      let s := countReg s Reg.ER_MEM_UNCORRECTED 32 1
      let s := { s with mem := { s.mem with poison := poisonIns (addr / 128) s.mem.poison }, er := { s.er with memPoisoned := s.er.memPoisoned + 1 } }
      chrono (noteScrub s 0 addr true) Chr.MEM_POISON none Fun.MEMORY (addr / 128 * 128) 0

end Sys2Proof.Machine
end

