-- ==== Sys2Proof/Machine/Chronograph.lean ====
section
/-! DEFINITION. The Chronograph's commands (chapter 24): records, reading, limits, clearing, export, and the
permanent store's programming. -/

namespace Sys2Proof.Machine

/-- The codes of Table CH-4 that a happening may record. -/
def codeListed (c : Nat) : Bool :=
  (decide (1 ≤ c) && decide (c ≤ 4)) || (decide (0x10 ≤ c) && decide (c ≤ 0x16)) || (decide (0x18 ≤ c) && decide (c ≤ 0x1A)) ||
  (decide (0x20 ≤ c) && decide (c ≤ 0x28)) || (decide (0x30 ≤ c) && decide (c ≤ 0x35)) || c == 0x38 ||
  (decide (0x40 ≤ c) && decide (c ≤ 0x46)) || c == 0x48 || c == 0x49

/-- CHRONOGRAPH_RECORD (R413, R417, R422). -/
def execChronographRecord (code : Nat) (hasCtx : Bool) (ctx fn : Nat) (arg0 arg1 : Dword) (s : State) : Out :=
  .next (if codeListed code then chrono s code (if hasCtx then some (ctx % 256) else none) (fn % 256) arg0.toNat arg1.toNat else s)

/-- PERMANENT_PROGRAM (R414): the next record of the mirror is programmed, in index order; never during an erase. -/
def execPermanentProgram (s : State) : Out :=
  .next (if s.ch.erasing.isNone && decide (s.ch.durable < s.ch.perm.length) then { s with ch := { s.ch with durable := s.ch.durable + 1 } } else s)

/-- The word at 0x0C of a record (Table CH-2). -/
def recFlags (r : Rec) : Nat :=
  r.code % 256 * 2 ^ 24 + b2n r.tsrc * 2 ^ 23 + b2n r.ctxValid * 2 ^ 22 + b2n r.perm * 2 ^ 21 + r.ctx % 256 * 2 ^ 8 + r.fn % 256

/-- The eight words of a record (Table CH-2). -/
def recWords (r : Rec) : List Nat := lohi r.time ++ [r.seq.toNat, recFlags r] ++ lohi r.arg0.toNat ++ lohi r.arg1.toNat

/-- The 32 bytes of a record. -/
def recBytes (r : Rec) : List Byte := (recWords r).flatMap (fun w => toLe w 4)

/-- SEQ of the oldest record held (CH_CIRC_OLDEST). -/
def circOldest (s : State) : Word := ((s.ch.circ.head?).map (·.seq)).getD s.ch.nextSeq

/-- The record at an index of a store: by SEQ of the circulating one, by order of entry of the permanent one. -/
def recAt (s : State) (circ : Bool) (i : Nat) : Option Rec :=
  if circ then s.ch.circ.find? (fun r => r.seq.toNat == i) else s.ch.perm[i]?

/-- Records of a store. -/
def recCount (s : State) (circ : Bool) : Nat := if circ then s.ch.circ.length else s.ch.perm.length

/-- CHRONO_READ (R419). -/
def execChronoRead (mb : Nat) (s : State) : Out :=
  .next <| match cmdReq s mb Cmd.CHRONO_READ with
  | none => s
  | some r =>
    let circ := natBits (wd r 4) 0 1 == 1
    match recAt s circ (wd r 5) with
    | none => refuse s mb St.NOT_FOUND
    | some x => answerOk s mb (recWords x ++ [recCount s circ])

/-- CHRONO_INFO (R419). -/
def execChronoInfo (mb : Nat) (s : State) : Out :=
  .next <| match cmdReq s mb Cmd.CHRONO_INFO with
  | none => s
  | some _ => answerOk s mb [recCount s false, recCount s true, (circOldest s).toNat]

/-- CHRONO_LIMIT (R418): the rate is set and the bucket refilled; its pending count stays. -/
def execChronoLimit (mb : Nat) (s : State) : Out :=
  .next <| match cmdReq s mb Cmd.CHRONO_LIMIT with
  | none => s
  | some r =>
    let c := wd r 4
    let b : Bucket := { tget {} s.ch.buckets c with rate := wd r 5, nanoTokens := 16000000000, since := calTime s }
    answerOk { s with ch := { s.ch with buckets := tput {} s.ch.buckets c b } } mb []

/-! ### CHRONO_CLEAR (R421) -/

/-- A running export reads one of the stores of a mask: bit 0 permanent, bit 1 circulating. -/
def exportReads (s : State) (mask : Nat) : Bool :=
  (runningJobs s).any (fun p => p.2.code == Cmd.CHRONO_EXPORT && natBits mask p.2.obj 1 == 1)

/-- The CLEARED record: entry 0 of the permanent store when that was cleared. -/
def clearedRec (s : State) (mask : Nat) : State :=
  if natBits mask 0 1 = 1 ∧ (fnOf s Fun.CHRONOGRAPH).ready = true then
    let r : Rec := { time := calTime s, seq := s.ch.nextSeq, code := Chr.CLEARED, tsrc := rbit s Reg.TM_STATUS 3, perm := true, arg0 := BitVec.ofNat 64 mask }
    let circ := s.ch.circ ++ [r]
    let n := s.ch.perm.length
    let s := { s with ch := { s.ch with
      circ := if circ.length > 16384 then circ.drop 1 else circ, nextSeq := s.ch.nextSeq + 1, perm := (r :: s.ch.perm).take 4096 } }
    let s := if n + 1 = 3072 then setFlag s Reg.CH_IRQ 0 true else s
    if n + 1 = 4096 then setFlag s Reg.CH_IRQ 1 true else s
  else chrono s Chr.CLEARED none 0 mask 0

/-- CHRONO_CLEAR (R421): with the permanent store named, the response waits for the erase. -/
def execChronoClear (mb : Nat) (s : State) : Out :=
  .next <| match cmdReq s mb Cmd.CHRONO_CLEAR with
  | none => s
  | some r =>
    let m := wd r 4
    if s.ch.erasing.isSome then s
    else if exportReads s m then refuse s mb St.OBJECT_BUSY
    else
      let s := if natBits m 1 1 = 1 then { s with ch := { s.ch with circ := [] } } else s
      if natBits m 0 1 = 1 then { s with ch := { s.ch with perm := [], durable := 0, erasing := some mb, eraseMask := m } }
      else answerOk (clearedRec s m) mb []

/-- PERMANENT_ERASE_COMPLETE (R421): the CLEARED record is written and CHRONO_CLEAR responds. -/
def execPermanentEraseComplete (s : State) : Out :=
  .next <| match s.ch.erasing with
  | none => s
  | some mb =>
    let s := clearedRec { s with ch := { s.ch with erasing := none, eraseMask := 0 } } s.ch.eraseMask
    match cmdReq s mb Cmd.CHRONO_CLEAR with
    | some _ => answerOk s mb []
    | none => s

/-! ### CHRONO_EXPORT (R420) -/

/-- CHRONO_EXPORT: the job selects the oldest records at acceptance: `obj` is the store, `arg` the buffer, `arg2` the
first index. -/
def execChronoExport (mb : Nat) (s : State) : Out :=
  .next <| match cmdReq s mb Cmd.CHRONO_EXPORT with
  | none => s
  | some r =>
    let c := natBits (wd r 4) 8 8
    let circ := natBits (wd r 4) 0 1 == 1
    let n := Nat.min (wd r 8) (recCount s circ)
    if ctxExists s c = false then refuse s mb St.NOT_FOUND
    else match freeJob s with
      | none => refuse s mb St.JOBS_FULL
      | some j =>
        let s := acceptJob s mb { ctx := some c, obj := b2n circ, arg := wd64 r 6, arg2 := if circ then (circOldest s).toNat else 0, total := n }
        if n = 0 then endJob s j St.SUCCESS
        else if (ctxOf s c).st ≠ .active then setJob s j { jobOf s j with final := some St.CTX_FENCED }
        else s

/-- R420: the next records of an export, up to `n` of them, are written while their translations stand; one overwritten
meanwhile is 32 zero bytes; a failed translation decides OUT_FAULT. -/
def exportRun (s : State) (j : Nat) : Nat → State
  | 0 => s
  | n + 1 =>
    let x := jobOf s j
    let w : Who := { stream := 60, ctx := x.ctx.getD 0, eng := 0 }
    let a : Acc := { va := x.arg + 32 * x.done, len := 32, kind := 1 }
    let r := recAt s (x.obj == 1) (if x.obj = 1 then (x.arg2 + x.done) % 2 ^ 32 else x.arg2 + x.done)
    let d := (r.map recBytes).getD (List.replicate 32 0)
    match prepare s w [a] with
    | .wait s => s
    | .fault s _ => setJob s j { jobOf s j with final := some St.OUT_FAULT }
    | .ok s m =>
      let s := vaWr s true w m a.va d
      exportRun (setJob s j { x with done := x.done + 1, result := x.result + 1, arg3 := x.arg3 + b2n r.isNone }) j n

end Sys2Proof.Machine
end

