-- ==== Sys2Proof/Machine/Jobs.lean ====
section
/-! DEFINITION. The end of jobs (R177 to R179), SCRUB, and the reports of mailbox 15: STATUS and READ_COUNTERS. -/

namespace Sys2Proof.Machine

/-! ### SCRUB (R401) -/

/-- Size of a scrub's target: bytes of HBM3E, MiB of the others. -/
def scrubSize (v : Variant) (target : Nat) : Nat :=
  [Config.memBytes v, Config.frames v / 8, Config.granules v / 4, Config.caSets v / 32].getD target 0

/-- SCRUB: `obj` is the target, `arg` the base, `arg2` the length. -/
def execScrub (mb : Nat) (s : State) : Out :=
  .next <| match cmdReq s mb Cmd.SCRUB with
  | none => s
  | some r =>
    let t := wd r 4
    if scrubSize s.fuse.variant t < wd64 r 6 + wd64 r 8 then refuse s mb St.BAD_ARGUMENT
    else match freeJob s with
      | none => refuse s mb St.JOBS_FULL
      | some j =>
        let n := if t = 0 then wd64 r 8 / 2 ^ 20 else wd64 r 8
        let s := acceptJob s mb { obj := t, arg := wd64 r 6, arg2 := wd64 r 8, total := n }
        if n = 0 then endJob s j St.SUCCESS else s

/-! ### JOB_DONE -/

/-- A job of a model. -/
def isModelJob (x : Job) : Bool := decide (Cmd.MODEL_LOAD ≤ x.code) && decide (x.code ≤ Cmd.MODEL_UNLOAD)

/-- R176: two jobs act on the same context, model, fabric or Chronograph store. -/
def sameObject (x y : Job) : Bool :=
  (isModelJob x && isModelJob y && x.obj == y.obj) ||
  (!isModelJob x && !isModelJob y && x.ctx.isSome && x.ctx == y.ctx) ||
  (isFabJob x && isFabJob y) ||
  (x.code == Cmd.CHRONO_EXPORT && y.code == Cmd.CHRONO_EXPORT && x.obj == y.obj)

/-- An older job on the same object is still running. -/
def jobBehind (s : State) (x : Job) : Bool := (runningJobs s).any (fun p => decide (p.2.order < x.order) && sameObject x p.2)

/-- The least recently used model of a context that is neither pinned nor held, with blocks in the Barrel. -/
def quotaVictim (s : State) (c : Nat) : Option (Nat × Model) :=
  ((ctxModels s c).filter (fun p => !p.2.pinned && !held s p.1 && decide (0 < p.2.resident))).foldl (fun b p => match b with
    | none => some p
    | some q => if p.2.recency < q.2.recency then some p else some q) none

/-- R90: models of a context are evicted until its frames fit the quota of a BARREL_QUOTA job. -/
def quotaEvict (s : State) (j : Nat) : Nat → State
  | 0 => s
  | n + 1 =>
    let x := jobOf s j
    if ctxFrames s x.obj ≤ x.arg then setJob s j { x with done := x.total, final := some St.SUCCESS }
    else match quotaVictim s x.obj with
      | none => s
      | some (i, m) => quotaEvict (setJob (evictModel s i) j { x with done := Nat.min x.total (x.done + m.resident) }) j n

/-- What is left of a job's work, where the job itself carries it: its final status is decided once it is done. -/
def jobWork (s : State) (j : Nat) : State :=
  let x := jobOf s j
  let ends := fun (s : State) (st done : Nat) => setJob s j { jobOf s j with final := some st, done := done }
  if x.final.isSome then s
  else if x.code = Cmd.MODEL_EVICT then
    (match modelOf s x.obj with
    | none => ends s St.NOT_FOUND x.done
    | some m => if m.pinned then ends s St.PINNED x.done else if held s x.obj then s else ends (evictModel s x.obj) St.SUCCESS x.total)
  else if x.code = Cmd.MODEL_UNLOAD then
    (if (modelOf s x.obj).isNone then ends s St.NOT_FOUND x.done
     else if held s x.obj then s else ends (unloadModel s x.obj) St.SUCCESS x.total)
  else if x.code = Cmd.BARREL_QUOTA then quotaEvict s j ((ctxModels s x.obj).length + 1)
  else if x.code = Cmd.CHRONO_EXPORT then
    let s := exportRun s j (x.total - x.done)
    if (jobOf s j).final.isNone && (jobOf s j).done == x.total then ends s St.SUCCESS x.total else s
  else if x.code = Cmd.SCRUB then ends s St.SUCCESS x.total
  else if isFabJob x then
    (if s.nl.enumJob = some j then closeEnum s
     else if x.arg3 = 0 ∧ fabBusy s = false then startFabJob s j
     else s)
  else s

/-- JOB_DONE (R177 to R179): a job whose final status is decided ends, after the older ones on its object. Jobs of the
Barrel's fill path end whatever the Regulator does (R182). -/
def execJobDone (job : Nat) (s : State) : Out :=
  .next <|
    let x := jobOf s job
    if x.st ≠ .running ∨ (rgRunning s || fillJob x) = false ∨ jobBehind s x = true then s
    else
      let s := jobWork s job
      match (jobOf s job).final with
      | some st => endJob s job st
      | none => s

/-! ### Mailbox 15 (Table MB-6, Table ER-6) -/

/-- STATUS (R180). -/
def execStatus (mb : Nat) (s : State) : Out :=
  .next <| match cmdReq s mb Cmd.STATUS with
  | none => s
  | some _ =>
    let drain := (s.ctxs.filter (fun p => (p.2.st == .fenced || p.2.st == .destroying) && decide (0 < ctxInFlight s p.1))).length
    answerOk s mb ([(getReg s Reg.RG_STATUS).toNat, readyMask s, fencedMask s, ctxFencedCount s + drain * 2 ^ 16] ++ lohi (calTime s))

/-- The tick counter of an engine of Table RD-1. -/
def engTicks (s : State) (n : Nat) : Nat :=
  if Config.engineOf s.fuse.variant n ≠ some true then 0
  else if n = 0 then getWide s Reg.GW_TICKS_LO
  else if n = 1 then getWide s Reg.BN_TICKS_LO
  else if n = 2 then getWide s Reg.PN_TICKS_LO
  else if n = 3 then getWide s Reg.DF_TICKS_LO
  else if n = 4 then getWide s Reg.CR_TICKS_LO
  else if n ≤ 8 then getWide s (Reg.MP_P_TICKS_LO (n - 5))
  else getWide s (Reg.TE_TICKS_LO (n - 16))

/-- Table ER-6: a counter of a bank; zero beyond it. -/
def bankAt (s : State) (bank i : Nat) : Nat :=
  if bank = 0 then (if i = 0 then s.bu.backup.total else if i ≤ 9 then tget 0 s.bu.backup.counts i else 0)
  else if bank = 1 then engTicks s i
  else [s.er.ctxFences, s.er.fnFences, (getReg s Reg.RM_RECOVERIES).toNat, s.er.disagrees, s.er.selfTests, s.er.memFixed, s.er.memPoisoned].getD i 0

/-- READ_COUNTERS (R410). -/
def execReadCounters (mb : Nat) (s : State) : Out :=
  .next <| match cmdReq s mb Cmd.READ_COUNTERS with
  | none => s
  | some r => answerOk s mb ((List.range 5).flatMap (fun k => lohi (bankAt s (wd r 4) (wd r 5 + k))))

end Sys2Proof.Machine
end

