-- ==== Sys2Proof/Machine/Media.lean ====
section
/-! DEFINITION. Media ports (R317, R318, R320 to R325): stream records, links, received packets and ingest. -/

namespace Sys2Proof.Machine

def mpOf (s : State) (p : Nat) : MpPort := tget {} s.mp.ports p
def setMp (s : State) (p : Nat) (x : MpPort) : State := { s with mp := { s.mp with ports := tput {} s.mp.ports p x } }
def setIngest (s : State) (p : Nat) (i : Ingest) : State := setMp s p { mpOf s p with ingest := some i }
def rxWord (s : State) (p rx i : Nat) : Word := getReg s (Reg.MP_RXREC (64 * p + 16 * rx + i))
def linkUp (s : State) (p : Nat) : Bool := rbit s (Reg.MP_P_CFG p) 31 && rbit s (Reg.MP_P_STATUS p) 0

/-- STREAM_RECORD_WRITE (R318): a write of a word of a stream record. -/
def execStreamRecordWrite (off : Nat) (val : Word) (s : State) : Out :=
  .next <| hostWr s off fun s =>
    let rx := decide (Reg.MP_RXREC 0 ≤ off) && decide (off < Reg.MP_RXREC 256)
    let tx := decide (Reg.MP_TXREC 0 ≤ off) && decide (off < Reg.MP_TXREC (16 * Config.crOutputs s.fuse.variant))
    if (rx || tx) = false ∨ off % 4 ≠ 0 then s
    else
      let base := off / 64 * 64
      if rbit s base 31 && (off != base || bit val 31) then setFlag s Reg.MP_ERR 0 true else putReg s off val

/-- MEDIA_LINK_UP (R320): the link comes up and RS-FEC aligns. -/
def execMediaLinkUp (port : Nat) (s : State) : Out :=
  .next <| if 4 ≤ port then s else setFld s (Reg.MP_P_STATUS port) 0 2 3

/-- MEDIA_LINK_DOWN (R320, R325): a frame in progress is to be dropped. -/
def execMediaLinkDown (port : Nat) (s : State) : Out :=
  .next <|
    if 4 ≤ port then s
    else
      let s := setFld s (Reg.MP_P_STATUS port) 0 2 0
      match (mpOf s port).ingest with
      | some i => if i.frame.isSome then setIngest s port { i with dropped := true } else s
      | none => s

/-! ### INGEST (R322) -/

def igFmt (i : Ingest) : Img := i.img
/-- Bytes of a pixel. -/
def igB (i : Ingest) : Nat := (igFmt i).channels * (if i.wide then 2 else 1)
/-- The element rules of the entry (R322). -/
def ingestImageOk (s : State) (c : Nat) (raw wide cfa4 : Bool) (dest w h : Nat) (b : Img) : Bool :=
  Img.ok b 0 && (if wide then b.cls == 4 && b.format == 9 else b.cls == 3 && b.format == 7) && b.samples == 1 && b.apron == 0 && b.external &&
  (if raw then b.channels == (if cfa4 then 4 else 1) else b.frameW == w && b.frameH == h && (b.channels == 3 || b.channels == 4)) &&
  (dest != 0 || decide (b.range.2 < 16 * (ctxOf s c).granules.length))

/-- Table MT-5. -/
def ingestRec (s : State) (i : Ingest) (st : Nat) : List Byte :=
  toLe (st + i.rx * 2 ^ 16 + i.ctx * 2 ^ 24) 4 ++ toLe (i.rows + i.lost * 2 ^ 16) 4 ++ toLe (i.frame.getD 0) 4 ++ toLe 0 4 ++ toLe i.capture 8 ++ toLe (calTime s) 8

/-- An ingest leaves its port with a status; `flag` marks ROW_EVENT at its present count. -/
def endIngest (s : State) (p : Nat) (i : Ingest) (st : Nat) (flag : Bool) : State :=
  let s := setMp (dropWaits s 4 i.desc) p { mpOf s p with ingest := none }
  let s := if flag then recordOwn s i.ctx i.rowEvent (.set true (evOf s i.rowEvent).count) else s
  match tfind s.esc.descs i.desc with
  | none => s
  | some d =>
    let st := (fenceStatus s d.ctx d.eng).getD st
    endDesc (setDesc s i.desc { d with record := if i.compl = 0 then none else some (i.compl, ingestRec s i st) }) i.desc st

/-- INGEST (R322): an engine serves one descriptor at a time. -/
def execIngest (desc : Nat) (s : State) : Out :=
  .next <| match startedDesc s desc Op.INGEST with
  | none => s
  | some d =>
    let p := d.eng - 5
    if (mpOf s p).ingest.isSome then s
    else
      let b := d.bytes
      let w0 := leAt b 0x10 4
      let rx := natBits w0 16 2
      let dest := natBits w0 30 2
      let wide := natBits w0 29 1 == 1
      let cfa4 := natBits w0 28 1 == 1
      let raw := bits (rxWord s p rx 0) 29 2 == 1
      let mem := leAt b 0x20 8
      if natBits w0 18 6 ≠ 0 ∨ leAt b 0x16 2 ≠ 0 ∨ dest = 3 ∨ vaOk 64 (leAt b 0x18 8) = false ∨ vaOk 64 mem = false ∨ (dest = 0 ∧ mem ≠ 0) ∨
        vaOk 32 (leAt b 0x38 8) = false then endDesc s desc St.BAD_OPERAND
      else if bit (rxWord s p rx 0) 31 = false then endDesc s desc St.STREAM_OFF
      else
        let va := leAt b 0x18 8
        let w : Who := { stream := 56 + p, ctx := d.ctx, eng := d.eng, ring := some d.ring }
        withMem s w [{ va := va, len := 64, kind := 0 }]
          (fun s m =>
            let img := vaRd s false m va 64
            if ingestImageOk s d.ctx raw wide cfa4 dest (bits (rxWord s p rx 1) 0 16) (bits (rxWord s p rx 1) 16 16) img = false then endDesc s desc St.BAD_IMAGE_TABLE
            else setIngest s p
              { desc := desc, ctx := d.ctx, ring := d.ring, rx := rx, dest := dest, wide := wide, cfa4 := cfa4, cfa := natBits w0 26 2
                strict := natBits w0 25 1 == 1, relEn := natBits w0 24 1 == 1, rowEvent := natBits w0 0 16, relEvent := leAt b 0x14 2, img := img
                memAddr := mem, rowBase := leAt b 0x28 8, relBase := leAt b 0x30 8, compl := leAt b 0x38 8 })
          (fun s _ => endDesc s desc St.IN_FAULT)

/-! ### Samples (R321, R323) -/

/-- A code of `n` bits as an element. -/
def sampleOf (wide : Bool) (n c : Nat) : Nat := if wide then c else Nat.min 255 (Num.shiftRound .rne c (n - 8))

/-- Code `k` of `n` bits in a big-endian bit string. -/
def beCode (b : List Byte) (n k : Nat) : Nat := natBits (leNat b.reverse) (8 * b.length - n * (k + 1)) n

/-- The elements of a pixel as bytes. -/
def pixBytes (wide : Bool) (es : List Nat) : List Byte := (es.map (fun e => toLe e (if wide then 2 else 1))).flatten

/-- A run of pixels of a packet: its row, first column, and the bytes of each pixel. -/
abbrev PixRun := Nat × Nat × List (List Byte)

/-- Pixels of an ST 2110-20 run (R323). -/
def srdRun (i : Ingest) (s422 : Bool) (n : Nat) (q : Srd) : PixRun :=
  let e := sampleOf i.wide n
  let ones := if (igFmt i).channels = 4 then [if i.wide then 0xFFFF else 0xFF] else []
  let pix (k : Nat) : List Byte :=
    let c := fun j => e (beCode q.data n j)
    if s422 then pixBytes i.wide ([c (4 * (k / 2) + 1 + 2 * (k % 2)), c (4 * (k / 2)), c (4 * (k / 2) + 2)] ++ ones)
    else pixBytes i.wide ([c (3 * k), c (3 * k + 1), c (3 * k + 2)] ++ ones)
  let codes := 8 * q.data.length / n
  (q.row, q.col, (List.range (if s422 then codes / 4 * 2 else codes / 3)).map pix)

/-- Raw-tile header fields (Table MT-3), big-endian. -/
def be (b : List Byte) (off n : Nat) : Nat := leNat ((b.drop off).take n).reverse

/-- R321: a raw packet matches its ingest. -/
def rawOk (i : Ingest) (b : List Byte) : Bool :=
  let g := igFmt i
  let n := be b 1 1
  be b 0 1 == 1 && decide (10 ≤ n) && decide (n ≤ 16) && be b 2 1 + 1 == g.tw && be b 3 1 + 1 == g.th && decide (be b 8 2 < g.gy) && decide (be b 10 2 < g.gx) &&
  natBits (be b 12 4) 16 15 == 0 && decide (1 ≤ be b 15 1) && decide (be b 14 1 + be b 15 1 ≤ g.th) && b.length == 24 + be b 15 1 * ceilDiv (g.tw * n) 8

/-- Pixels of a raw packet (R321, R323). -/
def rawRuns (i : Ingest) (b : List Byte) : List PixRun :=
  let g := igFmt i
  let n := be b 1 1
  let rb := ceilDiv (g.tw * n) 8
  (List.range (be b 15 1)).map (fun r =>
    let row := be b 8 2 * g.th + be b 14 1 + r
    let data := (b.drop (24 + r * rb)).take rb
    (row, be b 10 2 * g.tw, (List.range g.tw).map (fun x =>
      let v := sampleOf i.wide n (natBits (leNat data) (n * x) n)
      if i.cfa4 then
        let ch := (2 * (row % 2) + (be b 10 2 * g.tw + x) % 2) ^^^ i.cfa
        pixBytes i.wide ((List.range 4).map (fun k => if k = ch then v else 0))
      else pixBytes i.wide [v])))

/-- The runs of a packet, cut to the frame. -/
def runsOf (s : State) (p : Nat) (i : Ingest) (k : MediaPkt) : List PixRun :=
  let w := rxWord s p i.rx 0
  let rs := if bits w 29 2 = 1 then rawRuns i k.raw else k.srds.map (srdRun i (bit w 27) (bits w 16 5))
  (rs.map (fun r => (r.1, r.2.1, r.2.2.take ((igFmt i).frameW - r.2.1)))).filter (fun r => decide (r.1 < (igFmt i).frameH) && r.2.2 != [])

/-! ### Placing (R322, R324) -/

/-- Where a pixel lies in memory (R138). -/
def igVa (i : Ingest) (y x : Nat) : Nat :=
  let g := igFmt i
  if i.dest = 1 then i.memAddr + y * (ceilDiv (g.frameW * igB i) 64 * 64) + x * igB i
  else i.memAddr + (y / g.th * g.gx + x / g.tw) * (ceilDiv g.tileBytes 64 * 64) + g.byteAt 0 (y % g.th) (x % g.tw) 0

/-- A run cut at tile columns. -/
def cutRun (tw : Nat) (r : PixRun) : List PixRun :=
  let n := r.2.2.length
  (List.range ((r.2.1 + n - 1) / tw + 1 - r.2.1 / tw)).map (fun k =>
    let a := Nat.max r.2.1 ((r.2.1 / tw + k) * tw)
    let z := Nat.min (r.2.1 + n) ((r.2.1 / tw + k + 1) * tw)
    (r.1, a, (r.2.2.drop (a - r.2.1)).take (z - a)))

/-- R324: the release of a tile row: waited for from row ⌈R ÷ GX⌉ on. -/
def rowReleased (s : State) (i : Ingest) (r : Nat) : State × WaitSt :=
  let g := igFmt i
  let k := ceilDiv g.ring g.gx
  if i.relEn = false ∨ r < k then (s, .met) else awaitEv s 4 i.desc r i.ctx i.relEvent ((i.relBase + r + 1 - k) % 2 ^ 63)

/-- What writing runs answers: they wait, or they are written; or the ingest ends with a status. -/
inductive Placed where
  | wait (s : State)
  | done (s : State)
  | stop (s : State) (status : Nat)

/-- The releases of several tile rows. -/
def rowsReleased (s : State) (i : Ingest) : List Nat → State × WaitSt
  | [] => (s, .met)
  | r :: rs =>
    let q := rowReleased s i r
    let ign := ((tfind s.esc.descs i.desc).map (fun d => hIgnErr d.bytes)).getD false
    match q.2 with
    | .met => rowsReleased q.1 i rs
    | .err => if ign then rowsReleased q.1 i rs else q
    | .pending => ((rowsReleased q.1 i rs).1, .pending)
    | .gone => q

/-- Runs written to the destination, once their rows are released and their translations are known. -/
def placeRuns (s : State) (p : Nat) (i : Ingest) (rs : List PixRun) : Placed :=
  let g := igFmt i
  let q := rowsReleased s i ((rs.map (fun r => r.1 / g.th)).eraseDups)
  match q.2 with
  | .pending => .wait q.1
  | .err => .stop q.1 St.DEPENDENCY_ERROR
  | .gone => .stop q.1 St.BAD_EVENT
  | .met =>
    let cut := (rs.map (cutRun g.tw)).flatten
    let n := (cut.map (fun r => r.2.2.flatten.length)).sum
    let count (s : State) : State := tickFor (addWide s (Reg.MP_P_TICKS_LO p) n) i.ctx (5 + p)
    if i.dest = 0 then
      .done (count (cut.foldl (fun s r =>
        let t := r.1 / g.th * g.gx + r.2.1 / g.tw
        let c := tileCode s i.ctx g t
        tileWr (if c = 0 then s else noteFail s i.desc c) i.ctx g t (g.byteAt 0 (r.1 % g.th) (r.2.1 % g.tw) 0) r.2.2.flatten) q.1))
    else
      let w : Who := { stream := 56 + p, ctx := i.ctx, eng := 5 + p, ring := some i.ring }
      match laneMem q.1 w (laneAccs ((cut.map (fun r => pageCuts (igVa i r.1 r.2.1) r.2.2.flatten.length 1)).flatten)) with
      | .wait s => .wait s
      | .go s m bad =>
        let s := if bad = [] then s else noteFail s i.desc St.OUT_FAULT
        .done (count (cut.foldl (fun s r => vaWr s false w m (igVa i r.1 r.2.1) r.2.2.flatten) s))

/-- Pixels noted as arrived. -/
def noteRuns (i : Ingest) (rs : List PixRun) : Ingest :=
  let mask (r : PixRun) : Nat := (2 ^ r.2.2.length - 1) <<< r.2.1
  { i with got := rs.foldl (fun (t : Tbl Nat) r => tset t r.1 (tget 0 t r.1 ||| mask r)) i.got }

/-- A pixel row has arrived whole. -/
def rowWhole (i : Ingest) (y : Nat) : Bool := tget 0 i.got y == 2 ^ (igFmt i).frameW - 1

/-- Pixel rows of a tile row. -/
def pixRows (i : Ingest) (ty : Nat) : List Nat :=
  (List.range (Nat.min (igFmt i).th ((igFmt i).frameH - ty * (igFmt i).th))).map (· + ty * (igFmt i).th)

/-- R324: rows complete in ascending order, each setting ROW_EVENT. -/
def completeRows (s : State) (p : Nat) (i : Ingest) : Nat → State × Ingest
  | 0 => (s, i)
  | n + 1 =>
    if i.rows < (igFmt i).gy ∧ (pixRows i i.rows).all (rowWhole i) = true then
      completeRows (recordOwn s i.ctx i.rowEvent (.set false ((i.rowBase + i.rows + 1) % 2 ^ 63))) p { i with rows := i.rows + 1 } n
    else (s, i)

/-- Packets of the port buffer are written in order as far as they can be. An ingest whose context or function is
fenced stops at the next tile row (R328). -/
def drainPkts (s : State) (p : Nat) (i : Ingest) : List MediaPkt → List MediaPkt → State
  | [], keep => setIngest s p { i with waiting := keep }
  | k :: ks, keep =>
    let rs := runsOf s p i k
    match placeRuns s p i rs with
    | .wait s => drainPkts s p i ks (keep ++ [k])
    | .stop s st => endIngest s p i st true
    | .done s =>
      let i := noteRuns i rs
      let r := completeRows s p i (igFmt i).gy
      if i.rows < r.2.rows ∧ (fenceStatus r.1 i.ctx (5 + p)).isSome then endIngest r.1 p r.2 St.CTX_FENCED true
      else drainPkts r.1 p r.2 ks keep

/-! ### MEDIA_PACKET_RECEIVE (R317, R318, R321, R324) -/

/-- R318: the receive stream that takes a packet. -/
def streamFor (s : State) (p : Nat) (k : MediaPkt) : Option Nat :=
  firstFrom (fun rx =>
    bit (rxWord s p rx 0) 31 && decide (bits (rxWord s p rx 0) 29 2 ≤ 1) && (rxWord s p rx 2).toNat == k.group && bits (rxWord s p rx 4) 16 16 == k.dport &&
    ((rxWord s p rx 3).toNat == 0 || (rxWord s p rx 3).toNat == k.src)) 0 4

/-- The instant of an RTP timestamp on the PTP timescale: the one nearest to the present. -/
def rtpInstant (s : State) (ts : Nat) : Nat :=
  let now := s.time.cal * 9 / 100000
  let d := (ts + 2 ^ 32 - now % 2 ^ 32) % 2 ^ 32
  let c := if d < 2 ^ 31 then now + d else now - (2 ^ 32 - d)
  c * 100000 / 9

/-- Bytes that a packet takes in the port buffer. -/
def pktSize (k : MediaPkt) : Nat := k.raw.length + (k.srds.map (·.data.length)).sum

/-- A packet of the frame that an ingest takes. -/
def takePkt (s : State) (p : Nat) (i : Ingest) (raw : Bool) (k : MediaPkt) : State :=
  if raw ∧ rawOk i k.raw = false then setFlag (countReg (setIngest s p i) (Reg.MP_P_DISCARDED p) 32 1) Reg.MP_ERR 1 true
  else
    let last := if raw then natBits (be k.raw 12 4) 31 1 == 1 else k.marker
    let i := { i with capture := if raw then be k.raw 16 8 else rtpInstant s k.ts, ended := last }
    if 4 * 2 ^ 20 < ((i.waiting ++ [k]).map pktSize).sum then setIngest s p { i with dropped := true }
    else drainPkts s p i (i.waiting ++ [k]) []

/-- MEDIA_PACKET_RECEIVE (R317, R318, R324): one frame of the link. -/
def execMediaPacketReceive (port : Nat) (pk : MediaPkt) (s : State) : Out :=
  .next <|
    if 4 ≤ port ∨ linkUp s port = false then s
    else if pk.fcsBad then countReg s (Reg.MP_P_FCS port) 32 1
    else if rbit s (Reg.MP_P_CFG port) 12 ∧ pk.vlan ≠ some (rfld s (Reg.MP_P_CFG port) 0 12) then countReg s (Reg.MP_P_DISCARDED port) 32 1
    else match streamFor s port pk with
      | none => countReg s (Reg.MP_P_DISCARDED port) 32 1
      | some rx =>
        let raw := bits (rxWord s port rx 0) 29 2 == 1
        let id := if raw then be pk.raw 4 4 else pk.ts
        let fresh := tget 0 (mpOf s port).cur rx != id + 1
        let s := setMp s port { mpOf s port with cur := tset (mpOf s port).cur rx (id + 1) }
        match (mpOf s port).ingest with
        | none => s
        | some i =>
          if i.rx ≠ rx ∨ i.ended ∨ i.dropped then s
          else match i.frame with
            | none => if fresh then takePkt s port { i with frame := some id } raw pk else s
            | some f => if f = id then takePkt s port i raw pk else setIngest s port { i with ended := true }

/-- INGEST_RELEASE (R324): packets that waited are written once their rows are released. -/
def execIngestRelease (port : Nat) (s : State) : Out :=
  .next <| match (mpOf s port).ingest with
  | none => s
  | some i => if i.waiting = [] ∨ i.dropped then s else drainPkts s port i i.waiting []

/-- INGEST_FRAME_END (R324, R328): an ended frame's missing rows are written as zero and its rows complete; an ingest
that is fenced ends. -/
def execIngestFrameEnd (port : Nat) (s : State) : Out :=
  .next <| match (mpOf s port).ingest with
  | none => s
  | some i =>
    if (fenceStatus s i.ctx (5 + port)).isSome then endIngest s port i St.CTX_FENCED true
    else if i.ended = false ∨ i.waiting ≠ [] ∨ i.dropped then s
    else
      let g := igFmt i
      let miss := (List.range g.frameH).filter (fun y => !rowWhole i y)
      let rs := miss.map (fun y => (y, 0, List.replicate g.frameW (List.replicate (igB i) (0 : Byte))))
      match placeRuns s port i rs with
      | .wait s => s
      | .stop s st => endIngest s port i st true
      | .done s =>
        let s := countReg s (Reg.MP_P_LOST_ROWS port) 32 miss.length
        let r := completeRows s port { noteRuns i rs with lost := miss.length } g.gy
        let err := ((tfind s.esc.descs i.desc).map (·.err)).getD 0
        endIngest r.1 port r.2 (if i.strict ∧ miss ≠ [] then St.INGEST_LOSS else err) false

/-- FRAME_DROP (R325): overflow of the port buffer, step 3 of Table SA-4, or a link lost mid-frame. -/
def execFrameDrop (port : Nat) (s : State) : Out :=
  .next <| match (mpOf s port).ingest with
  | none => s
  | some i =>
    if i.dropped ∨ (i.frame.isSome ∧ 3 ≤ s.sched.step) then
      endIngest (countReg s (Reg.MP_P_DROPPED port) 32 1) port i St.INGEST_DROPPED true
    else s

end Sys2Proof.Machine
end

