-- ==== Sys2Proof/Machine/Package.lean ====
section
/-! DEFINITION. Package, pins and power (chapter 21): rails and resets by them, pins, power measurement, the power cap,
thermal states and trips. -/

namespace Sys2Proof.Machine

/-! ### Rails and pins (R363 to R367) -/

/-- Table PK-5: thresholds of the four main rails, mV. -/
def railMin (rail : Nat) : Nat := [550, 820, 1030, 1650].getD rail 0

/-- R365: VBAK lies below 1.50 V while VDD_OPT is out of its range: the backup domain is lost. -/
def vbakWatch (s : State) : State :=
  let opt := s.pk.railsMv.getD 3 0
  if (opt < 1746 ∨ 1854 < opt) ∧ s.pk.railsMv.getD 4 0 < 1500 then
    { s with bu := { s.bu with backup := { s.bu.backup with lost := true } } }
  else s

/-- POWER_ON (R363, R365): rail 0 VDD_CORE, 1 VDD_SRAM, 2 VDD_HBM, 3 VDD_OPT or 4 VBAK stands at a voltage, or (5 and
above) nPWR_OK is released. -/
def execPowerOn (rail mv : Nat) (s : State) : Out :=
  .next <|
    if 5 ≤ rail then deviceReset (setFlag s Reg.GLOBAL_PINS 1 true) 1
    else
      let s := vbakWatch { s with pk := { s.pk with railsMv := s.pk.railsMv.set rail mv } }
      if rail < 4 ∧ rbit s Reg.GLOBAL_PINS 1 = false ∧ mv < railMin rail then deviceReset s 1 else s

/-- NWAKE (R367): nWAKE takes a level; low sets WAKE and wakes the link. -/
def execNwake (level : Bool) (s : State) : Out :=
  .next <|
    let s := setFlag s Reg.GLOBAL_PINS 2 level
    if level then s else { setFlag s Reg.GLOBAL_PK_EVENTS 0 true with hl := { s.hl with l1 := false } }

/-- NVM_WP_CHANGE (R367): the pin takes a level; a write in progress completes. -/
def execNvmWpChange (level : Bool) (s : State) : Out := .next (setFlag s Reg.GLOBAL_PINS 3 level)

/-! ### Power (R372 to R374) -/

/-- POWER_MEASURE (R372): every 10 µs, VDD_CORE and VDD_SRAM in mV and the package power in 1/8 W. -/
def execPowerMeasure (core sram eighths : Nat) (s : State) : Out :=
  .next <|
    if isDue s 7 10000 = false ∨ rbit s Reg.GLOBAL_PINS 1 = true then s
    else
      let l := (eighths :: s.pk.samples).take 100
      let s := markDone { s with pk := { s.pk with samples := l } } 7
      let s := setFld s Reg.GLOBAL_PWR_NOW 0 16 (satTo 0xFFFF (l.foldl (· + ·) 0 / l.length))
      setFlag (setFld (setFld s Reg.GLOBAL_VCORE 0 12 core) Reg.GLOBAL_VCORE 16 12 sram) Reg.GLOBAL_PWR_STATUS 0 true

/-- The cap in force, W; 0 is none (R373). -/
def capWatts (s : State) : Nat :=
  let c := rfld s Reg.GLOBAL_PWR_CAP 0 10
  if c = 0 then 0 else Nat.min (Nat.max 20 c) (Config.totalWatts s.fuse.variant)

/-- R377: the larger fraction is in force, and the causes that hold it are shown. -/
def showPace (s : State) : State :=
  let p := Nat.max s.pk.capPace s.pk.thermPace
  let s := setFld s Reg.GLOBAL_PWR_STATUS 4 4 p
  let s := setFlag s Reg.GLOBAL_PWR_STATUS 1 (decide (0 < p) && s.pk.capPace == p)
  setFlag s Reg.GLOBAL_PWR_STATUS 2 (decide (0 < p) && s.pk.thermPace == p)

/-- PACING_STEP (R373): every 100 µs the cap's fraction steps against the 1 ms average. -/
def execPacingStep (s : State) : Out :=
  .next <|
    if isDue s 8 100000 = false then s
    else
      let s := markDone s 8
      let s := if rfld s Reg.GLOBAL_PWR_STATUS 4 4 = 0 then s else addWide s Reg.GLOBAL_PWR_PACED_LO 100
      let cap := 8 * capWatts s
      let now := rfld s Reg.GLOBAL_PWR_NOW 0 16
      let p := s.pk.capPace
      let above := decide (0 < cap) && decide (cap < now)
      let unmet := above && p == 15
      let p' := if cap = 0 then 0 else if above then Nat.min 15 (p + 1) else if now * 100 < cap * 98 then p - 1 else p
      let was := rbit s Reg.GLOBAL_PWR_STATUS 3
      let s := setFlag { s with pk := { s.pk with capPace := p' } } Reg.GLOBAL_PWR_STATUS 3 unmet
      let s := if p = 0 ∧ 0 < p' then setFlag s Reg.GLOBAL_PK_EVENTS 3 true else s
      let s := if unmet then setFlag s Reg.GLOBAL_PK_EVENTS 4 true else s
      let s := if unmet && !was then chrono s Chr.CAP_UNMET none 0 now (rfld s Reg.GLOBAL_PWR_CAP 0 10) else s
      showPace s

/-! ### Thermal states (R375 to R377) -/

def tempOf (s : State) (i : Nat) : Int := tget 0 s.pk.temps i
/-- Sensors of the part: 48 on the die and one for each stack. -/
def sensors (s : State) : List Nat := List.range (48 + Config.hbmStacks s.fuse.variant)
/-- The hottest of some sensors, the lowest number among equals. -/
def hottest (s : State) : List Nat → Nat
  | [] => 0
  | i :: l => l.foldl (fun b j => if tempOf s b < tempOf s j then j else b) i
/-- Tj and Ts. -/
def dieTemp (s : State) : Int := tempOf s (hottest s (List.range 48))
def stackTemp (s : State) : Int := tempOf s (hottest s ((sensors s).drop 48))

/-- A signed byte. -/
def sbyte (t : Int) : Nat := (BitVec.ofInt 8 t).toNat

/-- R376: a trip: the record in the backup domain, and the thermal-trip reset. -/
def tripReset (s : State) (sensor : Nat) : State :=
  let rec_ := some (tempOf s sensor, sensor, calTime s)
  deviceReset { s with bu := { s.bu with tripped := true, tripRec := true, backup := { s.bu.backup with trip := rec_ } } } 6

/-- THERMAL (R376): a sensor's reading; one at its trip threshold trips the part. -/
def execThermalTrip (sensor : Nat) (temp : Int) (s : State) : Out :=
  .next <|
    if (sensors s).contains sensor = false then s
    else
      let s := { s with pk := { s.pk with temps := tput 0 s.pk.temps sensor temp } }
      if s.bu.tripped = false ∧ (if sensor < 48 then 120 ≤ temp else 105 ≤ temp) then tripReset s sensor else s

/-- Table PK-9: the state that follows `st`, with 3 °C of hysteresis on each step down. -/
def thermNext (warn hot tj ts : Int) (st : Nat) : Nat :=
  if hot ≤ tj ∨ 95 ≤ ts then 2
  else if st = 2 ∧ ¬ (tj < hot - 3 ∧ ts < 92) then 2
  else if warn ≤ tj then 1
  else if 1 ≤ st ∧ ¬ tj < warn - 3 then 1
  else 0

/-- THERMAL_EVALUATION (R375, R377): every 100 µs. -/
def execThermalEvaluation (s : State) : Out :=
  .next <|
    if isDue s 9 100000 = false ∨ rbit s Reg.GLOBAL_PINS 1 = true then s
    else
      let s := markDone s 9
      let tj := dieTemp s
      let ts := stackTemp s
      let h := hottest s (sensors s)
      let s := putReg s Reg.GLOBAL_TEMP (BitVec.ofNat 32 (h * 2 ^ 16 + sbyte ts * 2 ^ 8 + sbyte tj))
      if s.bu.tripped then s
      else if 120 ≤ tj then tripReset s (hottest s (List.range 48))
      else if 105 ≤ ts then tripReset s (hottest s ((sensors s).drop 48))
      else
        let hot : Int := rfld s Reg.GLOBAL_THERM_CFG 8 8
        let warn : Int := rfld s Reg.GLOBAL_THERM_CFG 0 8
        let st := rfld s Reg.GLOBAL_THERM_STATUS 0 2
        let n := thermNext warn hot tj ts st
        let s := setFlag (setFld s Reg.GLOBAL_THERM_STATUS 0 2 n) Reg.GLOBAL_PINS 6 (n == 0)
        let s := if n = 1 ∧ st ≠ 1 then setFlag s Reg.GLOBAL_PK_EVENTS 1 true else s
        let s := if n = 2 ∧ st ≠ 2 then setFlag s Reg.GLOBAL_PK_EVENTS 2 true else s
        let p := s.pk.thermPace
        let p' := if hot ≤ tj ∨ 95 ≤ ts then Nat.min 15 (p + 1) else if tj < hot - 3 ∧ ts < 92 then p - 1 else p
        showPace { s with pk := { s.pk with thermPace := p' } }

/-- TRIP_END (R376): every sensor reads 90 °C or below. -/
def execTripEnd (s : State) : Out :=
  .next <|
    if s.bu.tripped && (sensors s).all (fun i => decide (tempOf s i ≤ 90)) then
      let s := setFlag (setFld s Reg.GLOBAL_THERM_STATUS 0 2 0) Reg.GLOBAL_PINS 6 true
      startUp { s with bu := { s.bu with tripped := false } }
    else s

/-- R375: a value that GLOBAL_THERM_CFG accepts. -/
def thermCfgOk (warn hot : Nat) : Bool :=
  decide (60 ≤ warn) && decide (warn ≤ 110) && decide (70 ≤ hot) && decide (hot ≤ 115) && decide (warn ≤ hot)

/-- THERM_CFG_WRITE (R375). -/
def execThermCfgWrite (val : Word) (s : State) : Out :=
  .next <| hostWr s Reg.GLOBAL_THERM_CFG fun s =>
    if thermCfgOk (bits val 0 8) (bits val 8 8) then retainedDirty (setFld s Reg.GLOBAL_THERM_CFG 0 16 (bits val 0 16))
    else setFlag s Reg.GLOBAL_PK_EVENTS 5 true

end Sys2Proof.Machine
end

