-- ==== Sys2Proof/Machine/PinionAlu.lean ====
section
/-! DEFINITION. Data instructions of the Pinions (Table PN-9): FP32, packed FP16, integer, moves, conversions,
predicates. -/

namespace Sys2Proof.Machine

/-! ### FP32 (R34) -/

def faddRes (mod : Nat) (a b : Word) : Word := res32 mod ((src32 mod 0 a).add (src32 mod 1 b))
def fmulRes (mod : Nat) (a b : Word) : Word := res32 mod ((src32 mod 0 a).mul (src32 mod 1 b))
def ffmaRes (mod : Nat) (a b c : Word) : Word := res32 mod (((src32 mod 0 a).mul (src32 mod 1 b)).add (src32 mod 2 c))
def fminRes (mod : Nat) (a b : Word) : Word := res32 mod (minNum (src32 mod 0 a) (src32 mod 1 b))
def fmaxRes (mod : Nat) (a b : Word) : Word := res32 mod (maxNum (src32 mod 0 a) (src32 mod 1 b))
def fdivRes (mod : Nat) (a b : Word) : Word := res32 mod (fdivN fp32 (src32 mod 0 a) (src32 mod 1 b))
def fsqrtRes (mod : Nat) (a : Word) : Word := res32 mod (fsqrtN fp32 (src32 mod 0 a))

/-- FADD. -/
def execFadd (wg beat : Nat) (s : State) : Out := .next (aluReg 0x00 rs2 (fun h l => faddRes h.i.mod (h.a l) (h.c l)) wg beat s)
/-- FMUL. -/
def execFmul (wg beat : Nat) (s : State) : Out := .next (aluReg 0x01 rs2 (fun h l => fmulRes h.i.mod (h.a l) (h.c l)) wg beat s)
/-- FFMA: one rounding. -/
def execFfma (wg beat : Nat) (s : State) : Out :=
  .next (aluReg 0x02 rs3 (fun h l => ffmaRes h.i.mod (h.a l) (h.c l) (h.d l)) wg beat s)
/-- FMIN. -/
def execFmin (wg beat : Nat) (s : State) : Out := .next (aluReg 0x03 rs2 (fun h l => fminRes h.i.mod (h.a l) (h.c l)) wg beat s)
/-- FMAX. -/
def execFmax (wg beat : Nat) (s : State) : Out := .next (aluReg 0x04 rs2 (fun h l => fmaxRes h.i.mod (h.a l) (h.c l)) wg beat s)
/-- FCMP. -/
def execFcmp (wg beat : Nat) (s : State) : Out :=
  .next (aluPred 0x05 (fun i => [i.s0, i.s1]) (fun h l => fcond h.i.ty (src32 h.i.mod 0 (h.a l)) (src32 h.i.mod 1 (h.c l))) wg beat s)

/-! ### Approximations (R35) -/

/-- A truncated magnitude moved up by none, one or two units in the last place less one, as the free value chooses
among the values within 1 ulp: the truncated one and the next, and the one before where it is exact. -/
def within1 (op : Nat) (x : Word) (exact : Bool) (n : Bool) (m : Nat) (e : Int) : Num :=
  let k := Config.openVal 1 [op, x.toNat] % 3
  if k = 0 then .fin n m e else if k = 1 then .fin n (m + 1) e else if exact then .fin n (m - 1) e else .fin n m e

/-- A value truncated to 24 significant bits exactly, and whether nothing was lost. -/
def trunc24 (m : Nat) (e : Int) : Nat × Int × Bool :=
  let up := 24 - (Nat.log2 m + 1)
  let dn := Nat.log2 m + 1 - 24
  (m * 2 ^ up / 2 ^ dn, e - up + dn, m % 2 ^ dn == 0)

/-- The free result of an approximate instruction, in canonical form: NaN produced, subnormals flushed. -/
def approxFree (op : Nat) (x : Word) : Num := dec32 (Config.approx op x)

/-- R35: reciprocal within 1 ulp of a normal input; a NaN gives NaN, any other input a free value. -/
def frcpNum (x : Word) : Num :=
  match dec32 x with
  | .nan => .nan
  | .fin n m e =>
    if m = 0 then approxFree 0x10 x
    else
      let k := Nat.log2 m + 28
      let t := trunc24 (2 ^ k / m) (-(k : Int) - e)
      within1 0x10 x (t.2.2 && 2 ^ k % m == 0) n t.1 t.2.1
  | .inf _ => approxFree 0x10 x

/-- R35: reciprocal square root within 1 ulp of a positive normal input. -/
def frsqNum (x : Word) : Num :=
  match dec32 x with
  | .nan => .nan
  | .fin n m e =>
    if m = 0 ∨ n = true then approxFree 0x11 x
    else
      let odd := (e % 2).toNat
      let k := 2 * (Nat.log2 m + 30)
      let q := 2 ^ k / (m * 2 ^ odd)
      let r := isqrt q (k / 2 + 1) 0
      let t := trunc24 r (-((k : Int) + (e - odd)) / 2)
      within1 0x11 x (t.2.2 && r * r * (m * 2 ^ odd) == 2 ^ k) false t.1 t.2.1
  | .inf _ => approxFree 0x11 x

/-- A free result that lies within `bound` of the exact value `v` (Table NF-9), judged before flushing; where the free
value lies further off, the exact value rounded. -/
def nearFree (op : Nat) (x : Word) (v bound : Num) : Num :=
  match fdecode fp32 (Config.approx op x).toNat with
  | .fin n m e => if Num.le ((Num.fin n m e).add v.neg).abs bound then approxFree op x else round32 v
  | _ => round32 v

/-- Two units in the last place of a value. -/
def twoUlp : Num → Num
  | .fin _ m e => .fin false 1 (e + (Nat.log2 m : Nat) - 22)
  | y => y

/-- The natural logarithm of 2 in units of `2^-128`. -/
def ln2Fix : Nat := 235865763225513294137944142764154484399

/-- The exponential series in units of `2^-128`: the terms from number `i` on, the first of them `term`. -/
def expSum (t : Nat) : Nat → Nat → Nat → Nat
  | 0, _, _ => 0
  | k + 1, i, term => term + expSum t k (i + 1) (term * t / 2 ^ 128 / (i + 1))

/-- `2^x` to more than 100 bits, and its binary exponent. -/
def exp2Val (n : Bool) (m : Nat) (e : Int) : Num × Int :=
  let a : Nat := if 0 ≤ e + 128 then m * 2 ^ (e + 128).toNat else m / 2 ^ (-(e + 128)).toNat
  let x : Int := if n then -(a : Int) else a
  let k := x / 2 ^ 128
  (.fin false (expSum ((x % 2 ^ 128).toNat * ln2Fix / 2 ^ 128) 40 0 (2 ^ 128)) (k - 128), k)

/-- Bits of a logarithm after the point, of a `y` from 1 to below 2 in units of `2^-160`. -/
def log2Bits : Nat → Nat → Nat → Nat
  | 0, _, acc => acc
  | k + 1, y, acc =>
    let z := y * y / 2 ^ 160
    if 2 ^ 161 ≤ z then log2Bits k (z / 2) (2 * acc + 1) else log2Bits k z (2 * acc)

/-- The logarithm to base 2 of `m × 2^e` to 64 bits after the point. -/
def log2Val (m : Nat) (e : Int) : Num :=
  let len := Nat.log2 m
  (Num.ofInt (e + (len : Nat))).add (.fin false (log2Bits 64 (m * 2 ^ 160 / 2 ^ len) 0) (-64))

/-- The alternating series of sine and cosine in units of `2^-128`, from the term of power `i` on. -/
def trigSum (t2 : Nat) : Nat → Nat → Nat → Int
  | 0, _, _ => 0
  | k + 1, i, term => (term : Int) - trigSum t2 k (i + 2) (term * t2 / 2 ^ 128 / ((i + 1) * (i + 2)))

/-- Sine (`cosine` false) or cosine of `±m × 2^e` to more than 100 bits after the point. -/
def trigVal (cosine n : Bool) (m : Nat) (e : Int) : Num :=
  let t : Nat := if 0 ≤ e + 128 then m * 2 ^ (e + 128).toNat else m / 2 ^ (-(e + 128)).toNat
  let v := if cosine then trigSum (t * t / 2 ^ 128) 30 0 (2 ^ 128) else trigSum (t * t / 2 ^ 128) 30 1 t
  .fin (decide (v < 0) != (n && !cosine)) v.natAbs (-128)

/-- R35: FEXP2 within 2 ulp where the result is in the normal range, FLOG2 within 2 ulp of a positive normal input
or 2^-21 for one in [0.5, 2], FSIN and FCOS within 2^-21 for inputs in [−π, π]; a free value elsewhere (assumption log 21). -/
def approxNum (op : Nat) (x : Word) : Num :=
  match dec32 x with
  | .nan => .nan
  | .inf _ => approxFree op x
  | .fin n m e =>
    if op = 0x12 then
      let r := exp2Val n m e
      if -126 ≤ r.2 ∧ r.2 ≤ 127 then nearFree op x r.1 (twoUlp r.1) else approxFree op x
    else if op = 0x13 then
      if m = 0 ∨ n = true then approxFree op x
      else
        let v := log2Val m e
        let near := Num.le (.fin false 1 (-1)) (.fin n m e) && Num.le (.fin n m e) (.fin false 1 1)
        nearFree op x v (if near then .fin false 1 (-21) else twoUlp v)
    else if x.toNat % 2 ^ 31 ≤ 0x40490FDA then nearFree op x (trigVal (op == 0x15) n m e) (.fin false 1 (-21))
    else approxFree op x

/-- The word an approximate instruction works on: its source modified. -/
def srcWord (mod : Nat) (a : Word) : Word := enc32 (src32 mod 0 a)

/-- FRCP. -/
def execFrcp (wg beat : Nat) (s : State) : Out := .next (aluReg 0x10 rs1 (fun h l => res32 h.i.mod (frcpNum (srcWord h.i.mod (h.a l)))) wg beat s)
/-- FRSQ. -/
def execFrsq (wg beat : Nat) (s : State) : Out := .next (aluReg 0x11 rs1 (fun h l => res32 h.i.mod (frsqNum (srcWord h.i.mod (h.a l)))) wg beat s)
/-- FEXP2. -/
def execFexp2 (wg beat : Nat) (s : State) : Out := .next (aluReg 0x12 rs1 (fun h l => res32 h.i.mod (approxNum 0x12 (srcWord h.i.mod (h.a l)))) wg beat s)
/-- FLOG2. -/
def execFlog2 (wg beat : Nat) (s : State) : Out := .next (aluReg 0x13 rs1 (fun h l => res32 h.i.mod (approxNum 0x13 (srcWord h.i.mod (h.a l)))) wg beat s)
/-- FSIN. -/
def execFsin (wg beat : Nat) (s : State) : Out := .next (aluReg 0x14 rs1 (fun h l => res32 h.i.mod (approxNum 0x14 (srcWord h.i.mod (h.a l)))) wg beat s)
/-- FCOS. -/
def execFcos (wg beat : Nat) (s : State) : Out := .next (aluReg 0x15 rs1 (fun h l => res32 h.i.mod (approxNum 0x15 (srcWord h.i.mod (h.a l)))) wg beat s)
/-- FDIV: correctly rounded. -/
def execFdiv (wg beat : Nat) (s : State) : Out := .next (aluReg 0x16 rs2 (fun h l => fdivRes h.i.mod (h.a l) (h.c l)) wg beat s)
/-- FSQRT: correctly rounded. -/
def execFsqrt (wg beat : Nat) (s : State) : Out := .next (aluReg 0x17 rs1 (fun h l => fsqrtRes h.i.mod (h.a l)) wg beat s)

/-! ### Packed FP16 (R34) -/

/-- Both halves of a packed result, each from the halves of its sources. -/
def half2 (mod : Nat) (f : Num → Num → Num → Num) (a b c : Word) : Word :=
  let one := fun k => res16 mod (f (src16 mod 0 k a) (src16 mod 1 k b) (src16 mod 2 k c))
  pack16 (one 0) (one 1)

/-- HADD2. -/
def execHadd2 (wg beat : Nat) (s : State) : Out :=
  .next (aluReg 0x18 rs2 (fun h l => half2 h.i.mod (fun x y _ => x.add y) (h.a l) (h.c l) 0) wg beat s)
/-- HMUL2. -/
def execHmul2 (wg beat : Nat) (s : State) : Out :=
  .next (aluReg 0x19 rs2 (fun h l => half2 h.i.mod (fun x y _ => x.mul y) (h.a l) (h.c l) 0) wg beat s)
/-- HFMA2. -/
def execHfma2 (wg beat : Nat) (s : State) : Out :=
  .next (aluReg 0x1A rs3 (fun h l => half2 h.i.mod (fun x y z => (x.mul y).add z) (h.a l) (h.c l) (h.d l)) wg beat s)
/-- HMIN2. -/
def execHmin2 (wg beat : Nat) (s : State) : Out :=
  .next (aluReg 0x1B rs2 (fun h l => half2 h.i.mod (fun x y _ => minNum x y) (h.a l) (h.c l) 0) wg beat s)
/-- HMAX2. -/
def execHmax2 (wg beat : Nat) (s : State) : Out :=
  .next (aluReg 0x1C rs2 (fun h l => half2 h.i.mod (fun x y _ => maxNum x y) (h.a l) (h.c l) 0) wg beat s)

/-- HCMP2: the low halves decide predicate DST, the high halves DST + 1; DST must be even. -/
def execHcmp2 (wg beat : Nat) (s : State) : Out :=
  .next <| match fetchIns s wg beat 0x1D with
  | .no s => s
  | .here s h =>
    if regsOk h.w.vregs [h.i.s0, h.i.s1] && condOk h.i.ty && h.i.dst % 2 == 0 then
      let one := fun k l => fcond h.i.ty (src16 h.i.mod 0 k (h.a l)) (src16 h.i.mod 1 k (h.c l))
      retire s h (writePred (writePred h.b h.g (h.i.dst % 8) (one 0)) h.g (h.i.dst % 8 + 1) (one 1))
    else endWgErr s wg St.ILLEGAL_OP

/-! ### Integers (R37) -/

def satS (x : Int) : Word := BitVec.ofInt 32 (if x < -(2 ^ 31) then -(2 ^ 31) else if 2 ^ 31 - 1 < x then 2 ^ 31 - 1 else x)
def imulhiRes (a b : Word) : Word := BitVec.ofInt 32 (a.toInt * b.toInt / 2 ^ 32)

/-- Shifts: an amount of 32 or more gives a free value. -/
def shlRes (a n : Word) : Word := if n.toNat < 32 then a <<< n.toNat else BitVec.ofNat 32 (Config.openVal 2 [0, a.toNat, n.toNat])
def shrRes (a n : Word) : Word := if n.toNat < 32 then a >>> n.toNat else BitVec.ofNat 32 (Config.openVal 2 [1, a.toNat, n.toNat])
def sarRes (a n : Word) : Word := if n.toNat < 32 then a.sshiftRight n.toNat else BitVec.ofNat 32 (Config.openVal 2 [2, a.toNat, n.toNat])

/-- Count of ones, and of leading zeros. -/
def popcRes (a : Word) : Word := BitVec.ofNat 32 (lanesOf a.toNat).length
def clzRes (a : Word) : Word := BitVec.ofNat 32 (if a = 0 then 32 else 31 - Nat.log2 a.toNat)

/-- BFE: the field of SRC2 bits of SRC0 at bit SRC1, zero-extended; a field that is empty or leaves the word is a
free value. -/
def bfeRes (a lo n : Word) : Word :=
  if 0 < n.toNat ∧ lo.toNat + n.toNat ≤ 32 then BitVec.ofNat 32 (bits a lo.toNat n.toNat)
  else BitVec.ofNat 32 (Config.openVal 3 [a.toNat, lo.toNat, n.toNat])

/-- Packed 16-bit addition, wrapping in each half. -/
def iadd2Res (a b : Word) : Word := pack16 (bits a 0 16 + bits b 0 16) (bits a 16 16 + bits b 16 16)

/-- IADD. -/
def execIadd (wg beat : Nat) (s : State) : Out := .next (aluReg 0x20 rs2 (fun h l => h.a l + h.c l) wg beat s)
/-- ISUB. -/
def execIsub (wg beat : Nat) (s : State) : Out := .next (aluReg 0x21 rs2 (fun h l => h.a l - h.c l) wg beat s)
/-- IMUL: low half. -/
def execImul (wg beat : Nat) (s : State) : Out := .next (aluReg 0x22 rs2 (fun h l => h.a l * h.c l) wg beat s)
/-- IMULHI: high half of the two's complement product. -/
def execImulhi (wg beat : Nat) (s : State) : Out := .next (aluReg 0x23 rs2 (fun h l => imulhiRes (h.a l) (h.c l)) wg beat s)
/-- IMAD. -/
def execImad (wg beat : Nat) (s : State) : Out := .next (aluReg 0x24 rs3 (fun h l => h.a l * h.c l + h.d l) wg beat s)
/-- IADDSAT. -/
def execIaddsat (wg beat : Nat) (s : State) : Out := .next (aluReg 0x25 rs2 (fun h l => satS ((h.a l).toInt + (h.c l).toInt)) wg beat s)
/-- ISUBSAT. -/
def execIsubsat (wg beat : Nat) (s : State) : Out := .next (aluReg 0x26 rs2 (fun h l => satS ((h.a l).toInt - (h.c l).toInt)) wg beat s)
/-- IMIN. -/
def execImin (wg beat : Nat) (s : State) : Out := .next (aluReg 0x27 rs2 (fun h l => if (h.a l).toInt ≤ (h.c l).toInt then h.a l else h.c l) wg beat s)
/-- IMAX. -/
def execImax (wg beat : Nat) (s : State) : Out := .next (aluReg 0x28 rs2 (fun h l => if (h.c l).toInt ≤ (h.a l).toInt then h.a l else h.c l) wg beat s)
/-- UMIN. -/
def execUmin (wg beat : Nat) (s : State) : Out := .next (aluReg 0x29 rs2 (fun h l => if (h.a l).toNat ≤ (h.c l).toNat then h.a l else h.c l) wg beat s)
/-- UMAX. -/
def execUmax (wg beat : Nat) (s : State) : Out := .next (aluReg 0x2A rs2 (fun h l => if (h.c l).toNat ≤ (h.a l).toNat then h.a l else h.c l) wg beat s)
/-- ICMP. -/
def execIcmp (wg beat : Nat) (s : State) : Out :=
  .next (aluPred 0x2B (fun i => [i.s0, i.s1]) (fun h l => icond h.i.ty (h.a l).toInt (h.c l).toInt) wg beat s)
/-- UCMP. -/
def execUcmp (wg beat : Nat) (s : State) : Out :=
  .next (aluPred 0x2C (fun i => [i.s0, i.s1]) (fun h l => icond h.i.ty (h.a l).toNat (h.c l).toNat) wg beat s)
/-- AND. -/
def execAndBits (wg beat : Nat) (s : State) : Out := .next (aluReg 0x2D rs2 (fun h l => h.a l &&& h.c l) wg beat s)
/-- OR. -/
def execOrBits (wg beat : Nat) (s : State) : Out := .next (aluReg 0x2E rs2 (fun h l => h.a l ||| h.c l) wg beat s)
/-- XOR. -/
def execXorBits (wg beat : Nat) (s : State) : Out := .next (aluReg 0x2F rs2 (fun h l => h.a l ^^^ h.c l) wg beat s)
/-- SHL. -/
def execShl (wg beat : Nat) (s : State) : Out := .next (aluReg 0x30 rs2 (fun h l => shlRes (h.a l) (h.c l)) wg beat s)
/-- SHR. -/
def execShr (wg beat : Nat) (s : State) : Out := .next (aluReg 0x31 rs2 (fun h l => shrRes (h.a l) (h.c l)) wg beat s)
/-- SAR. -/
def execSar (wg beat : Nat) (s : State) : Out := .next (aluReg 0x32 rs2 (fun h l => sarRes (h.a l) (h.c l)) wg beat s)
/-- POPC. -/
def execPopc (wg beat : Nat) (s : State) : Out := .next (aluReg 0x33 rs1 (fun h l => popcRes (h.a l)) wg beat s)
/-- CLZ. -/
def execClz (wg beat : Nat) (s : State) : Out := .next (aluReg 0x34 rs1 (fun h l => clzRes (h.a l)) wg beat s)
/-- IADD2. -/
def execIadd2 (wg beat : Nat) (s : State) : Out := .next (aluReg 0x35 rs2 (fun h l => iadd2Res (h.a l) (h.c l)) wg beat s)
/-- IADDI. -/
def execIaddi (wg beat : Nat) (s : State) : Out := .next (aluReg 0x36 rs1 (fun h l => h.a l + h.i.imm) wg beat s)
/-- BFE. -/
def execBfe (wg beat : Nat) (s : State) : Out := .next (aluReg 0x37 rs3 (fun h l => bfeRes (h.a l) (h.c l) (h.d l)) wg beat s)

/-! ### Moves and conversions (R36, R158) -/

/-- R36: an element of one format converted to another; into FP32 exact after flushing. -/
def cvtRes (mod dst : Nat) (a : Word) : Word :=
  let x := loadFmt (natBits mod 9 4) (a.toNat % 2 ^ fmtBits (natBits mod 9 4))
  if dst = 0 then enc32 x
  else if x.isNan then BitVec.ofNat 32 (nanFmt dst)
  else BitVec.ofNat 32 (narrow dst (modRnd mod) (modIeee mod) x).1

/-- CVT. -/
def execCvt (wg beat : Nat) (s : State) : Out :=
  .next <| match fetchIns s wg beat 0x40 with
  | .no s => s
  | .here s h =>
    if regsOk h.w.vregs [h.i.dst, h.i.s0] && fmtOk h.i.ty && fmtOk (natBits h.i.mod 9 4) then
      retire s h (writeLanes h.b h.g h.i.dst (fun l => cvtRes h.i.mod h.i.ty (h.a l)))
    else endWgErr s wg St.ILLEGAL_OP
/-- MOV. -/
def execMov (wg beat : Nat) (s : State) : Out := .next (aluReg 0x41 rs1 (fun h l => h.a l) wg beat s)
/-- MOVI. -/
def execMovi (wg beat : Nat) (s : State) : Out := .next (aluReg 0x42 (fun i => [i.dst]) (fun h _ => h.i.imm) wg beat s)
/-- SEL: SRC0 where predicate SRC2[2:0] is set, SRC1 elsewhere. -/
def execSel (wg beat : Nat) (s : State) : Out :=
  .next (aluReg 0x43 rs2 (fun h l => if inMask (h.b.pred (h.i.s2 % 8)) l then h.a l else h.c l) wg beat s)
/-- SHFL: SRC0 of the lane that SRC1[4:0] names; an inactive source lane gives zero. -/
def execShfl (wg beat : Nat) (s : State) : Out :=
  .next (aluReg 0x44 rs2 (fun h l => let k := bits (h.c l) 0 5; if inMask h.b.active k then h.a k else 0) wg beat s)

/-- VOTE over a predicate: ANY and ALL give 1 or 0, BALLOT the mask, taken over the guard lanes. -/
def voteRes (op g p : Nat) : Word :=
  if op = 0 then BitVec.ofNat 32 (b2n (g &&& p != 0))
  else if op = 1 then BitVec.ofNat 32 (b2n (g &&& p == g))
  else BitVec.ofNat 32 (g &&& p)

/-- VOTE: the predicate is SRC2[2:0] (assumption log 22). -/
def execVote (wg beat : Nat) (s : State) : Out :=
  .next <| match fetchIns s wg beat 0x45 with
  | .no s => s
  | .here s h =>
    if regsOk h.w.vregs [h.i.dst] && decide (h.i.ty ≤ 2) then
      retire s h (writeLanes h.b h.g h.i.dst (fun _ => voteRes h.i.ty h.g (h.b.pred (h.i.s2 % 8))))
    else endWgErr s wg St.ILLEGAL_OP

/-- Difference across a quad: lane pairs left to right, or top to bottom. -/
def quadDiff (vert : Bool) (mod : Nat) (f : Nat → Word) (l : Nat) : Word :=
  let base := if vert then l - l % 4 + l % 2 else l - l % 2
  let other := if vert then base + 2 else base + 1
  res32 mod ((src32 mod 0 (f other)).add (src32 mod 0 (f base)).neg)

/-- DDX. -/
def execDdx (wg beat : Nat) (s : State) : Out := .next (aluReg 0x46 rs1 (fun h l => quadDiff false h.i.mod h.a l) wg beat s)
/-- DDY. -/
def execDdy (wg beat : Nat) (s : State) : Out := .next (aluReg 0x47 rs1 (fun h l => quadDiff true h.i.mod h.a l) wg beat s)

/-! ### Predicates (R156) -/

/-- PMOV: with TYPE 0 register DST takes predicate SRC0[2:0] as 1 or 0 in each lane; with TYPE 1 predicate DST[2:0]
takes whether register SRC0 is not zero (assumption log 22). -/
def execPmov (wg beat : Nat) (s : State) : Out :=
  .next <| match fetchIns s wg beat 0x48 with
  | .no s => s
  | .here s h =>
    if h.i.ty = 0 ∧ regsOk h.w.vregs [h.i.dst] = true then
      retire s h (writeLanes h.b h.g h.i.dst (fun l => BitVec.ofNat 32 (natBits (h.b.pred (h.i.s0 % 8)) l 1)))
    else if h.i.ty = 1 ∧ regsOk h.w.vregs [h.i.s0] = true then
      retire s h (writePred h.b h.g (h.i.dst % 8) (fun l => h.a l != 0))
    else endWgErr s wg St.ILLEGAL_OP

/-- PLOP operations: AND, OR, XOR, ANDNOT. -/
def plopBit (op : Nat) (a b : Bool) : Bool :=
  if op = 0 then a && b else if op = 1 then a || b else if op = 2 then a != b else a && !b

/-- PLOP: predicate DST[2:0] from predicates SRC0[2:0] and SRC1[2:0]. -/
def execPlop (wg beat : Nat) (s : State) : Out :=
  .next <| match fetchIns s wg beat 0x49 with
  | .no s => s
  | .here s h =>
    if h.i.ty ≤ 3 then
      let f := fun l => plopBit h.i.ty (inMask (h.b.pred (h.i.s0 % 8)) l) (inMask (h.b.pred (h.i.s1 % 8)) l)
      retire s h (writePred h.b h.g (h.i.dst % 8) f)
    else endWgErr s wg St.ILLEGAL_OP

end Sys2Proof.Machine
end

