-- ==== Sys2Proof/Machine/PinionFlow.lean ====
section
/-! DEFINITION. Control instructions of the Pinions (R157, S2R of R158). -/

namespace Sys2Proof.Machine

/-- R149: a jump to an instruction index; outside the code it ends the workgroup. -/
def jumpTo (s : State) (h : Here) (b : Beat) (pc : Int) : State :=
  if 0 ≤ pc ∧ 8 * pc < h.w.codeBytes then retireTo s h b pc.toNat else endWgErr s h.id St.BAD_PROGRAM

/-- The target of a branch: signed instructions after the next. -/
def Here.target (h : Here) : Int := (h.b.pc : Int) + 1 + sext 32 h.i.target

/-- BRA. COND alone decides: NONE is taken where no lane is in the guard (assumption log 22). -/
def execBra (wg beat : Nat) (s : State) : Out :=
  .next <| match fetchIns s wg beat 0x70 with
  | .no s => s
  | .here s h => if branchTaken h.i.cond h.g h.b.active then jumpTo s h h.b h.target else retire s h h.b

/-- CALL: a push onto a full stack ends the workgroup. -/
def execCall (wg beat : Nat) (s : State) : Out :=
  .next <| match fetchIns s wg beat 0x71 with
  | .no s => s
  | .here s h =>
    if h.g = 0 then retire s h h.b
    else if 16 ≤ h.b.stack.length then endWgErr s wg St.STACK_ERROR
    else jumpTo s h { h.b with stack := (h.b.pc + 1) :: h.b.stack } h.target

/-- RET: a pop from an empty stack ends the workgroup. -/
def execRet (wg beat : Nat) (s : State) : Out :=
  .next <| match fetchIns s wg beat 0x72 with
  | .no s => s
  | .here s h =>
    if h.g = 0 then retire s h h.b
    else match h.b.stack with
      | [] => endWgErr s wg St.STACK_ERROR
      | p :: t => jumpTo s h { h.b with stack := t } p

/-- The barrier of a workgroup looked at again. -/
def checkBar (s : State) (wg : Nat) : State :=
  match wgOf s wg with
  | some w => setWg s wg (openBar w)
  | none => s

/-- BAR. -/
def execBar (wg beat : Nat) (s : State) : Out :=
  .next <| match fetchIns s wg beat 0x73 with
  | .no s => s
  | .here s h => if h.g = 0 then retire s h h.b else checkBar (retire s h { h.b with atBar := true }) wg

/-- END: the guard lanes end, and their output registers are taken. -/
def execEndLanes (wg beat : Nat) (s : State) : Out :=
  .next <| match fetchIns s wg beat 0x74 with
  | .no s => s
  | .here s h => checkBar (retire s h { h.b with active := h.b.active ^^^ h.g, ended := h.b.ended ||| h.g }) wg

/-- DISCARD: the guard lanes end with no output; a program of another kind ends with ILLEGAL_OP. -/
def execDiscard (wg beat : Nat) (s : State) : Out :=
  .next <| match fetchIns s wg beat 0x75 with
  | .no s => s
  | .here s h =>
    if h.w.kind ≠ 2 then endWgErr s wg St.ILLEGAL_OP
    else checkBar (retire s h { h.b with active := h.b.active ^^^ h.g }) wg

/-- S2R: a system value; a code the list does not hold, or a fragment value outside a fragment program, is free. -/
def s2rVal (s : State) (h : Here) (l : Nat) : Nat :=
  let k := h.i.mod % 256
  let f := h.b.frag.getD l (0, 0, 0)
  if k = 0 then l
  else if k = 1 then h.bi
  else if k = 2 then h.w.xyz.1
  else if k = 3 then h.w.xyz.2.1
  else if k = 4 then h.w.xyz.2.2
  else if k = 5 then h.w.train
  else if k = 6 then 9 * h.w.train + h.w.pos
  else if k ≤ 9 ∧ h.w.kind = 2 then (if k = 7 then f.1 else if k = 8 then f.2.1 else f.2.2)
  else if k = 10 then calTime s % 2 ^ 32
  else if k = 11 then calTime s / 2 ^ 32
  else Config.openVal 7 [k, h.id, h.bi, l]

/-- S2R (R158). -/
def execS2r (wg beat : Nat) (s : State) : Out :=
  .next (aluReg 0x76 (fun i => [i.dst]) (fun h l => BitVec.ofNat 32 (s2rVal s h l)) wg beat s)

/-- NOP (R158). -/
def execPinionNop (wg beat : Nat) (s : State) : Out :=
  .next <| match fetchIns s wg beat 0x77 with
  | .no s => s
  | .here s h => retire s h h.b

end Sys2Proof.Machine
end

