-- ==== Sys2Proof/Machine/Progress.lean ====
section
/-! DEFINITION. Forward progress (chapter 12): the sampling of ticks, hangs, WAIT_STUCK contexts and event cycles
(R232 to R234). -/

namespace Sys2Proof.Machine

/-- The classes of R232 for a pair of context and engine. -/
inductive TickClass where
  | ticking | waiting | stalled | idle
  deriving DecidableEq, Repr

/-- A wait of something other than a descriptor, pending for a descriptor (parked pass, segment, row, ingest). -/
def xWaitPending (s : State) (id : Nat) : Bool :=
  s.evs.waits.any (fun w => w.kind != 1 && w.id == id && w.st == .pending)

/-- A beat waits in EVWAIT. -/
def beatInWait (s : State) (wg beat : Nat) (b : Beat) : Bool := b.waiting && (beatWaits s wg beat).any (fun w => w.st == .pending)

/-- The unfinished beats of a descriptor's workgroups: whether there are any, and whether all wait in EVWAIT. -/
def wgsWait (s : State) (id : Nat) : Bool :=
  let ws := s.pn.wgs.filter (fun p => p.2.owner == id && p.2.phase == .resident)
  let live := (ws.map (fun p => ((List.range p.2.beats.length).zip p.2.beats).filterMap (fun x =>
    if x.2.active = 0 then none else some (p.1, x)))).flatten
  !live.isEmpty && live.all (fun x => beatInWait s x.1 x.2.1 x.2.2)

/-- R232: a descriptor of a context on an engine waits on an event. -/
def descWaits (s : State) (p : Nat × Desc) : Bool :=
  match p.2.phase with
  | .waiting => true
  | .started => xWaitPending s p.1 || wgsWait s p.1 || s.cr.outs.any (fun o => o.2.armed.any (fun a => a.desc == p.1))
  | _ => false

/-- Descriptors of a context on an engine. -/
def pairDescs (s : State) (c e : Nat) : List (Nat × Desc) := s.esc.descs.filter (fun p => p.2.ctx == c && p.2.eng == e)

/-- Continuation entries of a context on an engine that wait for room. -/
def pairConts (s : State) (c e : Nat) : Bool := s.esc.contQ.any (fun q => q.ctx == c && q.eng == e)

/-- R232: the class of a pair over the last interval. -/
def tickClass (s : State) (c e : Nat) : TickClass :=
  let ds := pairDescs s c e
  if ds = [] ∧ pairConts s c e = false then .idle
  else if s.evs.ticked.contains (c, e) then .ticking
  else if ds.all (descWaits s) && !pairConts s c e then .waiting
  else .stalled

/-- R232: the cause of a STALLED pair. -/
def stallCause (s : State) (c e : Nat) : Nat :=
  if s.tu.misses.any (fun m => m.ctx == c && m.eng == e) then 1
  else if pairConts s c e then 2
  else if e == 0 && s.ba.queue.any (fun a => a.waiting && (modelOf s a.model).map (·.ctx) == some c) then 3
  else 4

/-- The engines of Table RD-1 that exist. -/
def engines (s : State) : List Nat := (List.range 28).filter (fun e => Config.engineOf s.fuse.variant e == some true)

def maskOf (l : List Nat) : Nat := l.foldl (fun m e => m + 2 ^ e) 0

/-- R232 to R234: what one sample leaves of a context, before reports. -/
def sampleCtx (s : State) (c : Nat) (x : Ctx) : Ctx :=
  let cls := (engines s).map (fun e => (e, tickClass s c e))
  let busy := cls.filter (fun p => p.2 != .idle)
  let ticked := busy.any (fun p => p.2 == .ticking)
  let allWait := busy.all (fun p => p.2 == .waiting)
  let spans : Tbl Span := busy.filterMap (fun (p : Nat × TickClass) =>
    if p.2 = .stalled then some (p.1, { stalled := (tget ({} : Span) x.spans p.1).stalled + 10, cause := stallCause s c p.1 }) else none)
  let stuck := if busy ≠ [] && allWait then x.stuck + 10 else 0
  { x with
    quiet := if busy = [] ∨ ticked = true then 0 else satTo 0xFFFFFFFF (x.quiet + 10)
    spans := spans
    stuck := stuck
    hangReported := x.hangReported && !ticked
    stuckReported := x.stuckReported && decide (0 < stuck)
    engMask := maskOf ((busy.filter (fun p => p.2 != .ticking)).map (·.1))
    evState := if busy = [] then 0 else if ticked then 1 else if x.evState ≤ 2 then 2 else x.evState
    evCause := if busy = [] ∨ ticked = true then 0 else x.evCause }

/-- R233: the engines STALLED across the context's hang window, with the cause of the first. -/
def hungOn (x : Ctx) : List (Nat × Span) := x.spans.filter (fun p => decide (x.hangWin ≤ p.2.stalled))

/-- R233: a hung context is reported once, and fenced when its action says so. -/
def reportHang (s : State) (c : Nat) : State :=
  let x := ctxOf s c
  match hungOn x with
  | [] => s
  | (e, sp) :: rest =>
    if x.hangReported then s
    else
      let s := setCtx s c { x with hangReported := true, evState := 3, evCause := sp.cause }
      let s := chrono (setFlag s Reg.EV_IRQ 0 true) Chr.HANG (some c) 0 sp.cause (maskOf (e :: rest.map (·.1)))
      if x.hangFence then fenceCtx s c 2 else s

/-- R234: a context is WAIT_STUCK. -/
def waitStuck (x : Ctx) : Bool := x.st != .free && decide (0 < x.stuck) && decide (x.hangWin ≤ x.stuck)

/-- R234: a WAIT_STUCK context is reported. -/
def reportStuck (s : State) (c : Nat) : State :=
  let x := ctxOf s c
  if waitStuck x && !x.stuckReported then
    let s := setCtx s c { x with stuckReported := true, evState := 4, evCause := 0 }
    chrono (setFlag s Reg.EV_IRQ 1 true) Chr.WAIT_STUCK (some c) 0 x.engMask 0
  else s

/-- Events that work of a context waits on. -/
def waitedBy (s : State) (c : Nat) : List Nat :=
  let ds := ((s.esc.descs.filter (fun p => p.2.ctx == c)).map (fun p => (p.2.waits.filter (fun w => w.st == .pending)).map (·.ev))).flatten
  let xs := (s.evs.waits.filter (fun w => w.st == .pending && (evOf s w.ev).ctx == c)).map (·.ev)
  ds ++ xs

/-- R234: a wait edge from one context to another. -/
def waitEdge (s : State) (x y : Nat) : Bool :=
  (waitedBy s x).any (fun n =>
    let e := evOf s n
    e.acceptEn && e.acceptDev == devNum s &&
    s.evs.ev.any (fun p => p.2.alloc && p.2.ctx == y && p.2.linkEn && p.2.linkDev == devNum s && p.2.linkEv == n))

/-- The cycles of wait edges that begin at their lowest context, by the path so far. -/
def cyclesFrom (s : State) (ks : List Nat) (start : Nat) : Nat → Nat → List Nat → List (List Nat)
  | 0, _, _ => []
  | fuel + 1, v, path =>
    (ks.map (fun w =>
      if waitEdge s v w = false then []
      else if w = start then [path]
      else if w < start ∨ path.contains w then []
      else cyclesFrom s ks start fuel w (path ++ [w]))).flatten

/-- R234: a cycle is reported, and its youngest context fenced when one of them has the fence action. -/
def reportCycle (s : State) (l : List Nat) : State :=
  let fence := l.any (fun c => (ctxOf s c).hangFence)
  let young := l.foldl (fun b c => if (ctxOf s b).created < (ctxOf s c).created then c else b) (l.headD 0)
  let s := l.foldl (fun s c => setCtx s c { ctxOf s c with evState := 5 }) s
  let s := chrono (setFlag s Reg.EV_IRQ 2 true) Chr.EVENT_CYCLE (if fence then some young else none) 0 l.length (b2n fence)
  if fence then fenceCtx s young 3 else s

/-- R234: every cycle of WAIT_STUCK contexts not yet reported. -/
def reportCycles (s : State) : State :=
  let ks := (s.ctxs.filter (fun p => waitStuck p.2)).map (·.1)
  let cs := (ks.map (fun k => cyclesFrom s ks k ks.length k [k])).flatten
  (cs.filter (fun l => l.any (fun c => (ctxOf s c).evState != 5))).foldl reportCycle s

/-- TICK_SAMPLE (R232 to R234): the sample of every 10 ms, while the Regulator runs (R406). -/
def execTickSample (s : State) : Out :=
  .next <|
    if rgRunning s = false ∨ isDue s 4 10000000 = false then s
    else
      let s := markDone s 4
      let cs := (s.ctxs.filter (fun p => p.2.st != .free)).map (·.1)
      let t := cs.foldl (fun t c => setCtx t c (sampleCtx s c (ctxOf t c))) s
      let t := { t with evs := { t.evs with ticked := [] } }
      reportCycles (cs.foldl (fun t c => reportStuck (reportHang t c) c) t)

end Sys2Proof.Machine
end

