-- ==== Sys2Proof/Machine/RegViews.lean ====
section
/-! DEFINITION. Registers that show other state: windows on contexts, rings, events, mailboxes, jobs, engines, stores
and the fabric, and the 64-bit counts of LO and HI pairs (Table SC-5 and the register maps of every chapter). -/

namespace Sys2Proof.Machine

/-- Number of the instance of a repeated register at an offset. -/
def instOf (off base stride n : Nat) : Option Nat :=
  if base ≤ off ∧ (off - base) % stride = 0 ∧ (off - base) / stride < n then some ((off - base) / stride) else none

/-- A word of flags, bit 0 first. -/
def flagWord (l : List Bool) : Nat := (List.range l.length).foldl (fun w i => w + b2n (l.getD i false) * 2 ^ i) 0

/-- A job of a command is RUNNING. -/
def cmdRunning (s : State) (code : Nat) : Bool := (runningJobs s).any (fun p => p.2.code == code)

/-! ### Mailboxes and jobs (R184) -/

def MbSt.code : MbSt → Nat
  | .idle => 0 | .pending => 1 | .running => 2 | .done => 3
def JobSt.code : JobSt → Nat
  | .free => 0 | .running => 1 | .done => 2

/-- RG_MBm registers at an offset within the mailbox. -/
def mboxView (x : Mbox) (o : Nat) : Option Nat :=
  if o < 0x40 then some (wd x.req (o / 4))
  else if o < 0x80 then some (wd x.resp ((o - 0x40) / 4))
  else if o = 0x84 then some (b2n x.drop * 2 ^ 31 + x.st.code)
  else if o = 0x88 then some x.seq.toNat
  else none

/-- RG_JOBj registers at an offset within the slot. -/
def jobView (x : Job) (o : Nat) : Option Nat :=
  if o = 0 then some (x.code * 2 ^ 16 + x.mbox * 2 ^ 8 + x.st.code)
  else if o = 4 then some (x.tag * 2 ^ 16 + x.status)
  else if o = 8 then some (b2n x.unchecked * 2 ^ 31 + jobPct x)
  else if o = 0xC then some x.done
  else if o = 0x10 then some x.total
  else if o = 0x14 then some (if x.st = .done then x.result else 0)
  else none

def rgView (s : State) (off : Nat) : Option Nat :=
  if 0x00101000 ≤ off ∧ off < 0x00102000 then mboxView (mboxOf s ((off - 0x00101000) / 0x100)) (off % 0x100)
  else if 0x00102000 ≤ off ∧ off < 0x00102400 then jobView (jobOf s ((off - 0x00102000) / 0x20)) (off % 0x20)
  else none

/-! ### Rings (R221, R427) -/

def escView (s : State) (off : Nat) : Option Nat :=
  if off = Reg.ESC_STATUS then some (s.nl.reqs.length % 2 ^ 16 * 2 ^ 16 + allInFlight s)
  else match instOf off 0x00400400 0x10 28 with
    | some e => some ((s.esc.rings.filter (fun p => p.2.eng == e)).length * 2 ^ 16 + engInFlight s e)
    | none =>
      if 0x00401000 ≤ off ∧ off < 0x00405000 then
        let n := (off - 0x00401000) / 0x10
        match ringOf s n with
        | none => some (if off % 0x10 = 0 then 0xF00 else 0)
        | some x =>
          if off % 0x10 = 0 then some (x.ctx * 2 ^ 24 + x.eng * 2 ^ 16 + x.mode * 2 ^ 14 + ringState s n * 2 ^ 8 + x.log2)
          else if off % 0x10 = 4 then some x.head.toNat
          else if off % 0x10 = 8 then some x.tail.toNat
          else some x.pub.toNat
      else none

/-! ### Events and progress (R239) -/

/-- The value of an event: its flag in bit 63, its count below. -/
def eventWord (e : Ev) : Nat := b2n e.flag * 2 ^ 63 + e.count

def evView (s : State) (off : Nat) : Option Nat :=
  let e := evOf s (selEvent s)
  let x := ctxOf s (rfld s Reg.EV_CTX_SEL 0 8)
  if off = Reg.EV_CFG then
    some (e.ctx * 2 ^ 24 + b2n e.alloc * 2 ^ 23 + b2n e.sys * 2 ^ 8 + b2n e.linkEn * 2 ^ 7 + b2n e.acceptEn * 2 ^ 6 + e.acceptDev)
  else if off = Reg.EV_LINK then some (e.linkDev * 2 ^ 16 + e.linkEv)
  else if off = Reg.EV_CTX_STATE then some (x.evCause * 2 ^ 4 + x.evState)
  else if off = Reg.EV_CTX_ENGINES then some x.engMask
  else if off = Reg.EV_CTX_QUIET then some (satTo 0xFFFFFFFF x.quiet)
  else none

/-! ### The Great Wheel, Barrel and Plate (R55, R100, R118) -/

def gwView (s : State) (off : Nat) : Option Nat :=
  let ctxOfOp := fun (o : Option Nat) => ((o.bind (gwOp s)).map (·.ctx)).getD 0
  let stall := fun n => s.gw.run.isSome && s.gw.stall == n
  if off = Reg.GW_STATUS then
    some (flagWord [gwIdle s, s.gw.run.isSome, s.gw.sel.isSome, stall 1, stall 2, stall 3, false, s.gw.run.isNone && !s.gw.faulty.isEmpty])
  else if off = Reg.GW_CURRENT then some (ctxOfOp s.gw.sel * 2 ^ 16 + ctxOfOp s.gw.run)
  else none

def baView (s : State) (off : Nat) : Option Nat :=
  let fill := s.ba.queue.find? (·.filling)
  let model := fill.bind (fun a => modelOf s a.model)
  let c := rfld s Reg.BA_CTX_SEL 0 8
  if off = Reg.BA_STATUS then
    some (flagWord [s.ba.queue.isEmpty, fill.isSome, (s.ba.queue.head?).any (·.waiting), cmdRunning s Cmd.BARREL_QUOTA])
  else if off = Reg.BA_FILL_CUR then some (match fill, model with
    | some a, some m => m.ctx * 2 ^ 16 + a.model
    | _, _ => 0)
  else if off = Reg.BA_FILL_POS then some ((model.map (fun m => m.resident * 2 ^ 16 + m.blocks)).getD 0)
  else if off = Reg.BA_FILL_QUEUE then some (s.ba.queue.filter (fun a => !a.filling)).length
  else if off = Reg.BA_CTX_QUOTA then some (ctxFrames s c * 2 ^ 16 + (ctxOf s c).quota)
  else if off = Reg.BA_CTX_PINNED then some (ctxPinned s c)
  else if off = Reg.BA_CTX_EVICT then some (satTo 0xFFFFFFFF (ctxOf s c).evicts)
  else none

def plView (s : State) (off : Nat) : Option Nat :=
  let c := rfld s Reg.PL_CTX_SEL 0 8
  let l := (ctxOf s c).granules
  if off = Reg.PL_STATUS then some (flagWord [cmdRunning s Cmd.PLATE_PARTITION])
  else if off = Reg.PL_CTX_PART then some ((l.filter (·.isNone)).length * 2 ^ 16 + l.length)
  else if off = Reg.PL_CTX_CLAIMS then some (s.pl.claims.filter (fun k => k.ctx == c)).length
  else none

/-! ### Rasterising, Pinions, Deflate (R143, R172, R301) -/

def bnView (s : State) (off : Nat) : Option Nat :=
  if off = Reg.BN_STATUS then
    some ((s.ra.bins.filter (fun p => p.2.parked)).length * 2 ^ 8 + s.ra.bins.length * 2 ^ 4 + b2n s.ra.bins.isEmpty)
  else match instOf off 0x00901000 0x100 12 with
    | some e =>
      let leads := b2n (s.ra.passes.any (fun p => p.2.lead == e))
      some (match tfind s.ra.units e with
        | some u => (((tfind s.ra.passes u.pass).map (·.ctx)).getD 0) * 2 ^ 16 + b2n (u.stage == .network) * 2 ^ 2 + 2 + leads
        | none => leads)
    | none => none

def pnView (s : State) (off : Nat) : Option Nat :=
  if off = Reg.PN_STATUS then
    some (flagWord [s.pn.wgs.isEmpty, decide (rfld s Reg.PN_ACTIVE 0 8 < Config.pnActive s.fuse.variant), (drainingPin s).isSome])
  else match instOf off 0x00A00100 0x10 12 with
    | some t =>
      let beats := (s.pn.wgs.filter (fun p => p.2.phase == .resident && p.2.train == t)).foldl (fun n p => n + p.2.beats.length) 0
      some ((trainQueue s t).length * 2 ^ 23 + (if spareReady s t then 8 else 15) * 2 ^ 19 + beats * 2 ^ 9 + trainActive s t)
    | none => none

def dfView (s : State) (off : Nat) : Option Nat :=
  let ln := fun i => (tget {} s.df.lanes i : Lane)
  let each := fun (f : Lane → Bool) => flagWord ((List.range 8).map (fun i => f (ln i)))
  if off = Reg.DF_STATUS then
    some (each (·.isOpen) * 2 ^ 16 + each (·.job.isSome) * 2 ^ 8 + b2n (s.df.jobs.isEmpty && each (·.isOpen) == 0))
  else match instOf off 0x00D00100 4 8 with
    | some i =>
      let x := ln i
      let jobCtx := ((x.job.bind (fun j => s.df.jobs.find? (fun p => p.2.desc == j))).map (·.2.ctx)).getD x.ctx
      let busy := x.job.isSome
      some ((if busy || x.isOpen then jobCtx else 0) * 2 ^ 24 + (if x.isOpen then x.tag else 0) * 2 ^ 16 + flagWord [busy, x.isOpen, false, x.retired])
    | none => none

/-! ### Translation and the system cache (R269, R286) -/

def tuView (s : State) (off : Nat) : Option Nat :=
  let c := rfld s Reg.TU_CTX_SEL 0 8
  let x := ctxOf s c
  let k := rfld s Reg.TU_STREAM_SEL 0 6
  let open_ := s.tu.misses.filter (fun m => m.stream == k)
  if off = Reg.TU_STATUS then
    some (b2n s.tu.priStopped * 2 ^ 31 + (s.tu.misses.filter (fun m => m.st == .sentPri)).length * 2 ^ 16 +
      (s.tu.misses.filter (fun m => m.st == .sent1 || m.st == .sent2)).length * 2 ^ 6)
  else if off = Reg.TU_STREAM_STATUS then
    some (((s.tu.parked.filter (fun r => r.stream == k)).map (·.ctx)).eraseDups.length * 2 ^ 16 +
      (open_.filter (fun m => m.st == .needPage || m.st == .sentPri)).length * 2 ^ 5 + open_.length)
  else if off = Reg.TU_FRING_CFG then some (b2n x.fIrqEn * 2 ^ 4 + x.fLog2)
  else if off = Reg.TU_FRING_OFFSET then some (ringOffset s c)
  else if off = Reg.TU_FRING_HEAD then some x.fHead.toNat
  else if off = Reg.TU_FRING_TAIL then some x.fTail.toNat
  else if off = Reg.TU_FRING_STATUS then some (b2n x.fOverflow * 2 ^ 31 + (s.tu.parked.filter (fun r => r.ctx == c)).length)
  else if off = Reg.TU_FRING_OVF then some x.fOvf.toNat
  else none

def caView (s : State) (off : Nat) : Option Nat :=
  if off = Reg.CA_STATUS then
    let full := (List.range 16).any (fun q => ((victSlice s q).filter (fun p => p.2.evicting)).length == 256)
    some (rfld s off 1 2 * 2 + b2n full)
  else if off = Reg.CA_MAINT_STATUS then some (b2n s.ca.maint.isSome * 2 ^ 31 + rfld s off 0 31)
  else none

/-! ### The Crystal, the host link and the fabric (R316, R341, R359) -/

def crView (s : State) (off : Nat) : Option Nat :=
  match instOf off 0x00E00110 0x40 4, instOf off 0x00E00400 4 64 with
  | some o, _ => some ((layersOn s o).length * 2 ^ 16 + flagWord [(outOf s o).running, !(outOf s o).armed.isEmpty])
  | _, some i =>
    let x := slotOf s i
    some ((getReg s off).toNat + b2n x.move * 2 ^ 7 + b2n x.shadow.isSome * 2 ^ 6 +
      (if x.active.isSome then 2 ^ 5 + x.out else 0))
  | _, _ => none

def hlView (s : State) (off : Nat) : Option Nat :=
  if off = Reg.HL_SF_USED then some s.hl.sf.length
  else match instOf off 0x01101000 4 32, instOf off 0x01102000 4 2 with
    | some i, _ =>
      let v := vecOf s (i / 4)
      some ([v.addr.toNat % 2 ^ 32, v.addr.toNat / 2 ^ 32, v.data.toNat, b2n v.masked].getD (i % 4) 0)
    | _, some i => some (if i = 0 then flagWord ((List.range 8).map (fun v => (vecOf s v).pend)) else 0)
    | _, _ => none

def nlView (s : State) (off : Nat) : Option Nat :=
  let n := s.nl
  if off = Reg.NL_ROLE then some (n.roleOpt * 2 ^ 24 + n.acting * 2 ^ 16 + n.dev * 2 ^ 8 + b2n n.member)
  else if off = Reg.NL_STATUS then
    some (flagWord [n.enumJob.isSome || n.rejoin, n.switching.isSome, n.probing.isSome, n.mgrReach, n.remoteFenced])
  else if off = Reg.NL_EPOCH then some n.epoch.toNat
  else if off = Reg.NL_CONFIGURED then
    some (((List.range 64).filter (fun d => natBits n.members d 1 == 1)).length * 2 ^ 8 + n.configured)
  else if off = Reg.NL_MEMBERS_LO then some (n.members % 2 ^ 32)
  else if off = Reg.NL_MEMBERS_HI then some (n.members / 2 ^ 32 % 2 ^ 32)
  else if off = Reg.NL_LOST_LO then some (n.lost % 2 ^ 32)
  else if off = Reg.NL_LOST_HI then some (n.lost / 2 ^ 32 % 2 ^ 32)
  else if off = Reg.NL_ROUTE then
    let d := rfld s Reg.NL_ROUTE_SEL 0 6
    let r := tfind (if rbit s Reg.NL_ROUTE_SEL 8 then n.idle else n.active) d
    some (b2n (n.member && n.dev == d) * 2 ^ 9 + b2n r.isSome * 2 ^ 8 + r.getD 0)
  else match instOf off 0x01000100 0x10 8 with
    | some p =>
      let x := portOf s p
      some (if x.up then x.peer * 2 ^ 16 + x.peerPort * 2 ^ 8 + x.waves * 2 + 1 else 0)
    | none => none

/-! ### Reset, backup domain, errors, Chronograph (R393, R412, R424) -/

def bkView (s : State) (off : Nat) : Option Nat :=
  let b := s.bu.backup
  let cnt := fun i => tget 0 b.counts i
  if off = Reg.RS_FORGET then some s.bu.forgot
  else if off = Reg.BK_TOTAL then some b.total
  else if off = Reg.BK_STATUS then some (flagWord [b.copyA.valid, b.copyB.valid, b.useB])
  else if off = Reg.BK_SEQ then some (curCopy s).seq.toNat
  else if off = Reg.BK_TRIP then some (match b.trip with
    | some (deg, sensor, _) => 2 ^ 31 + (deg % 256).toNat * 2 ^ 8 + sensor
    | none => 0)
  else (instOf off 0x00200804 4 5).map (fun k => cnt (2 * k + 2) * 2 ^ 16 + cnt (2 * k + 1))

def FnSt.code : FnSt → Nat
  | .up => 0 | .fencing => 1 | .fenced => 2 | .restoring => 3

def erView (s : State) (off : Nat) : Option Nat :=
  if off = Reg.ER_FN_FENCED then some (fencedMask s)
  else match instOf off 0x01200020 4 8, instOf off 0x01200100 4 19 with
    | some k, _ => some (flagWord ((List.range 32).map (fun b =>
        let st := (ctxOf s (32 * k + b)).st
        st == .fenced || st == .halted || st == .destroying)))
    | _, some n =>
      let f := fnOf s n
      some (fnInFlight s n * 2 ^ 16 + (if f.st = .up then 0 else f.source * 2 ^ 8) + f.st.code)
    | _, _ => none

def chView (s : State) (off : Nat) : Option Nat :=
  let code := rfld s Reg.CH_CODE_SEL 0 8
  let b := refill (tget {} s.ch.buckets code) (calTime s)
  if off = Reg.CH_STATUS then
    some (flagWord [s.ch.perm.length == 4096, s.ch.erasing.isSome, decide (s.ch.durable < s.ch.perm.length)])
  else if off = Reg.CH_PERM_COUNT then some s.ch.perm.length
  else if off = Reg.CH_PERM_DURABLE then some s.ch.durable
  else if off = Reg.CH_CIRC_COUNT then some s.ch.circ.length
  else if off = Reg.CH_CIRC_OLDEST then some (circOldest s).toNat
  else if off = Reg.CH_CIRC_NEXT then some s.ch.nextSeq.toNat
  else if off = Reg.CH_CODE_RATE then some (if code < 0x10 then 0xFFFFFFFF else b.rate)
  else if off = Reg.CH_CODE_TOKENS then some (b.nanoTokens / 1000000000)
  else if off = Reg.CH_CODE_PENDING then some b.pending
  else none

/-! ### Every register -/

/-- What a register shows that is not held in the register file. -/
def viewReg (s : State) (off : Nat) : Option Nat :=
  let b := off / 2 ^ 20
  if b = 0 then (if off = Reg.GLOBAL_READY then some (readyMask s) else none)
  else if b = 1 then rgView s off
  else if b = 2 then bkView s off
  else if b = 3 then chView s off
  else if b = 4 then escView s off
  else if b = 5 then evView s off
  else if b = 6 then gwView s off
  else if b = 7 then baView s off
  else if b = 8 then plView s off
  else if b = 9 then bnView s off
  else if b = 10 then pnView s off
  else if b = 11 then tuView s off
  else if b = 12 then caView s off
  else if b = 13 then dfView s off
  else if b = 14 then crView s off
  else if b = 16 then nlView s off
  else if b = 17 then hlView s off
  else if b = 18 then erView s off
  else none

/-- The 64-bit value whose halves a LO and HI pair shows, by the offset of LO. -/
def fullOf (s : State) (lo : Nat) : Nat :=
  if lo = Reg.TM_TIME_LO then calTime s
  else if lo = Reg.EV_VALUE_LO then eventWord (evOf s (selEvent s))
  else if lo = Reg.BK_RTC_SEC_LO then s.bu.backup.rtcNs / 1000000000
  else getWide s lo

/-- BK_RTC_FRAC: the fraction of the RTC's second in 1/32,768 s. -/
def rtcFrac (s : State) : Nat := s.bu.backup.rtcNs % 1000000000 * 32768 / 1000000000

/-- The value a register shows; WO bits read zero. -/
def showReg (s : State) (r : RegRow) (off : Nat) : Word :=
  let v := if r.latch then BitVec.ofNat 32 (fullOf s off) else match viewReg s off with
    | some n => BitVec.ofNat 32 n
    | none => getReg s off
  v &&& ~~~(BitVec.ofNat 32 r.wo)

end Sys2Proof.Machine
end

