-- ==== Sys2Proof/Machine/Regs.lean ====
section
/-! DEFINITION. Accesses of the host to the registers of BAR0: reads and writes by access type (R2, R3, R5 to R9,
R383), with the registers whose writes act. -/

namespace Sys2Proof.Machine

/-- The state that a command's effect answers. -/
def after (s : State) (f : State → Out) : State := match f s with
  | .next s => s
  | _ => s

/-! ### Reads (R7, R8) -/

/-- R7, R8: reading LO latches HI, and for the RTC its fraction; RC bits that were returned are cleared. -/
def readEffects (s : State) (r : RegRow) (off : Nat) : State :=
  let s := if r.latch then putReg s (off + 4) (BitVec.ofNat 32 (fullOf s off / 2 ^ 32)) else s
  let s := if off = Reg.BK_RTC_SEC_LO then putReg s Reg.BK_RTC_FRAC (BitVec.ofNat 32 (rtcFrac s)) else s
  if off = Reg.TU_FRING_OVF then
    let c := rfld s Reg.TU_CTX_SEL 0 8
    setCtx s c { ctxOf s c with fOvf := 0 }
  else if r.rc = 0 then s
  else putReg s off (getReg s off &&& ~~~(BitVec.ofNat 32 r.rc))

/-- A host read of the register that holds a byte of BAR0: its value is kept as the data of the last host read. -/
def hostRead (s : State) (off : Nat) : State :=
  let o := off / 4 * 4
  if barsOn s = false ∨ 2 ^ 26 ≤ off then s
  else match offFaults s.fuse.variant o, regRow o with
    | [], some r => if offDead s o then hostData s 0 else hostData (readEffects s r o) (showReg s r o).toNat
    | bs, _ => hostData (markFault s off bs) 0

/-! ### Writes (R7) -/

/-- R7: a word written over the bits of each access type. -/
def typedWord (r : RegRow) (old val : Word) : Word :=
  let m := fun n => BitVec.ofNat 32 n
  (((old &&& ~~~(m r.rw)) ||| (val &&& m r.rw)) &&& ~~~(val &&& m r.w1c)) ||| (val &&& m r.w1s)

/-- R7: a write of a register that holds a value and nothing more; the retained settings follow it (R390). -/
def plainWrite (s : State) (off : Nat) (val : Word) : State := match regRow off with
  | none => s
  | some r =>
    let s := putReg s off (typedWord r (getReg s off) val)
    if settingRegs.contains off then retainedDirty s else s

/-- R173: writes of a mailbox: its request, its state's WRITE_DROP, GO and ACK, with GO before ACK. -/
def mboxWrite (s : State) (m o : Nat) (val : Word) : State :=
  let x := mboxOf s m
  if o < 0x40 then
    if x.st = .pending ∨ x.st = .running then setMbox s m { x with drop := true }
    else setMbox s m { x with req := (x.req ++ List.replicate (16 - x.req.length) 0).set (o / 4) val }
  else if o = 0x80 then
    if bit val 0 then after s (execGo m) else if bit val 1 then after s (execAck m) else s
  else if o = 0x84 then (if bit val 31 then setMbox s m { x with drop := false } else s)
  else s

/-- R227, R239: writes of the event that EV_SEL shows; discarded while it is free. -/
def eventWrite (s : State) (off : Nat) (val : Word) : State :=
  let e := selEvent s
  let x := evOf s e
  if x.alloc = false then s
  else if off = Reg.EV_CFG then
    setEv s e { x with sys := bit val 8, linkEn := bit val 7, acceptEn := bit val 6, acceptDev := bits val 0 6 }
  else setEv s e { x with linkDev := bits val 16 6, linkEv := bits val 0 16 }

/-- R337: a write of a word of the MSI-X table. -/
def msixWrite (s : State) (i : Nat) (val : Word) : State :=
  let v := i / 4
  let x := vecOf s v
  if i % 4 = 0 then setVec s v { x with addr := setBits x.addr 0 32 val.toNat }
  else if i % 4 = 1 then setVec s v { x with addr := setBits x.addr 32 32 val.toNat }
  else if i % 4 = 2 then setVec s v { x with data := val }
  else if bit val 0 then setVec s v { x with masked := true }
  else if x.masked then after s (execVectorUnmask v)
  else s

/-- R389: a write of RS_NVM_CTRL. -/
def nvmCtrlWrite (s : State) (val : Word) : State :=
  if bits val 16 16 ≠ 0x4E56 then setFlag s Reg.RS_NVM_STATUS 2 true
  else
    let s := if bit val 0 then nvmProgram s else s
    if bit val 1 then nvmErase s else s

/-- R281: a write of CA_MAINT_CTRL, with its GO. -/
def maintWrite (s : State) (val : Word) : State :=
  let s := plainWrite s Reg.CA_MAINT_CTRL val
  if bit val 8 then maintGo s (bits val 0 2) else s

/-- A write of a register that is repeated and acts. -/
def repeatedWrite (s : State) (off : Nat) (val : Word) : State :=
  if 0x00101000 ≤ off ∧ off < 0x00102000 then mboxWrite s ((off - 0x00101000) / 0x100) (off % 0x100) val
  else match instOf off (Reg.RG_JOB_CTRL 0) 0x20 32, instOf off (Reg.CR_OUT_CFG 0) 0x40 4, instOf off (Reg.CR_SLOT 0) 4 64,
      instOf off (Reg.TM_GEN_CTRL 0) 0x10 8, instOf off (Reg.HL_MSIX 0) 4 32, instOf off (Reg.HL_HDM_DPA 0) 4 2 with
    | some j, _, _, _, _, _ => if bit val 0 then after s (execRelease j) else s
    | _, some o, _, _, _, _ => after s (execCrOutCfgWrite o val)
    | _, _, some i, _, _, _ => after s (execCrSlotWrite i val)
    | _, _, _, some k, _, _ => after s (execGeneratorCtrlWrite k val)
    | _, _, _, _, some i, _ => msixWrite s i val
    | _, _, _, _, _, some d => if (tget {} s.hl.hdm d).committed then s else plainWrite s off val
    | none, none, none, none, none, none =>
      if Reg.TM_GEN_NUM 0 ≤ off ∧ off < Reg.TM_GEN_NUM 8 then genRateWrite s ((off - Reg.TM_GEN_NUM 0) / 0x10) off val
      else if Reg.MP_RXREC 0 ≤ off ∧ off < Reg.MP_TXREC 64 then after s (execStreamRecordWrite off val)
      else plainWrite s off val

/-- R7: what a write of a register does. -/
def actWrite (s : State) (off : Nat) (val : Word) : State :=
  if off = Reg.EV_CFG ∨ off = Reg.EV_LINK then eventWrite s off val
  else if off = Reg.EV_RECORD_HI then after s (execEvRecordHi val)
  else if off = Reg.EV_RECORD_LO then after s (execEvRecordLo val)
  else if off = Reg.EV_ADVANCE then after s (execEvAdvance val)
  else if off = Reg.TU_CTRL then (if bit val 0 then after s execFlushAll else s)
  else if off = Reg.TU_FRING_CFG then after s (execFaultRingResize val)
  else if off = Reg.TU_FRING_HEAD then after s (execFaultRingHeadWrite val)
  else if off = Reg.TU_FRING_STATUS then
    (let c := rfld s Reg.TU_CTX_SEL 0 8
     if bit val 31 then setCtx s c { ctxOf s c with fOverflow := false } else s)
  else if off = Reg.CA_CLASS_EN then after (after s (execSdEnWrite (bit val 0))) (execHcEnWrite (bit val 1))
  else if off = Reg.CA_WAYS then after s (execCaWaysWrite val)
  else if off = Reg.CA_MAINT_CTRL then maintWrite s val
  else if off = Reg.HL_BAR4_SLIDE then after s (execBar4SlideWrite val)
  else if off = Reg.NL_MC_CTRL then after s (execMcGo val)
  else if off = Reg.GLOBAL_THERM_CFG then after s (execThermCfgWrite val)
  else if off = Reg.RS_FORGET then after s (execRsForget val)
  else if off = Reg.RS_NVM_CTRL then nvmCtrlWrite s val
  else if off = Reg.BK_CTRL then after s (execClearCounts val)
  else if off = Reg.BK_RTC_SET_LO then after s (execBkRtcSet val)
  else if off = Reg.BK_RTC_SET_HI then { s with bu := { s.bu with backup := { s.bu.backup with rtcSetHi := val } } }
  else if off = Reg.GW_REPAIR_CTRL then after s (execForget val)
  else repeatedWrite s off val

/-- A 32-bit write of the host to an aligned offset of BAR0. -/
def hostWrite (s : State) (off : Nat) (val : Word) : State :=
  if barsOn s = false ∨ 2 ^ 26 ≤ off then s
  else match offFaults s.fuse.variant off with
    | [] => if offDead s off then s else noteSource (actWrite s off val) off
    | bs => markFault s off bs

/-- R6: a write of some bytes: 4 or 8 aligned bytes reach one or two registers, the lower first; any other is
discarded, and sets BAD_WIDTH but on a register of a function that is being brought up (R383). -/
def hostWriteBytes (s : State) (off n : Nat) (val : Dword) : State :=
  if barsOn s = false ∨ 2 ^ 26 ≤ off then s
  else if n = 4 ∧ off % 4 = 0 then hostWrite s off (val.setWidth 32)
  else if n = 8 ∧ off % 8 = 0 then hostWrite (hostWrite s off (val.setWidth 32)) (off + 4) ((val >>> 32).setWidth 32)
  else match offFaults s.fuse.variant (off / 4 * 4) with
    | [] => if offDead s (off / 4 * 4) then s else markFault s off [1]
    | bs => markFault s off (1 :: bs)

/-- An access of one register, by its kind. -/
def hostAccess (s : State) (write : Bool) (off : Nat) (val : Word) : State :=
  if write then hostWriteBytes s off 4 (val.setWidth 64) else hostRead s off

/-- ABSENT_UNIT_ACCESS (R2). -/
def execAbsentUnitAccess (write : Bool) (off : Nat) (val : Word) (s : State) : Out := .next (hostAccess s write off val)

/-- UNMAPPED_ACCESS (R3). -/
def execUnmappedAccess (write : Bool) (off : Nat) (val : Word) (s : State) : Out := .next (hostAccess s write off val)

/-- BAD_WIDTH_WRITE (R6). -/
def execBadWidthWrite (off bytes : Nat) (val : Dword) (s : State) : Out := .next (hostWriteBytes s off bytes val)

/-- REGISTER_WRITE (R7). -/
def execRegisterWrite (off : Nat) (val : Word) (s : State) : Out := .next (hostWriteBytes s off 4 (val.setWidth 64))

/-- RC_REGISTER_READ (R8): a read of a register. -/
def execRcRegisterRead (off : Nat) (s : State) : Out := .next (hostRead s off)

end Sys2Proof.Machine
end

