-- ==== Sys2Proof/Machine/Tiles.lean ====
section
/-! DEFINITION. TILE_PROCESS (R130, R132 to R138): the steps of one tile, one stage a command. -/

namespace Sys2Proof.Machine

/-- A tile engine at work: the engine, its unit, the pass and its number, and the tile. -/
structure Eng where
  e : Nat
  u : TUnit
  id : Nat
  p : RPass
  i : Nat
  deriving DecidableEq, Repr

def setUnit (s : State) (e : Nat) (u : TUnit) : State := { s with ra := { s.ra with units := tset s.ra.units e u } }
def Eng.put (g : Eng) (s : State) (u : TUnit) : State := setUnit s g.e u
def Eng.who (g : Eng) : Who := teWho g.p.ctx g.e g.p.ring

/-- A tile's first Plate refusal becomes the pass's failure (R103, R115). -/
def checkTile (s : State) (g : Eng) (k : Nat) : State :=
  let c := tileCode s g.p.ctx (imgAt g.p k) g.i
  if c = 0 then s else noteFail s g.id c

/-- The pass's record changed by a function. -/
def onPass (s : State) (id : Nat) (f : RPass → RPass) : State :=
  match passOf s id with
  | some p => setPass s id (f p)
  | none => s

/-! ### Step 1: load (R130, R138) -/

/-- What step 1 reads for a tile: the image, and the runs of memory with their place in the tile. -/
def loadReads (g : Eng) : List (Nat × List (Nat × Nat × Nat)) :=
  if g.p.seg = 0 then
    (g.p.atts.filter (fun b => !atOnly b && atLoad b == 0)).map (fun b => (atImage b, memRuns (imgAt g.p (atImage b)) (imgAt g.p (atImage b)).lg b g.i))
  else (geomImgs g.p).map (fun k => (k, [(spillAt g.p k g.i, 0, Img.tileBytes (imgAt g.p k))]))

/-- The tile list's header and chunks as reads (Table TR-7). -/
def listSteps (p : RPass) (count : Nat) : List (List (List Byte) → List (Nat × Nat)) :=
  (List.range (ceilDiv count 62)).map (fun k bs =>
    let idx := if k = 0 then leAt (bs.getLastD []) 0 4 else leAt (bs.getLastD []) 0xF8 4
    if idx = 0 then [] else [(p.heap + 256 * idx, 256)])

/-- The primitives that a list's chunks name, in order. -/
def listPrims (chunks : List (List Byte)) (count : Nat) : List Nat :=
  ((chunks.map (fun b => (List.range (Nat.min 62 (leAt b 0xFC 4))).map (fun k => leAt b (4 * k) 4 % 2 ^ 30))).flatten).take count

/-- Bytes put into a tile: zeros first where the whole tile is loaded from inside the frame, then the runs. -/
def putRuns (s : State) (g : Eng) (k : Nat) (zero : Bool) (runs : List (Nat × Nat × Nat)) (bs : List (List Byte)) : State :=
  let b := imgAt g.p k
  let s := if zero then tileWr s g.p.ctx b g.i 0 (List.replicate b.tileBytes 0) else s
  (runs.zip bs).foldl (fun s x => tileWr s g.p.ctx b g.i x.1.2.1 x.2) s

/-- The tile has been loaded: its clears are written and its list is ready to be walked. -/
def loaded (s : State) (g : Eng) (prims : List Nat) : State :=
  let s := (geomImgs g.p).foldl (fun s k => checkTile s g k) s
  let s := if g.p.seg ≠ 0 then s else
    (g.p.atts.filter (fun b => !atOnly b && atLoad b == 1)).foldl (fun s b =>
      (clearBytes (imgAt g.p (atImage b)) b).foldl (fun s x => tileWr s g.p.ctx (imgAt g.p (atImage b)) g.i x.1 x.2) s) s
  let s := if g.p.seg = 0 then s else countReg s (Reg.TE_SPILLS g.e) 32 1
  g.put s { g.u with stage := if g.p.hsr = 0 ∨ prims = [] then .shade else .pre, todo := prims, win := [], frags := [], wgs := [] }

def stageLoad (s : State) (g : Eng) : State :=
  let lr := loadReads g
  let runs := (lr.map (fun x => x.2.map (fun r => (x.1, r)))).flatten
  let rd := runs.map (fun r => (r.2.1, r.2.2.2))
  let put (s : State) (bs : List (List Byte)) : State :=
    lr.foldl (fun s x =>
      let mine := (runs.zip bs).filter (fun r => r.1.1 == x.1)
      putRuns s g x.1 true (mine.map (·.1.2)) (mine.map (·.2))) s
  let zeros := rd.map (fun r => List.replicate r.2 (0 : Byte))
  let go (s : State) (bs : List (List Byte)) : State :=
    if g.p.heap = 0 then loaded (put s bs) g []
    else
      let hdr := [(g.p.heap + 256 + 16 * g.i, 16)]
      match readChain s g.who [] hdr with
      | .wait s => s
      | .fault s => enterDrain s g.id St.IN_FAULT
      | .ok s1 h =>
        let count := leAt (h.headD []) 8 4
        match readChain s1 g.who (listSteps g.p count) hdr with
        | .wait s => s
        | .fault s => enterDrain s g.id St.IN_FAULT
        | .ok s2 cs => loaded (put s2 bs) g (listPrims (cs.drop 1) count)
  match readChain s g.who [] rd with
  | .wait s => s
  | .fault s => go (noteFail s g.id St.IN_FAULT) zeros
  | .ok s1 bs => go s1 bs

/-! ### Step 2: depth pre-pass (R135) -/

/-- The raw depth that the Plate holds for a sample. -/
def heldDepth (s : State) (g : Eng) (x y j : Nat) : Nat :=
  match depthImg g.p with
  | some b => leNat (tileRd s g.p.ctx b g.i (b.byteAt 0 y x j) (b.planeBytes 0))
  | none => 0

def stagePre (s : State) (g : Eng) : State :=
  let m := segMapOf s g.p.ctx g.p.heap
  let ps := g.u.todo
  match readChain s g.who [primDeps g.p m ps.length] (primReads g.p m ps) with
  | .wait s => s
  | .fault s => enterDrain s g.id St.IN_FAULT
  | .ok s bs =>
    let fmt := ((depthImg g.p).map Img.format).getD 1
    let w := prePass g.p g.i fmt (heldDepth s g) (primInfos ps bs)
    g.put s { g.u with stage := .shade, win := w }

/-! ### Step 3: shade (R132 to R135) -/

/-- A sample tested against the running depth and stencil, which it updates. -/
def testHere (s : State) (g : Eng) (q : PInfo) (x y j new : Nat) : State × Bool :=
  match depthImg g.p with
  | none => (s, (testSample q.st q.back false false 1 new 0 0).pass)
  | some b =>
    let hasS := b.format == 2
    let da := b.byteAt 0 y x j
    let sa := b.byteAt 1 y x j
    let old := heldDepth s g x y j
    let sten := if hasS then leNat (tileRd s g.p.ctx b g.i sa 1) else 0
    let t := testSample q.st q.back true hasS b.format new old sten
    let s := if t.depth = old then s else tileWr s g.p.ctx b g.i da (toLe t.depth (b.planeBytes 0))
    let s := if t.stencil = sten then s else tileWr s g.p.ctx b g.i sa (toLe t.stencil 1)
    (s, t.pass)

/-- A pixel of a primitive with the samples that go to shading and their raw depths. -/
abbrev PixelWork := Nat × Nat × List (Nat × Word)

/-- Samples of a primitive in a tile: culled under R135, tested unless the tests come after shading, and kept. -/
def rasterise (s : State) (g : Eng) (q : PInfo) : State × List PixelWork × Nat :=
  let fmt := ((depthImg g.p).map Img.format).getD 1
  let elig := eligible g.p q.st
  (tilePixels g.p q.st g.i).foldl (fun (acc : State × List PixelWork × Nat) xy =>
    let js := covered g.p q g.i xy.1 xy.2
    let keep := js.filter (fun j => !elig || tfind g.u.win (sampleKey g.p xy.1 xy.2 j) == some q.prim)
    let r := keep.foldl (fun (r : State × List (Nat × Word)) j =>
      let z := sampleDepth g.p q fmt g.i xy.1 xy.2 j
      if stEffects q.st then (r.1, r.2 ++ [(j, BitVec.ofNat 32 z)])
      else
        let t := testHere r.1 g q xy.1 xy.2 j z
        (t.1, if t.2 then r.2 ++ [(j, BitVec.ofNat 32 z)] else r.2)) (acc.1, [])
    (r.1, if r.2 = [] then acc.2.1 else acc.2.1 ++ [(xy.1, xy.2, r.2)], acc.2.2 + (js.length - keep.length))) (s, [], 0)

/-- The quads of a primitive's pixels, in the order in which they are first met. -/
def quadsOf (ws : List PixelWork) : List (Nat × Nat) := (ws.map (fun w => (w.1 / 2, w.2.1 / 2))).eraseDups

/-- One beat of up to 8 quads: its lanes (R150). -/
def fragBeat (seed : Nat) (g : Eng) (q : PInfo) (ws : List PixelWork) (quads : List (Nat × Nat)) : Beat :=
  let d := tileDims g.p.tile
  let lanes := (quads.zip (List.range quads.length)).map (fun z =>
    [(0, 0), (1, 0), (0, 1), (1, 1)].zip (List.range 4) |>.map (fun o => (4 * z.2 + o.2, 2 * z.1.1 + o.1.1, 2 * z.1.2 + o.1.2)))
  let ls := lanes.flatten
  let maskOf (x y : Nat) : Nat := match ws.find? (fun w => w.1 == x && w.2.1 == y) with
    | some w => w.2.2.foldl (fun m j => m + 2 ^ j.1) 0
    | none => 0
  let helpers := (ls.filter (fun l => maskOf l.2.1 l.2.2 == 0)).foldl (fun m l => m + 2 ^ l.1) 0
  let frag := ls.map (fun l => (g.i % g.p.gx * d.1 + l.2.1, g.i / g.p.gx * d.2 + l.2.2, maskOf l.2.1 l.2.2))
  newBeat seed (2 ^ (4 * quads.length) - 1) helpers frag ((ls.map (fun l =>
    ((varyings g.p q g.i l.2.1 l.2.2).zip (List.range q.a.vary.length)).map (fun v => (v.2, l.1, v.1)))).flatten)

/-- Slices of a list. -/
def slices {α : Type} (n : Nat) (l : List α) : List (List α) := (List.range (ceilDiv l.length n)).map (fun k => (l.drop (n * k)).take n)

/-- Fragment work sent to the engine's train: workgroups of 4 beats of 8 quads (R120, R150). -/
def sendFrags (s : State) (g : Eng) (q : PInfo) (hdr : List Byte) (ws : List PixelWork) (rest : List Nat) : State :=
  let quads := quadsOf ws
  let h := progOf hdr
  let groups := slices 4 (slices 8 quads)
  let first := s.pn.nextWg
  let s := groups.foldl (fun s bq =>
    let w : Wg := { kind := 2, owner := g.id, ctx := g.p.ctx, ring := g.p.ring, eng := 16 + g.e, vregs := h.vregs, code := stProg q.st + 64, codeBytes := h.codeBytes, const := stConst q.st, trains := 2 ^ g.e, aff := g.e, beats := (bq.zip (List.range bq.length)).map (fun x => fragBeat (s.free + x.2) g q ws x.1) }
    addWg s w) s
  let frags := ws.map (fun w =>
    let k := quads.idxOf (w.1 / 2, w.2.1 / 2)
    ({ wg := first + k / 32, beat := k / 8 % 4, lane := 4 * (k % 8) + w.1 % 2 + 2 * (w.2.1 % 2), x := w.1, y := w.2.1, samples := w.2.2 } : FragLane))
  let s := onPass s g.id (fun p => { p with quads := satTo 0xFFFFFFFF (p.quads + quads.length) })
  g.put s { g.u with todo := rest, frags := frags, wgs := (List.range groups.length).map (· + first), curPrim := q.prim }

/-- The next list entry is rasterised. -/
def shadeNext (s : State) (g : Eng) (prim : Nat) (rest : List Nat) : State :=
  let m := segMapOf s g.p.ctx g.p.heap
  let prog (bs : List (List Byte)) : List (Nat × Nat) := [(stProg (bs.getD 4 []), 64)]
  match readChain s g.who [primDeps g.p m 1, prog] (primReads g.p m [prim]) with
  | .wait s => s
  | .fault s => enterDrain s g.id St.IN_FAULT
  | .ok s bs =>
    match primInfos [prim] bs with
    | [q] =>
      let r := rasterise s g q
      let s := onPass r.1 g.id (fun p => { p with hsrCulled := satTo 0xFFFFFFFF (p.hsrCulled + r.2.2) })
      let s := countReg s (Reg.TE_HSR_CULLED g.e) 32 r.2.2
      if r.2.1 = [] then g.put s { g.u with todo := rest } else sendFrags s g q (bs.getLastD []) r.2.1 rest
    | _ => s

/-- One pixel's outputs blended into the colour images, sample by sample (R132, R134). -/
def blendPixel (s : State) (g : Eng) (q : PInfo) (table : List Byte) (k : Colour) (f : FragLane) (b : Beat) : State :=
  let out (loc : Nat) (c : Nat) : Word := b.reg (4 * loc + c) f.lane
  f.samples.foldl (fun s j =>
    let late :=
      if stEffects q.st then
        if natBits (b.reg 65 f.lane).toNat j.1 1 = 0 then (s, false)
        else
          let z := dec32 (b.reg 64 f.lane)
          testHere s g q f.x f.y j.1 (depthRaw (((depthImg g.p).map Img.format).getD 1) (if stClamp q.st then clamp01 z else z))
      else (s, true)
    if late.2 = false then late.1
    else
      (boundAtts g.p).foldl (fun s a =>
        let im := imgAt g.p (atImage a.2)
        (List.range im.nPlanes).foldl (fun s pl =>
          let loc := a.1 + pl
          let fmt := if im.cls = 2 then im.planeFmt pl else im.format
          let at_ := im.byteAt pl f.y f.x j.1
          let old := tileRd s g.p.ctx im g.i at_ (im.planeBytes pl)
          tileWr s g.p.ctx im g.i at_ (blendSample fmt q.st loc (leAt table (8 * loc) 8) k (out loc) (out (loc + 1)) old)) s) late.1) s

/-- The fragment work of a primitive has ended: its outputs are blended (R132). -/
def shadeDone (s : State) (g : Eng) : State :=
  let m := segMapOf s g.p.ctx g.p.heap
  let prim := g.u.curPrim
  let blend (bs : List (List Byte)) : List (Nat × Nat) := [(stBlendTable (bs.getD 4 []), 128), (stConst (bs.getD 4 []), 16)]
  match readChain s g.who [primDeps g.p m 1, blend] (primReads g.p m [prim]) with
  | .wait s => s
  | .fault s => enterDrain s g.id St.IN_FAULT
  | .ok s bs =>
    match primInfos [prim] bs with
    | [q] =>
      let k : Colour := fun c => dec32 (BitVec.ofNat 32 (leAt (bs.getD 6 []) (4 * c) 4))
      let s := g.u.frags.foldl (fun s f =>
        match (wgOf s f.wg).bind (fun w => w.beats[f.beat]?) with
        | some b => if inMask b.ended f.lane then blendPixel s g q (bs.getD 5 []) k f b else s
        | none => s) s
      g.put (dropWgs s g.u.wgs) { g.u with frags := [], wgs := [] }
    | _ => s

def stageShade (s : State) (g : Eng) : State :=
  if g.u.wgs ≠ [] then
    if g.u.wgs.all (fun w => ((wgOf s w).map (fun x => decide (x.phase = .done))).getD true) then shadeDone s g else s
  else match g.u.todo with
    | prim :: rest => shadeNext s g prim rest
    | [] => g.put s { g.u with stage := .resolve }

/-! ### Step 4: resolve (R136) -/

/-- A colour image resolved into its single-sample image. -/
def resolveInto (s : State) (g : Eng) (b : List Byte) : State :=
  let im := imgAt g.p (atImage b)
  let dst := imgAt g.p (atResolve b)
  (List.range im.nPlanes).foldl (fun s k =>
    (List.range im.th).foldl (fun s y =>
      (List.range im.tw).foldl (fun s x => tileWr s g.p.ctx dst g.i (dst.byteAt k y x 0) (resolvedPixel s g.p.ctx im b g.i k y x)) s) s) s

/-- The tile's raster phase has ended: the unit's next tile, or its network phase, or its spill. -/
def afterRaster (s : State) (g : Eng) : State :=
  let n := (unitTiles g.p g.u.unit).length
  if g.u.t + 1 < n then g.put s { g.u with t := g.u.t + 1, stage := .load, todo := [], win := [] }
  else
    let s := onPass s g.id (fun p => { p with rastUnits := p.rastUnits ++ [g.u.unit] })
    g.put s { g.u with t := 0, stage := if g.p.final then .network else .store, todo := [], win := [] }

def stageResolve (s : State) (g : Eng) : State :=
  let s := if g.p.final then (g.p.atts.filter (fun b => !atOnly b && atResolve b != 0xFF)).foldl (fun s b => resolveInto s g b) s else s
  afterRaster s g

/-! ### Step 5: network, store and spill (R109, R130, R138) -/

/-- The writes of a tile's store actions. -/
def storeWrites (s : State) (g : Eng) : List (Nat × List Byte) :=
  ((g.p.atts.filter (fun b => atStore b != 2)).map (fun b =>
    let im := imgAt g.p (atImage b)
    if atStore b = 1 ∧ im.samples ≠ 1 then
      let r := Img.relay im 0
      (memRuns r 0 b g.i).map (fun run =>
        let k := if im.nPlanes ≤ 1 then 0 else ((List.range im.nPlanes).filter (fun k => decide (r.planeOff k ≤ run.2.1))).getLastD 0
        let n := im.planeBytes k
        let px := (run.2.1 - r.planeOff k) / n
        (run.1, ((List.range (run.2.2 / n)).map (fun x => resolvedPixel s g.p.ctx im b g.i k (px / im.cols) (px % im.cols + x))).flatten))
    else (memRuns im im.lg b g.i).map (fun run => (run.1, tileRd s g.p.ctx im g.i run.2.1 run.2.2)))).flatten

/-- The writes of a tile's spill. -/
def spillWrites (s : State) (g : Eng) : List (Nat × List Byte) :=
  (geomImgs g.p).map (fun k => (spillAt g.p k g.i, tileRd s g.p.ctx (imgAt g.p k) g.i 0 (Img.tileBytes (imgAt g.p k))))

/-- The tile has gone through step 5. -/
def afterStore (s : State) (g : Eng) : State :=
  let s := addWide s (Reg.TE_TICKS_LO g.e) 1
  let s := tickFor s g.p.ctx (16 + g.e)
  if g.u.t + 1 < (unitTiles g.p g.u.unit).length then g.put s { g.u with t := g.u.t + 1 }
  else
    let s := onPass s g.id (fun p => { p with doneUnits := p.doneUnits ++ [g.u.unit] })
    { s with ra := { s.ra with units := tdel s.ra.units g.e } }

def stageStore (s : State) (g : Eng) : State :=
  let ws := if g.p.final then storeWrites s g else spillWrites s g
  let s0 := if g.p.final then
      (g.p.atts.filter (fun b => atOnly b && atStore b == 0)).foldl (fun s b => checkTile s g (atImage b)) s else s
  withMem s0 g.who (ws.map (fun x => { va := x.1, len := x.2.length, kind := 1 }))
    (fun s m =>
      let s := ws.foldl (fun s x => vaWr s false g.who m x.1 x.2) s
      afterStore (if g.p.final then s else countReg s (Reg.TE_SPILLS g.e) 32 1) g)
    (fun s _ => if g.p.final then afterStore (noteFail s g.id St.OUT_FAULT) g else enterDrain s g.id St.OUT_FAULT)

/-- The network phase is over once the pass's stream has gone past the unit. -/
def stageNetwork (s : State) (g : Eng) : State :=
  if g.p.nets = [] then
    g.put (onPass s g.id (fun p => { p with netUnits := p.netUnits ++ [g.u.unit] })) { g.u with stage := .store }
  else if g.p.netUnits.contains g.u.unit then g.put s { g.u with stage := .store }
  else s

/-- TILE_PROCESS (R132): the next stage of the tile that an engine works on. A unit whose pass drains is given up; a
fence ends the unit at the end of its tile (Table ER-3). -/
def execTileProcess (te : Nat) (s : State) : Out :=
  .next <| match tfind s.ra.units te with
  | none => s
  | some u =>
    match passOf s u.pass with
    | none => { s with ra := { s.ra with units := tdel s.ra.units te } }
    | some p =>
      let g : Eng := { e := te, u := u, id := u.pass, p := p, i := (unitTiles p u.unit).getD u.t 0 }
      let drop (s : State) : State :=
        let s := dropWgs s u.wgs
        { s with ra := { s.ra with units := tdel s.ra.units te } }
      if p.phase ≠ .run then drop s
      else
        match u.stage, engineFence s (16 + te) with
        | .load, some (_, st) => enterDrain s u.pass st
        | .network, some (_, st) => enterDrain s u.pass st
        | .store, some (_, st) => enterDrain s u.pass st
        | .load, none => stageLoad s g
        | .pre, _ => stagePre s g
        | .shade, _ => stageShade s g
        | .resolve, _ => stageResolve s g
        | .raster, _ => afterRaster s g
        | .network, none => stageNetwork s g
        | .store, none => stageStore s g

end Sys2Proof.Machine
end

