-- ==== Sys2Proof/Machine/Dispatch.lean ====
section
/-! DEFINITION. One arm per command: the direct call of its meaning. -/

namespace Sys2Proof.Machine

/-- The effect of a command on the state, but for the queue (the arms only dispatch). -/
def exec (i : Instr) (s : State) : Host.Outcome State Fault Refusal :=
  match i with
  | .absentUnitAccess write off val => Sys2Proof.Machine.execAbsentUnitAccess write off val s
  | .unmappedAccess write off val => Sys2Proof.Machine.execUnmappedAccess write off val s
  | .badWidthWrite off bytes val => Sys2Proof.Machine.execBadWidthWrite off bytes val s
  | .registerWrite off val => Sys2Proof.Machine.execRegisterWrite off val s
  | .rcRegisterRead off => Sys2Proof.Machine.execRcRegisterRead off s
  | .doorbell ring val => Sys2Proof.Machine.execDoorbell ring val s
  | .reserve ring => Sys2Proof.Machine.execReserve ring s
  | .descriptorFetch eng => Sys2Proof.Machine.execDescriptorFetch eng s
  | .indirectRead ring => Sys2Proof.Machine.execIndirectRead ring s
  | .descriptorStart ring => Sys2Proof.Machine.execDescriptorStart ring s
  | .descriptorComplete desc => Sys2Proof.Machine.execDescriptorComplete desc s
  | .continuationPush ring => Sys2Proof.Machine.execContinuationPush ring s
  | .nop desc => Sys2Proof.Machine.execNop desc s
  | .eventWait desc => Sys2Proof.Machine.execEventWait desc s
  | .eventRecord desc => Sys2Proof.Machine.execEventRecord desc s
  | .wheelOp desc => Sys2Proof.Machine.execWheelOp desc s
  | .operationParameterRead op => Sys2Proof.Machine.execOperationParameterRead op s
  | .networkPassIssue pass => Sys2Proof.Machine.execNetworkPassIssue pass s
  | .gwSelect => Sys2Proof.Machine.execGwSelect s
  | .sliceLoad => Sys2Proof.Machine.execSliceLoad s
  | .wavefront fault group => Sys2Proof.Machine.execWavefront fault group s
  | .gwOperationComplete op => Sys2Proof.Machine.execGwOperationComplete op s
  | .patternTest pass => Sys2Proof.Machine.execPatternTest pass s
  | .spareTestFailure phys => Sys2Proof.Machine.execSpareTestFailure phys s
  | .groupRepair pass => Sys2Proof.Machine.execGroupRepair pass s
  | .forget val => Sys2Proof.Machine.execForget val s
  | .gwRateSample stepNs => Sys2Proof.Machine.execGwRateSample stepNs s
  | .modelRegister mb => Sys2Proof.Machine.execModelRegister mb s
  | .modelLoad mb => Sys2Proof.Machine.execModelLoad mb s
  | .modelPin mb => Sys2Proof.Machine.execModelPin mb s
  | .modelUnpin mb => Sys2Proof.Machine.execModelUnpin mb s
  | .modelEvict mb => Sys2Proof.Machine.execModelEvict mb s
  | .modelUnload mb => Sys2Proof.Machine.execModelUnload mb s
  | .modelStatus mb => Sys2Proof.Machine.execModelStatus mb s
  | .barrelQuota mb => Sys2Proof.Machine.execBarrelQuota mb s
  | .modelLoadDescriptor desc => Sys2Proof.Machine.execModelLoadDescriptor desc s
  | .admission => Sys2Proof.Machine.execAdmission s
  | .holdEndAdmissionResume => Sys2Proof.Machine.execHoldEndAdmissionResume s
  | .blockResident => Sys2Proof.Machine.execBlockResident s
  | .loadFailure => Sys2Proof.Machine.execLoadFailure s
  | .barrelEccError frame word double pass op => Sys2Proof.Machine.execBarrelEccError frame word double pass op s
  | .barrelShare pass => Sys2Proof.Machine.execBarrelShare pass s
  | .platePartition mb => Sys2Proof.Machine.execPlatePartition mb s
  | .granuleRelease ctx => Sys2Proof.Machine.execGranuleRelease ctx s
  | .plateAccess ctx slot off write data => Sys2Proof.Machine.execPlateAccess ctx slot off write data s
  | .plateEccError phys word double pass desc => Sys2Proof.Machine.execPlateEccError phys word double pass desc s
  | .granuleReplacement ctx => Sys2Proof.Machine.execGranuleReplacement ctx s
  | .plateClaim pass => Sys2Proof.Machine.execPlateClaim pass s
  | .rowRelease pass => Sys2Proof.Machine.execRowRelease pass s
  | .binPass desc => Sys2Proof.Machine.execBinPass desc s
  | .binBatch => Sys2Proof.Machine.execBinBatch s
  | .binnerUnpark desc => Sys2Proof.Machine.execBinnerUnpark desc s
  | .renderPass desc => Sys2Proof.Machine.execRenderPass desc s
  | .unitHandout te => Sys2Proof.Machine.execUnitHandout te s
  | .tileProcess te => Sys2Proof.Machine.execTileProcess te s
  | .segmentRead pass => Sys2Proof.Machine.execSegmentRead pass s
  | .heapDrain pass => Sys2Proof.Machine.execHeapDrain pass s
  | .renderPassComplete pass => Sys2Proof.Machine.execRenderPassComplete pass s
  | .dispatch desc => Sys2Proof.Machine.execDispatch desc s
  | .workgroupExpansion desc => Sys2Proof.Machine.execWorkgroupExpansion desc s
  | .workgroupAdmission train pos => Sys2Proof.Machine.execWorkgroupAdmission train pos s
  | .workgroupSteal train pos => Sys2Proof.Machine.execWorkgroupSteal train pos s
  | .workgroupEnd wg => Sys2Proof.Machine.execWorkgroupEnd wg s
  | .dispatchComplete desc => Sys2Proof.Machine.execDispatchComplete desc s
  | .fadd wg beat => Sys2Proof.Machine.execFadd wg beat s
  | .fmul wg beat => Sys2Proof.Machine.execFmul wg beat s
  | .ffma wg beat => Sys2Proof.Machine.execFfma wg beat s
  | .fmin wg beat => Sys2Proof.Machine.execFmin wg beat s
  | .fmax wg beat => Sys2Proof.Machine.execFmax wg beat s
  | .fcmp wg beat => Sys2Proof.Machine.execFcmp wg beat s
  | .frcp wg beat => Sys2Proof.Machine.execFrcp wg beat s
  | .frsq wg beat => Sys2Proof.Machine.execFrsq wg beat s
  | .fexp2 wg beat => Sys2Proof.Machine.execFexp2 wg beat s
  | .flog2 wg beat => Sys2Proof.Machine.execFlog2 wg beat s
  | .fsin wg beat => Sys2Proof.Machine.execFsin wg beat s
  | .fcos wg beat => Sys2Proof.Machine.execFcos wg beat s
  | .fdiv wg beat => Sys2Proof.Machine.execFdiv wg beat s
  | .fsqrt wg beat => Sys2Proof.Machine.execFsqrt wg beat s
  | .hadd2 wg beat => Sys2Proof.Machine.execHadd2 wg beat s
  | .hmul2 wg beat => Sys2Proof.Machine.execHmul2 wg beat s
  | .hfma2 wg beat => Sys2Proof.Machine.execHfma2 wg beat s
  | .hmin2 wg beat => Sys2Proof.Machine.execHmin2 wg beat s
  | .hmax2 wg beat => Sys2Proof.Machine.execHmax2 wg beat s
  | .hcmp2 wg beat => Sys2Proof.Machine.execHcmp2 wg beat s
  | .iadd wg beat => Sys2Proof.Machine.execIadd wg beat s
  | .isub wg beat => Sys2Proof.Machine.execIsub wg beat s
  | .imul wg beat => Sys2Proof.Machine.execImul wg beat s
  | .imulhi wg beat => Sys2Proof.Machine.execImulhi wg beat s
  | .imad wg beat => Sys2Proof.Machine.execImad wg beat s
  | .iaddsat wg beat => Sys2Proof.Machine.execIaddsat wg beat s
  | .isubsat wg beat => Sys2Proof.Machine.execIsubsat wg beat s
  | .imin wg beat => Sys2Proof.Machine.execImin wg beat s
  | .imax wg beat => Sys2Proof.Machine.execImax wg beat s
  | .umin wg beat => Sys2Proof.Machine.execUmin wg beat s
  | .umax wg beat => Sys2Proof.Machine.execUmax wg beat s
  | .icmp wg beat => Sys2Proof.Machine.execIcmp wg beat s
  | .ucmp wg beat => Sys2Proof.Machine.execUcmp wg beat s
  | .andBits wg beat => Sys2Proof.Machine.execAndBits wg beat s
  | .orBits wg beat => Sys2Proof.Machine.execOrBits wg beat s
  | .xorBits wg beat => Sys2Proof.Machine.execXorBits wg beat s
  | .shl wg beat => Sys2Proof.Machine.execShl wg beat s
  | .shr wg beat => Sys2Proof.Machine.execShr wg beat s
  | .sar wg beat => Sys2Proof.Machine.execSar wg beat s
  | .popc wg beat => Sys2Proof.Machine.execPopc wg beat s
  | .clz wg beat => Sys2Proof.Machine.execClz wg beat s
  | .iadd2 wg beat => Sys2Proof.Machine.execIadd2 wg beat s
  | .iaddi wg beat => Sys2Proof.Machine.execIaddi wg beat s
  | .bfe wg beat => Sys2Proof.Machine.execBfe wg beat s
  | .cvt wg beat => Sys2Proof.Machine.execCvt wg beat s
  | .mov wg beat => Sys2Proof.Machine.execMov wg beat s
  | .movi wg beat => Sys2Proof.Machine.execMovi wg beat s
  | .sel wg beat => Sys2Proof.Machine.execSel wg beat s
  | .shfl wg beat => Sys2Proof.Machine.execShfl wg beat s
  | .vote wg beat => Sys2Proof.Machine.execVote wg beat s
  | .ddx wg beat => Sys2Proof.Machine.execDdx wg beat s
  | .ddy wg beat => Sys2Proof.Machine.execDdy wg beat s
  | .pmov wg beat => Sys2Proof.Machine.execPmov wg beat s
  | .plop wg beat => Sys2Proof.Machine.execPlop wg beat s
  | .ld wg beat => Sys2Proof.Machine.execLd wg beat s
  | .st wg beat => Sys2Proof.Machine.execSt wg beat s
  | .lds wg beat => Sys2Proof.Machine.execLds wg beat s
  | .sts wg beat => Sys2Proof.Machine.execSts wg beat s
  | .ldc wg beat => Sys2Proof.Machine.execLdc wg beat s
  | .atom wg beat => Sys2Proof.Machine.execAtom wg beat s
  | .atoms wg beat => Sys2Proof.Machine.execAtoms wg beat s
  | .fence wg beat => Sys2Proof.Machine.execFence wg beat s
  | .pld wg beat => Sys2Proof.Machine.execPld wg beat s
  | .pst wg beat => Sys2Proof.Machine.execPst wg beat s
  | .rsub wg beat => Sys2Proof.Machine.execRsub wg beat s
  | .evrec wg beat => Sys2Proof.Machine.execEvrec wg beat s
  | .evwait wg beat => Sys2Proof.Machine.execEvwait wg beat s
  | .evrd wg beat => Sys2Proof.Machine.execEvrd wg beat s
  | .malloc wg beat => Sys2Proof.Machine.execMalloc wg beat s
  | .mfree wg beat => Sys2Proof.Machine.execMfree wg beat s
  | .bra wg beat => Sys2Proof.Machine.execBra wg beat s
  | .call wg beat => Sys2Proof.Machine.execCall wg beat s
  | .ret wg beat => Sys2Proof.Machine.execRet wg beat s
  | .bar wg beat => Sys2Proof.Machine.execBar wg beat s
  | .endLanes wg beat => Sys2Proof.Machine.execEndLanes wg beat s
  | .discard wg beat => Sys2Proof.Machine.execDiscard wg beat s
  | .s2r wg beat => Sys2Proof.Machine.execS2r wg beat s
  | .pinionNop wg beat => Sys2Proof.Machine.execPinionNop wg beat s
  | .pinionEccError train pos double pass => Sys2Proof.Machine.execPinionEccError train pos double pass s
  | .pinionPatternTest pass => Sys2Proof.Machine.execPinionPatternTest pass s
  | .pinionRetire train => Sys2Proof.Machine.execPinionRetire train s
  | .go mb => Sys2Proof.Machine.execGo mb s
  | .ack mb => Sys2Proof.Machine.execAck mb s
  | .mailboxTake mb => Sys2Proof.Machine.execMailboxTake mb s
  | .jobDone job => Sys2Proof.Machine.execJobDone job s
  | .release job => Sys2Proof.Machine.execRelease job s
  | .getInfo mb => Sys2Proof.Machine.execGetInfo mb s
  | .ctxCreate mb => Sys2Proof.Machine.execCtxCreate mb s
  | .ctxDestroy mb => Sys2Proof.Machine.execCtxDestroy mb s
  | .destroyDrainEnd ctx => Sys2Proof.Machine.execDestroyDrainEnd ctx s
  | .destroyPartitionZeroed ctx => Sys2Proof.Machine.execDestroyPartitionZeroed ctx s
  | .ctxQuery mb => Sys2Proof.Machine.execCtxQuery mb s
  | .ctxUnfence mb => Sys2Proof.Machine.execCtxUnfence mb s
  | .ctxWeight mb => Sys2Proof.Machine.execCtxWeight mb s
  | .eventAlloc mb => Sys2Proof.Machine.execEventAlloc mb s
  | .eventFree mb => Sys2Proof.Machine.execEventFree mb s
  | .hangPolicy mb => Sys2Proof.Machine.execHangPolicy mb s
  | .ringCreate mb => Sys2Proof.Machine.execRingCreate mb s
  | .ringDestroy mb => Sys2Proof.Machine.execRingDestroy mb s
  | .ringQuery mb => Sys2Proof.Machine.execRingQuery mb s
  | .resvSet mb => Sys2Proof.Machine.execResvSet mb s
  | .resvRelease mb => Sys2Proof.Machine.execResvRelease mb s
  | .resvQuery mb => Sys2Proof.Machine.execResvQuery mb s
  | .acctBind mb => Sys2Proof.Machine.execAcctBind mb s
  | .acctRead mb => Sys2Proof.Machine.execAcctRead mb s
  | .acctPeriod mb => Sys2Proof.Machine.execAcctPeriod mb s
  | .fabEnumerate mb => Sys2Proof.Machine.execFabEnumerate mb s
  | .fabRouteWrite mb => Sys2Proof.Machine.execFabRouteWrite mb s
  | .fabEpochSwitch mb => Sys2Proof.Machine.execFabEpochSwitch mb s
  | .fabStatus mb => Sys2Proof.Machine.execFabStatus mb s
  | .fabRejoin mb => Sys2Proof.Machine.execFabRejoin mb s
  | .chronoExport mb => Sys2Proof.Machine.execChronoExport mb s
  | .chronoClear mb => Sys2Proof.Machine.execChronoClear mb s
  | .chronoInfo mb => Sys2Proof.Machine.execChronoInfo mb s
  | .chronoLimit mb => Sys2Proof.Machine.execChronoLimit mb s
  | .scrub mb => Sys2Proof.Machine.execScrub mb s
  | .selfTest mb => Sys2Proof.Machine.execSelfTest mb s
  | .status mb => Sys2Proof.Machine.execStatus mb s
  | .fenceContext mb => Sys2Proof.Machine.execFenceContext mb s
  | .fenceAll mb => Sys2Proof.Machine.execFenceAll mb s
  | .readCounters mb => Sys2Proof.Machine.execReadCounters mb s
  | .chronoRead mb => Sys2Proof.Machine.execChronoRead mb s
  | .resetFunction mb => Sys2Proof.Machine.execResetFunction mb s
  | .resetDevice mb => Sys2Proof.Machine.execResetDevice mb s
  | .managementCommandArrival words => Sys2Proof.Machine.execManagementCommandArrival words s
  | .alloc desc => Sys2Proof.Machine.execAlloc desc s
  | .free desc => Sys2Proof.Machine.execFree desc s
  | .allocatorRequest ctx => Sys2Proof.Machine.execAllocatorRequest ctx s
  | .evRecordHi val => Sys2Proof.Machine.execEvRecordHi val s
  | .evRecordLo val => Sys2Proof.Machine.execEvRecordLo val s
  | .evAdvance val => Sys2Proof.Machine.execEvAdvance val s
  | .linkedRecordArrival => Sys2Proof.Machine.execLinkedRecordArrival s
  | .tickSample => Sys2Proof.Machine.execTickSample s
  | .periodClose => Sys2Proof.Machine.execPeriodClose s
  | .shortfallWindow cls client received demand => Sys2Proof.Machine.execShortfallWindow cls client received demand s
  | .translationMiss stream ctx va write atomic => Sys2Proof.Machine.execTranslationMiss stream ctx va write atomic s
  | .translationCompletion stream pasid page ok hpa log2 r w n u => Sys2Proof.Machine.execTranslationCompletion stream pasid page ok hpa log2 r w n u s
  | .pageRequest => Sys2Proof.Machine.execPageRequest s
  | .pageRequestResponse stream pasid page code => Sys2Proof.Machine.execPageRequestResponse stream pasid page code s
  | .faultRecordWrite ctx => Sys2Proof.Machine.execFaultRecordWrite ctx s
  | .faultRingHeadWrite val => Sys2Proof.Machine.execFaultRingHeadWrite val s
  | .faultRingResize val => Sys2Proof.Machine.execFaultRingResize val s
  | .invalidateRequest hasPasid pasid base size => Sys2Proof.Machine.execInvalidateRequest hasPasid pasid base size s
  | .flushAll => Sys2Proof.Machine.execFlushAll s
  | .cacheAccess addr host hc write data => Sys2Proof.Machine.execCacheAccess addr host hc write data s
  | .victimEviction slice => Sys2Proof.Machine.execVictimEviction slice s
  | .evictionAcknowledge slice slot => Sys2Proof.Machine.execEvictionAcknowledge slice slot s
  | .hostSnoop addr invalidate => Sys2Proof.Machine.execHostSnoop addr invalidate s
  | .l1EvictionNotice addr host train => Sys2Proof.Machine.execL1EvictionNotice addr host train s
  | .invalidationAcknowledge addr host train crossed => Sys2Proof.Machine.execInvalidationAcknowledge addr host train crossed s
  | .sdEnWrite en => Sys2Proof.Machine.execSdEnWrite en s
  | .hcEnWrite en => Sys2Proof.Machine.execHcEnWrite en s
  | .caWaysWrite val => Sys2Proof.Machine.execCaWaysWrite val s
  | .clean => Sys2Proof.Machine.execClean s
  | .invalidate => Sys2Proof.Machine.execInvalidate s
  | .cleanAndInvalidate => Sys2Proof.Machine.execCleanAndInvalidate s
  | .maintenanceComplete => Sys2Proof.Machine.execMaintenanceComplete s
  | .cacheEccError slice set way kind => Sys2Proof.Machine.execCacheEccError slice set way kind s
  | .compress desc => Sys2Proof.Machine.execCompress desc s
  | .decompress desc => Sys2Proof.Machine.execDecompress desc s
  | .flush desc => Sys2Proof.Machine.execFlush desc s
  | .streamOpenWaitEnd => Sys2Proof.Machine.execStreamOpenWaitEnd s
  | .laneGrant => Sys2Proof.Machine.execLaneGrant s
  | .deflateJobComplete desc => Sys2Proof.Machine.execDeflateJobComplete desc s
  | .laneEccError lane double pass => Sys2Proof.Machine.execLaneEccError lane double pass s
  | .layerUpdate desc => Sys2Proof.Machine.execLayerUpdate desc s
  | .commit desc => Sys2Proof.Machine.execCommit desc s
  | .latch output => Sys2Proof.Machine.execLatch output s
  | .commitComplete output => Sys2Proof.Machine.execCommitComplete output s
  | .blockUnderflow output block => Sys2Proof.Machine.execBlockUnderflow output block s
  | .crSlotWrite slot val => Sys2Proof.Machine.execCrSlotWrite slot val s
  | .crOutCfgWrite output val => Sys2Proof.Machine.execCrOutCfgWrite output val s
  | .streamRecordWrite off val => Sys2Proof.Machine.execStreamRecordWrite off val s
  | .mediaPacketReceive port pk => Sys2Proof.Machine.execMediaPacketReceive port pk s
  | .ingest desc => Sys2Proof.Machine.execIngest desc s
  | .ingestRelease port => Sys2Proof.Machine.execIngestRelease port s
  | .ingestFrameEnd port => Sys2Proof.Machine.execIngestFrameEnd port s
  | .frameDrop port => Sys2Proof.Machine.execFrameDrop port s
  | .packetTransmit output => Sys2Proof.Machine.execPacketTransmit output s
  | .ptpMessage port domain kind accepted offset utc => Sys2Proof.Machine.execPtpMessage port domain kind accepted offset utc s
  | .announceTimeout => Sys2Proof.Machine.execAnnounceTimeout s
  | .holdoverExpiry => Sys2Proof.Machine.execHoldoverExpiry s
  | .rtcUpdate => Sys2Proof.Machine.execRtcUpdate s
  | .frameBoundary gen => Sys2Proof.Machine.execFrameBoundary gen s
  | .generatorCtrlWrite gen val => Sys2Proof.Machine.execGeneratorCtrlWrite gen val s
  | .hotReset => Sys2Proof.Machine.execHotReset s
  | .linkDown => Sys2Proof.Machine.execLinkDown s
  | .flr => Sys2Proof.Machine.execFlr s
  | .d3hotEntry => Sys2Proof.Machine.execD3hotEntry s
  | .d0Return => Sys2Proof.Machine.execD0Return s
  | .laneFail lane => Sys2Proof.Machine.execLaneFail lane s
  | .bar4Access kind off len data => Sys2Proof.Machine.execBar4Access kind off len data s
  | .bar4SlideWrite val => Sys2Proof.Machine.execBar4SlideWrite val s
  | .hdmDecoderCommit dec base size => Sys2Proof.Machine.execHdmDecoderCommit dec base size s
  | .cxlMemAccess hpa write modified data => Sys2Proof.Machine.execCxlMemAccess hpa write modified data s
  | .backInvalidation line => Sys2Proof.Machine.execBackInvalidation line s
  | .msiXMessage vec => Sys2Proof.Machine.execMsiXMessage vec s
  | .vectorUnmask vec => Sys2Proof.Machine.execVectorUnmask vec s
  | .flitReceive port good pkt => Sys2Proof.Machine.execFlitReceive port good pkt s
  | .fabricPortDown port wave => Sys2Proof.Machine.execFabricPortDown port wave s
  | .packetForward port => Sys2Proof.Machine.execPacketForward port s
  | .creditReturn port vc n => Sys2Proof.Machine.execCreditReturn port vc n s
  | .enum port seq rejoin dev peerPort => Sys2Proof.Machine.execEnum port seq rejoin dev peerPort s
  | .switch => Sys2Proof.Machine.execSwitch s
  | .drainMarkerEcho dst vc => Sys2Proof.Machine.execDrainMarkerEcho dst vc s
  | .switchDoneReport dev => Sys2Proof.Machine.execSwitchDoneReport dev s
  | .remoteRequest => Sys2Proof.Machine.execRemoteRequest s
  | .remoteResponse => Sys2Proof.Machine.execRemoteResponse s
  | .heartbeat port => Sys2Proof.Machine.execHeartbeat port s
  | .heartbeatTimeout port => Sys2Proof.Machine.execHeartbeatTimeout port s
  | .lossNotice port mask => Sys2Proof.Machine.execLossNotice port mask s
  | .probe port cand => Sys2Proof.Machine.execProbe port cand s
  | .quorumVote => Sys2Proof.Machine.execQuorumVote s
  | .mcGo val => Sys2Proof.Machine.execMcGo val s
  | .mcResponse words => Sys2Proof.Machine.execMcResponse words s
  | .npwrOkAssert => Sys2Proof.Machine.execNpwrOkAssert s
  | .powerOn rail mv => Sys2Proof.Machine.execPowerOn rail mv s
  | .pinReset => Sys2Proof.Machine.execPinReset s
  | .nresetRelease => Sys2Proof.Machine.execNresetRelease s
  | .nwake level => Sys2Proof.Machine.execNwake level s
  | .nvmWpChange level => Sys2Proof.Machine.execNvmWpChange level s
  | .powerMeasure core sram eighths => Sys2Proof.Machine.execPowerMeasure core sram eighths s
  | .pacingStep => Sys2Proof.Machine.execPacingStep s
  | .thermalEvaluation => Sys2Proof.Machine.execThermalEvaluation s
  | .thermalTrip sensor temp => Sys2Proof.Machine.execThermalTrip sensor temp s
  | .tripEnd => Sys2Proof.Machine.execTripEnd s
  | .thermCfgWrite val => Sys2Proof.Machine.execThermCfgWrite val s
  | .remontoire => Sys2Proof.Machine.execRemontoire s
  | .bringup => Sys2Proof.Machine.execBringup s
  | .bringupStepComplete pass => Sys2Proof.Machine.execBringupStepComplete pass s
  | .rsForget val => Sys2Proof.Machine.execRsForget val s
  | .program => Sys2Proof.Machine.execProgram s
  | .erase => Sys2Proof.Machine.execErase s
  | .nvmWriteComplete => Sys2Proof.Machine.execNvmWriteComplete s
  | .clearCounts val => Sys2Proof.Machine.execClearCounts val s
  | .bkRtcSet val => Sys2Proof.Machine.execBkRtcSet val s
  | .retainedBlockWrite => Sys2Proof.Machine.execRetainedBlockWrite s
  | .functionFence fn source => Sys2Proof.Machine.execFunctionFence fn source s
  | .functionDrainEnd fn => Sys2Proof.Machine.execFunctionDrainEnd fn s
  | .contextDrainEnd ctx => Sys2Proof.Machine.execContextDrainEnd ctx s
  | .deviceCause cause => Sys2Proof.Machine.execDeviceCause cause s
  | .memoryEccError addr double => Sys2Proof.Machine.execMemoryEccError addr double s
  | .lockstepMismatch a b => Sys2Proof.Machine.execLockstepMismatch a b s
  | .checkerSelfTest aOk bOk => Sys2Proof.Machine.execCheckerSelfTest aOk bOk s
  | .regulatorStall => Sys2Proof.Machine.execRegulatorStall s
  | .recovery => Sys2Proof.Machine.execRecovery s
  | .reloadComplete => Sys2Proof.Machine.execReloadComplete s
  | .rmDisagree seq => Sys2Proof.Machine.execRmDisagree seq s
  | .rmFailed => Sys2Proof.Machine.execRmFailed s
  | .chronographRecord code hasCtx ctx fn arg0 arg1 => Sys2Proof.Machine.execChronographRecord code hasCtx ctx fn arg0 arg1 s
  | .permanentProgram => Sys2Proof.Machine.execPermanentProgram s
  | .permanentEraseComplete => Sys2Proof.Machine.execPermanentEraseComplete s
  | .configurationWrite field val => Sys2Proof.Machine.execConfigurationWrite field val s
  | .linkUp lanes width speed => Sys2Proof.Machine.execLinkUp lanes width speed s
  | .mediaLinkDown port => Sys2Proof.Machine.execMediaLinkDown port s
  | .mediaLinkUp port => Sys2Proof.Machine.execMediaLinkUp port s
  | .fabricPortUp port waves peer peerPort => Sys2Proof.Machine.execFabricPortUp port waves peer peerPort s
  | .enumAnswer port role keep path links => Sys2Proof.Machine.execEnumAnswer port role keep path links s
  | .probeAnswer dev cand => Sys2Proof.Machine.execProbeAnswer dev cand s
  | .drainMarker src vc => Sys2Proof.Machine.execDrainMarker src vc s
  | .backInvalidationResponse line => Sys2Proof.Machine.execBackInvalidationResponse line s
  | .functionRestored fn pass => Sys2Proof.Machine.execFunctionRestored fn pass s

end Sys2Proof.Machine
end

