-- ==== Sys2Proof/WellFormed.lean ====
section
/-! DEFINITION. Commands whose operands lie in the ranges the spec gives them: numbers of mailboxes, contexts, rings,
ports and so on, offsets within their window, and codes among those listed. Operands that name an object the part has
made (a descriptor, an operation, a pass, a workgroup) are free: a name that no object has does nothing. -/

namespace Sys2Proof

/-- A command is well formed: every operand is in range. -/
def Instr.wellFormed : Instr → Bool
  | .absentUnitAccess _ off _ => decide (off < 2 ^ 26)
  | .unmappedAccess _ off _ => decide (off < 2 ^ 26)
  | .badWidthWrite off bytes _ => decide (off < 2 ^ 26) && decide (1 ≤ bytes) && decide (bytes ≤ 8)
  | .registerWrite off _ => decide (off < 2 ^ 26) && decide (off % 4 = 0)
  | .rcRegisterRead off => decide (off < 2 ^ 26) && decide (off % 4 = 0)
  | .doorbell ring _ => decide (ring < 1024)
  | .reserve ring => decide (ring < 1024)
  | .descriptorFetch eng => decide (eng < 28)
  | .indirectRead ring => decide (ring < 1024)
  | .descriptorStart ring => decide (ring < 1024)
  | .descriptorComplete _ => true
  | .continuationPush ring => decide (ring < 1024)
  | .nop _ => true
  | .eventWait _ => true
  | .eventRecord _ => true
  | .wheelOp _ => true
  | .operationParameterRead _ => true
  | .networkPassIssue _ => true
  | .gwSelect => true
  | .sliceLoad => true
  | .wavefront fault group => decide (fault < 4) && decide (group < 16)
  | .gwOperationComplete _ => true
  | .patternTest _ => true
  | .spareTestFailure phys => decide (phys < 19)
  | .groupRepair _ => true
  | .forget _ => true
  | .gwRateSample _ => true
  | .modelRegister mb => decide (mb < 16)
  | .modelLoad mb => decide (mb < 16)
  | .modelPin mb => decide (mb < 16)
  | .modelUnpin mb => decide (mb < 16)
  | .modelEvict mb => decide (mb < 16)
  | .modelUnload mb => decide (mb < 16)
  | .modelStatus mb => decide (mb < 16)
  | .barrelQuota mb => decide (mb < 16)
  | .modelLoadDescriptor _ => true
  | .admission => true
  | .holdEndAdmissionResume => true
  | .blockResident => true
  | .loadFailure => true
  | .barrelEccError frame word _ _ _ => decide (frame < 1024) && decide (word < 16384)
  | .barrelShare _ => true
  | .platePartition mb => decide (mb < 16)
  | .granuleRelease ctx => decide (ctx < 256)
  | .plateAccess ctx slot off _ data => decide (ctx < 256) && decide (slot < 3072) && decide (off < 16384) && decide (data.length ≤ 16384)
  | .plateEccError phys word _ _ _ => decide (phys < 3072) && decide (word < 2048)
  | .granuleReplacement ctx => decide (ctx < 256)
  | .plateClaim _ => true
  | .rowRelease _ => true
  | .binPass _ => true
  | .binBatch => true
  | .binnerUnpark _ => true
  | .renderPass _ => true
  | .unitHandout te => decide (te < 12)
  | .tileProcess te => decide (te < 12)
  | .segmentRead _ => true
  | .heapDrain _ => true
  | .renderPassComplete _ => true
  | .dispatch _ => true
  | .workgroupExpansion _ => true
  | .workgroupAdmission train pos => decide (train < 12) && decide (pos < 9)
  | .workgroupSteal train pos => decide (train < 12) && decide (pos < 9)
  | .workgroupEnd _ => true
  | .dispatchComplete _ => true
  | .fadd _ _ => true
  | .fmul _ _ => true
  | .ffma _ _ => true
  | .fmin _ _ => true
  | .fmax _ _ => true
  | .fcmp _ _ => true
  | .frcp _ _ => true
  | .frsq _ _ => true
  | .fexp2 _ _ => true
  | .flog2 _ _ => true
  | .fsin _ _ => true
  | .fcos _ _ => true
  | .fdiv _ _ => true
  | .fsqrt _ _ => true
  | .hadd2 _ _ => true
  | .hmul2 _ _ => true
  | .hfma2 _ _ => true
  | .hmin2 _ _ => true
  | .hmax2 _ _ => true
  | .hcmp2 _ _ => true
  | .iadd _ _ => true
  | .isub _ _ => true
  | .imul _ _ => true
  | .imulhi _ _ => true
  | .imad _ _ => true
  | .iaddsat _ _ => true
  | .isubsat _ _ => true
  | .imin _ _ => true
  | .imax _ _ => true
  | .umin _ _ => true
  | .umax _ _ => true
  | .icmp _ _ => true
  | .ucmp _ _ => true
  | .andBits _ _ => true
  | .orBits _ _ => true
  | .xorBits _ _ => true
  | .shl _ _ => true
  | .shr _ _ => true
  | .sar _ _ => true
  | .popc _ _ => true
  | .clz _ _ => true
  | .iadd2 _ _ => true
  | .iaddi _ _ => true
  | .bfe _ _ => true
  | .cvt _ _ => true
  | .mov _ _ => true
  | .movi _ _ => true
  | .sel _ _ => true
  | .shfl _ _ => true
  | .vote _ _ => true
  | .ddx _ _ => true
  | .ddy _ _ => true
  | .pmov _ _ => true
  | .plop _ _ => true
  | .ld _ _ => true
  | .st _ _ => true
  | .lds _ _ => true
  | .sts _ _ => true
  | .ldc _ _ => true
  | .atom _ _ => true
  | .atoms _ _ => true
  | .fence _ _ => true
  | .pld _ _ => true
  | .pst _ _ => true
  | .rsub _ _ => true
  | .evrec _ _ => true
  | .evwait _ _ => true
  | .evrd _ _ => true
  | .malloc _ _ => true
  | .mfree _ _ => true
  | .bra _ _ => true
  | .call _ _ => true
  | .ret _ _ => true
  | .bar _ _ => true
  | .endLanes _ _ => true
  | .discard _ _ => true
  | .s2r _ _ => true
  | .pinionNop _ _ => true
  | .pinionEccError train pos _ _ => decide (train < 12) && decide (pos < 9)
  | .pinionPatternTest _ => true
  | .pinionRetire train => decide (train < 12)
  | .go mb => decide (mb < 16)
  | .ack mb => decide (mb < 16)
  | .mailboxTake mb => decide (mb < 16)
  | .jobDone job => decide (job < 32)
  | .release job => decide (job < 32)
  | .getInfo mb => decide (mb < 16)
  | .ctxCreate mb => decide (mb < 16)
  | .ctxDestroy mb => decide (mb < 16)
  | .destroyDrainEnd ctx => decide (ctx < 256)
  | .destroyPartitionZeroed ctx => decide (ctx < 256)
  | .ctxQuery mb => decide (mb < 16)
  | .ctxUnfence mb => decide (mb < 16)
  | .ctxWeight mb => decide (mb < 16)
  | .eventAlloc mb => decide (mb < 16)
  | .eventFree mb => decide (mb < 16)
  | .hangPolicy mb => decide (mb < 16)
  | .ringCreate mb => decide (mb < 16)
  | .ringDestroy mb => decide (mb < 16)
  | .ringQuery mb => decide (mb < 16)
  | .resvSet mb => decide (mb < 16)
  | .resvRelease mb => decide (mb < 16)
  | .resvQuery mb => decide (mb < 16)
  | .acctBind mb => decide (mb < 16)
  | .acctRead mb => decide (mb < 16)
  | .acctPeriod mb => decide (mb < 16)
  | .fabEnumerate mb => decide (mb < 16)
  | .fabRouteWrite mb => decide (mb < 16)
  | .fabEpochSwitch mb => decide (mb < 16)
  | .fabStatus mb => decide (mb < 16)
  | .fabRejoin mb => decide (mb < 16)
  | .chronoExport mb => decide (mb < 16)
  | .chronoClear mb => decide (mb < 16)
  | .chronoInfo mb => decide (mb < 16)
  | .chronoLimit mb => decide (mb < 16)
  | .scrub mb => decide (mb < 16)
  | .selfTest mb => decide (mb < 16)
  | .status mb => decide (mb < 16)
  | .fenceContext mb => decide (mb < 16)
  | .fenceAll mb => decide (mb < 16)
  | .readCounters mb => decide (mb < 16)
  | .chronoRead mb => decide (mb < 16)
  | .resetFunction mb => decide (mb < 16)
  | .resetDevice mb => decide (mb < 16)
  | .managementCommandArrival words => decide (words.length ≤ 16)
  | .alloc _ => true
  | .free _ => true
  | .allocatorRequest ctx => decide (ctx < 256)
  | .evRecordHi _ => true
  | .evRecordLo _ => true
  | .evAdvance _ => true
  | .linkedRecordArrival => true
  | .tickSample => true
  | .periodClose => true
  | .shortfallWindow cls _ _ _ => decide (cls < 5)
  | .translationMiss stream ctx va _ _ => decide (stream < 64) && decide (ctx < 256) && decide (va < 2 ^ 64)
  | .translationCompletion stream pasid page _ hpa log2 _ _ _ _ => decide (stream < 64) && decide (pasid < 2 ^ 20) && decide (page < 2 ^ 52) && decide (hpa < 2 ^ 57) && decide (log2 < 64)
  | .pageRequest => true
  | .pageRequestResponse stream pasid page code => decide (stream < 64) && decide (pasid < 2 ^ 20) && decide (page < 2 ^ 52) && decide (code < 16)
  | .faultRecordWrite ctx => decide (ctx < 256)
  | .faultRingHeadWrite _ => true
  | .faultRingResize _ => true
  | .invalidateRequest _ pasid base _ => decide (pasid < 2 ^ 20) && decide (base < 2 ^ 64)
  | .flushAll => true
  | .cacheAccess addr _ _ _ data => decide (addr < 2 ^ 57) && decide (data.length ≤ 128)
  | .victimEviction slice => decide (slice < 16)
  | .evictionAcknowledge slice slot => decide (slice < 16) && decide (slot < 256)
  | .hostSnoop addr _ => decide (addr < 2 ^ 57)
  | .l1EvictionNotice addr _ train => decide (addr < 2 ^ 57) && decide (train < 12)
  | .invalidationAcknowledge addr _ train _ => decide (addr < 2 ^ 57) && decide (train < 12)
  | .sdEnWrite _ => true
  | .hcEnWrite _ => true
  | .caWaysWrite _ => true
  | .clean => true
  | .invalidate => true
  | .cleanAndInvalidate => true
  | .maintenanceComplete => true
  | .cacheEccError slice set way kind => decide (slice < 16) && decide (set < 1024) && decide (way < 16) && decide (kind < 4)
  | .compress _ => true
  | .decompress _ => true
  | .flush _ => true
  | .streamOpenWaitEnd => true
  | .laneGrant => true
  | .deflateJobComplete _ => true
  | .laneEccError lane _ _ => decide (lane < 8)
  | .layerUpdate _ => true
  | .commit _ => true
  | .latch output => decide (output < 4)
  | .commitComplete output => decide (output < 4)
  | .blockUnderflow output _ => decide (output < 4)
  | .crSlotWrite slot _ => decide (slot < 64)
  | .crOutCfgWrite output _ => decide (output < 4)
  | .streamRecordWrite off _ => decide (off < 2 ^ 26) && decide (off % 4 = 0)
  | .mediaPacketReceive port _ => decide (port < 4)
  | .ingest _ => true
  | .ingestRelease port => decide (port < 4)
  | .ingestFrameEnd port => decide (port < 4)
  | .frameDrop port => decide (port < 4)
  | .packetTransmit output => decide (output < 4)
  | .ptpMessage port domain kind _ _ _ => decide (port < 4) && decide (domain < 256) && decide (kind < 2)
  | .announceTimeout => true
  | .holdoverExpiry => true
  | .rtcUpdate => true
  | .frameBoundary gen => decide (gen < 8)
  | .generatorCtrlWrite gen _ => decide (gen < 8)
  | .hotReset => true
  | .linkDown => true
  | .flr => true
  | .d3hotEntry => true
  | .d0Return => true
  | .laneFail lane => decide (lane < 16)
  | .bar4Access kind _ _ _ => decide (kind < 5)
  | .bar4SlideWrite _ => true
  | .hdmDecoderCommit dec _ _ => decide (dec < 2)
  | .cxlMemAccess hpa _ _ data => decide (hpa < 2 ^ 57) && decide (data.length ≤ 64)
  | .backInvalidation line => decide (line < 2 ^ 30)
  | .msiXMessage vec => decide (vec < 8)
  | .vectorUnmask vec => decide (vec < 8)
  | .flitReceive port _ _ => decide (port < 8)
  | .fabricPortDown port _ => decide (port < 8)
  | .packetForward port => decide (port < 8)
  | .creditReturn port vc _ => decide (port < 8) && decide (vc < 4)
  | .enum port _ _ dev peerPort => decide (port < 8) && decide (dev < 64) && decide (peerPort < 8)
  | .switch => true
  | .drainMarkerEcho dst vc => decide (dst < 64) && decide (vc < 4)
  | .switchDoneReport dev => decide (dev < 64)
  | .remoteRequest => true
  | .remoteResponse => true
  | .heartbeat port => decide (port < 8)
  | .heartbeatTimeout port => decide (port < 8)
  | .lossNotice port mask => decide (port < 8) && decide (mask < 2 ^ 64)
  | .probe port cand => decide (port < 8) && decide (cand < 64)
  | .quorumVote => true
  | .mcGo _ => true
  | .mcResponse words => decide (words.length ≤ 16)
  | .npwrOkAssert => true
  | .powerOn rail mv => decide (rail < 6) && decide (mv < 2 ^ 16)
  | .pinReset => true
  | .nresetRelease => true
  | .nwake _ => true
  | .nvmWpChange _ => true
  | .powerMeasure core sram _ => decide (core < 4096) && decide (sram < 4096)
  | .pacingStep => true
  | .thermalEvaluation => true
  | .thermalTrip sensor _ => decide (sensor < 52)
  | .tripEnd => true
  | .thermCfgWrite _ => true
  | .remontoire => true
  | .bringup => true
  | .bringupStepComplete _ => true
  | .rsForget _ => true
  | .program => true
  | .erase => true
  | .nvmWriteComplete => true
  | .clearCounts _ => true
  | .bkRtcSet _ => true
  | .retainedBlockWrite => true
  | .functionFence fn source => decide (fn < 19) && decide (1 ≤ source) && decide (source ≤ 5)
  | .functionDrainEnd fn => decide (fn < 19)
  | .contextDrainEnd ctx => decide (ctx < 256)
  | .deviceCause cause => decide (cause < 5)
  | .memoryEccError addr _ => decide (addr < 96 * 2 ^ 30)
  | .lockstepMismatch _ _ => true
  | .checkerSelfTest _ _ => true
  | .regulatorStall => true
  | .recovery => true
  | .reloadComplete => true
  | .rmDisagree seq => decide (1 ≤ seq) && decide (seq ≤ 3)
  | .rmFailed => true
  | .chronographRecord code _ ctx fn _ _ => decide (code < 256) && decide (ctx < 256) && decide (fn < 256)
  | .permanentProgram => true
  | .permanentEraseComplete => true
  | .configurationWrite field _ => decide (field < 9)
  | .linkUp lanes width speed => decide (lanes < 2 ^ 16) && decide (width < 32) && decide (speed < 8)
  | .mediaLinkDown port => decide (port < 4)
  | .mediaLinkUp port => decide (port < 4)
  | .fabricPortUp port waves peer peerPort => decide (port < 8) && decide (1 ≤ waves) && decide (waves ≤ 4) && decide (peer < 64) && decide (peerPort < 8)
  | .enumAnswer port role keep _ _ => decide (port < 8) && decide (role < 4) && decide (keep ≤ 64)
  | .probeAnswer dev cand => decide (dev < 64) && decide (cand < 64)
  | .drainMarker src vc => decide (src < 64) && decide (vc < 4)
  | .backInvalidationResponse line => decide (line < 2 ^ 30)
  | .functionRestored fn _ => decide (fn < 19)

end Sys2Proof
end

