-- ==== Sys2Proof/Safety.lean ====
section
/-! DEFINITION. What claims about the part are stated in: the invariant of its states. -/

namespace Sys2Proof.Machine

/-- The memories are in canonical form: addresses strictly rising, no byte listed that an unlisted address reads as,
and poisoned lines strictly rising. -/
def MemOk (m : Mem) : Prop :=
  tWf 0 m.dev = true ∧ tWf 0 m.host = true ∧ tWf 0 m.nvm = true ∧ m.poison.Pairwise (· < ·)

/-- The Chronograph keeps within Table CH-1: 4,096 permanent and 16,384 circulating records, 16 held before READY
(R382); no more records durable than there are, and none while an erase runs (R414, R421). -/
def ChOk (c : Chrono) : Prop :=
  c.perm.length ≤ 4096 ∧ c.circ.length ≤ 16384 ∧ c.held.length ≤ 16 ∧ c.durable ≤ c.perm.length ∧
  (c.erasing.isSome = true → c.durable = 0)

/-- The invariant of the part's states: what every step keeps. -/
def Inv (s : State) : Prop := MemOk s.mem ∧ ChOk s.ch

/-- The durable permanent records of one Chronograph stand, in order, at the start of another's (R414). -/
def DurableIn (c d : Chrono) : Prop :=
  c.durable ≤ d.durable ∧ c.perm.take c.durable = d.perm.take c.durable

/-! ### Pinion instructions -/

/-- A beat has issued from `s`: in `t` it stands as `b`, every other beat and workgroup as before, one more
beat-instruction is counted (R172); beyond that only a dispatch's own tick count, the per-train tick counts, the
attribution of ticks (R232) and read data that had arrived for the beat may differ. -/
def Issued (s t : State) (h : Here) (b : Beat) : Prop :=
  (∀ k, wgOf t k = if k = h.id then (wgOf s k).map (fun w => { w with beats := w.beats.set h.bi b }) else wgOf s k) ∧
  getWide t Reg.PN_TICKS_LO = (getWide s Reg.PN_TICKS_LO + 1) % 2 ^ 64 ∧
  t = { s with
    pn := { s.pn with wgs := t.pn.wgs, disps := t.pn.disps }, nl := { s.nl with arrived := t.nl.arrived }
    wide := t.wide, evs := { s.evs with ticked := t.evs.ticked } }

/-- A beat goes on with the next instruction, only its registers changed, as `f` says. -/
def GoesOn (h : Here) (b : Beat) (f : Nat → Nat → Word) : Prop :=
  b = { h.b with pc := h.b.pc + 1, regs := b.regs } ∧ ∀ r l, l < 32 → b.reg r l = f r l

/-- A beat goes on with the next instruction, only its predicates changed: bit `l` of predicate `k` as `f` says. -/
def Decides (h : Here) (b : Beat) (f : Nat → Nat → Bool) : Prop :=
  b = { h.b with pc := h.b.pc + 1, preds := b.preds } ∧ ∀ k l, k < 8 → l < 32 → inMask (b.pred k) l = f k l

/-- The instruction of opcode `op` writes register DST in the guard lanes with `f`, where every register it names
lies below VREGS; no other register, predicate or lane changes. -/
def WritesReg (op : Nat) (c : Nat → Nat → Instr) (rs : Ins → List Nat) (f : State → Here → Nat → Word) : Prop :=
  ∀ (s s1 : State) (wg beat : Nat) (h : Here), fetchIns s wg beat op = .here s1 h → (∀ r ∈ rs h.i, r < h.w.vregs) →
    ∃ t b, exec (c wg beat) s = .next t ∧ Issued s1 t h b ∧
      GoesOn h b (fun r l => if r = h.i.dst ∧ inMask h.g l = true then f s1 h l else h.b.reg r l)

/-- The instruction of opcode `op` writes predicate DST[2:0] in the guard lanes with `f`; a write to P0 is ignored, and
no other predicate, lane or register changes. -/
def WritesPred (op : Nat) (c : Nat → Nat → Instr) (rs : Ins → List Nat) (ok : Ins → Bool) (f : Here → Nat → Bool) : Prop :=
  ∀ (s s1 : State) (wg beat : Nat) (h : Here), fetchIns s wg beat op = .here s1 h → (∀ r ∈ rs h.i, r < h.w.vregs) →
    ok h.i = true → ∃ t b, exec (c wg beat) s = .next t ∧ Issued s1 t h b ∧
      Decides h b (fun k l => if k ≠ 0 ∧ k = h.i.dst % 8 ∧ inMask h.g l = true then f h l else inMask (h.b.pred k) l)

/-- The workgroup ends with an error: no lane yields an output, and its descriptor fails with `code` (R149, R158). -/
def EndsWithError (s t : State) (id code : Nat) : Prop :=
  t = endWgErr s id code ∧
  (∀ w, wgOf s id = some w → ∃ w', wgOf t id = some w' ∧ w'.beats.length = w.beats.length ∧
    ∀ b ∈ w'.beats, b.active = 0 ∧ b.ended = 0 ∧ b.atBar = false ∧ b.waiting = false)

/-- A beat goes on with the next instruction, its registers changed in runs alone: in each lane of `ls` the `k`
registers from `r0` hold the bytes `f` gives for the lane, lowest first, the last register zero-extended. -/
def LoadsRuns (h : Here) (b : Beat) (ls : List Nat) (r0 k : Nat) (f : Nat → List Byte) : Prop :=
  GoesOn h b (fun r l => if l ∈ ls ∧ r0 ≤ r ∧ r < r0 + k then BitVec.ofNat 32 (leAt (f l) (4 * (r - r0)) 4) else h.b.reg r l)

/-! ### Mailboxes, jobs and writes to registers -/

/-- A host write to a register at a BAR0 offset reaches it: BAR0 answers, its unit is present, and the function it
belongs to is ready (R2, R333, R383). -/
def Reaches (s : State) (off : Nat) : Prop :=
  barsOn s = true ∧ absentOff s.fuse.variant off = false ∧ offDead s off = false

/-- Mailbox `mb` is carrying out a request `r` of command `code`. -/
def Asked (s : State) (mb code : Nat) (r : List Word) : Prop :=
  mb ≤ 15 ∧ (mboxOf s mb).st = .running ∧ (mboxOf s mb).taken = r ∧ reqCode r = code ∧ servicing s mb = true

/-- R173, R178, R179: mailbox `mb` shows DONE with a response of Table MB-3, and the completion event of its request is
recorded, flagged where the status is not SUCCESS; nothing else changes. -/
def Answered (s t : State) (mb status job : Nat) (result : List Nat) : Prop :=
  let x := mboxOf s mb
  let words := ([reqTag x.taken * 2 ^ 16 + status, reqCode x.taken * 2 ^ 16 + job * 2 ^ 8 + b2n (decide (mb ≤ 14) && unchecked s),
    x.seq.toNat, 0] ++ result).map (BitVec.ofNat 32)
  ∃ u, t = (if reqEvEn x.taken = true ∧ status ≠ St.ACCEPTED then
      recordEv u (reqEvent x.taken) (.set (status != St.SUCCESS) (wd64 x.taken 2 % 2 ^ 63)) else u) ∧
    mboxOf u mb = { x with st := .done, resp := words ++ List.replicate (16 - words.length) 0 } ∧
    (∀ n, n ≠ mb → mboxOf u n = mboxOf s n) ∧ rbit u Reg.RG_IRQ_MB mb = true ∧
    (∀ off, off ≠ Reg.RG_IRQ_MB → getReg u off = getReg s off) ∧
    u = { s with regs := u.regs, rg := { s.rg with mbox := u.rg.mbox } }

/-- A command goes on to a next state in which its mailbox has been answered, over the state `u` that its effect leaves. -/
def Answers (c : Instr) (s u : State) (mb status : Nat) (result : List Nat) : Prop :=
  ∃ t, exec c s = .next t ∧ Answered u t mb status 0xFF result

/-- R177: a long command takes the lowest free slot for its job and its mailbox is answered ACCEPTED. -/
def TakesJob (s t : State) (mb : Nat) (job : Job) (j : Nat) : Prop :=
  let r := (mboxOf s mb).taken
  freeJob s = some j ∧
  Answered (setJob { s with rg := { s.rg with jobClock := s.rg.jobClock + 1 } } j
    { job with st := .running, code := reqCode r, mbox := mb, tag := reqTag r, unchecked := unchecked s, evEn := reqEvEn r
               ev := reqEvent r, evVal := BitVec.ofNat 64 (wd64 r 2), order := s.rg.jobClock + 1 }) t mb St.ACCEPTED j []

/-! ### Descriptors and accesses of memory -/

/-- R223: the value an event takes from a record, where it accepts one. -/
def Recorded (e e' : Ev) (k : RecKind) : Prop :=
  match k with
  | .set f c => if c < e.count then e' = e else e' = { e with flag := f, count := c }
  | .advance f => if e.count = 2 ^ 63 - 1 then e' = e else e' = { e with flag := f, count := e.count + 1 }
  | .flag => e' = { e with flag := true }

/-- R213, R214: a descriptor with its final status leaves its engine: it is in flight no more, its engine's count of
completions rises, its signal event advances (flagged unless it succeeded, or where its record was lost), its ring's
interrupt bit is set if it asks for it, and its continuation joins the queue of entries to push. -/
def LeavesFlight (s t : State) (id : Nat) (d : Desc) (lost : Bool) : Prop :=
  tfind t.esc.descs id = none ∧
  getWide t (Reg.ESC_ENG_DONE_LO d.eng) = (getWide s (Reg.ESC_ENG_DONE_LO d.eng) + 1) % 2 ^ 64 ∧
  (hSigEn d.bytes = true → evOwned s d.ctx (hSignal d.bytes) = true →
    Recorded (evOf s (hSignal d.bytes)) (evOf t (hSignal d.bytes)) (.advance (d.status != St.SUCCESS || lost))) ∧
  (hSigEn d.bytes = false → t.evs = s.evs ∧ ∀ k, k ≠ id → tfind t.esc.descs k = tfind s.esc.descs k) ∧
  (hIrq d.bytes = true → d.ring < 1024 → rbit t (Reg.ESC_IRQ_RING 0 + 4 * (d.ring / 32)) (d.ring % 32) = true) ∧
  t.esc.contQ = s.esc.contQ ++ (if d.status ≠ St.CTX_FENCED ∧ d.pushOk = true then d.conts.map (fun b =>
    { ctx := d.ctx, ring := hChainRing d.bytes, eng := d.eng, bytes := if d.status = St.SUCCESS then b else markParent b }) else []) ∧
  t.mem = s.mem ∧ t.rg = s.rg ∧ t.gw = s.gw ∧ t.ba = s.ba ∧ t.pl = s.pl ∧ t.pn = s.pn ∧ t.ra = s.ra

/-- The status a descriptor completes with: that of the fence in force, if one is (R188, R397). -/
def finalStatus (s : State) (d : Desc) (st : Nat) : Nat := (fenceStatus s d.ctx d.eng).getD st

/-- Descriptor `id` stands at its engine, with no completion record to write and no wait for remote writes. -/
def AtEngine (s : State) (id op : Nat) (d : Desc) : Prop :=
  tfind s.esc.descs id = some d ∧ d.phase = .started ∧ hOpcode d.bytes = op ∧ d.record = none ∧ sysScopeHeld s d = false

/-- A command completes descriptor `id` with `st`, over the state `u` that its effect leaves. -/
def Completes (c : Instr) (s u : State) (id : Nat) (d : Desc) (st : Nat) : Prop :=
  ∃ t, exec c s = .next t ∧ LeavesFlight u t id { d with phase := .finished, status := finalStatus u d st } false

/-! ### Resets -/

/-- Table BU-2: what a device reset of a source leaves of a state. A power-on or a thermal trip loses device memory;
a power-on loses the records not yet permanent; the backup domain and the host's memory stand. -/
def DeviceCleared (s t : State) (src : Nat) : Prop :=
  t.fns = [] ∧ t.wide = [] ∧ t.ctxs = [] ∧ t.esc = {} ∧ t.evs = {} ∧ t.ca = {} ∧ t.rg = {} ∧ t.df = {} ∧ t.pl = {} ∧ t.ba = {} ∧
  t.gw = {} ∧ t.pn = {} ∧ t.al = {} ∧ t.ra = {} ∧ t.cr = {} ∧ t.mp = {} ∧ t.tu.tlb = [] ∧ t.tu.misses = [] ∧ t.hl.cfgReady = false ∧
  t.hl.snoops = [] ∧ t.mem.host = s.mem.host ∧ (s.bu.nvmOp = none → t.mem.nvm = s.mem.nvm) ∧
  (src = 1 ∨ src = 6 → t.mem.dev = []) ∧ (src ≠ 1 → src ≠ 6 → t.mem.dev = s.mem.dev) ∧
  t.ch.perm = (if src = 1 then s.ch.perm.take s.ch.durable else s.ch.perm) ∧ t.ch.circ = (if src = 1 then [] else s.ch.circ) ∧
  t.ch.durable = s.ch.durable ∧ t.bu.pos = .held ∧ rbit t Reg.GLOBAL_PINS 7 = true ∧
  ∀ off, off ∉ [Reg.RS_CAUSE, Reg.ER_DEVICE, Reg.GLOBAL_PINS, Reg.GLOBAL_THERM_STATUS, Reg.RM_STATUS, Reg.RG_STATUS] →
    getReg t off = regReset s.fuse.variant off

end Sys2Proof.Machine
end

