-- ==== Sys2Proof/Certificates/Slice0/Obligations.lean ====
section
/-! DEFINITION. The statements for the provers. Rules R<n> are those of spec/. -/

open Sys2Proof Sys2Proof.Machine

/-- A step carries out the oldest command that waits, with the queue's rest; on an empty queue one nanosecond of the
timebase passes (the model's choice, assumption log 2). -/
def Obligations.StepTakesTheFrontCommand : Prop :=
  (∀ (s : State) (c : Instr) (rest : List Instr), s.pending = c :: rest → step s = exec c { s with pending := rest }) ∧
  (∀ (s : State), s.pending = [] → ∃ t, step s = .next t ∧ t.time.dev = s.time.dev + 1 ∧ t.pending = [] ∧ t.regs = s.regs ∧ t.mem = s.mem)

/-- R5, R7, R381 and the register maps: after reset the invariant holds, no function is ready, no command waits, no
memory byte is listed, and every register whose reset value neither a fuse nor a load fixes holds that of its map. -/
def Obligations.ResetIsAsTheMapsSay : Prop :=
  Inv State.reset ∧ State.reset.pending = [] ∧ readyMask State.reset = 0 ∧ fencedMask State.reset = 0 ∧ barsOn State.reset = false ∧
  State.reset.ctxs = [] ∧ State.reset.esc.rings = [] ∧ (∀ a, tget 0 State.reset.mem.dev a = 0) ∧
  (∀ off r, regRow off = some r → fuseReset State.reset.fuse.variant off = none → getReg State.reset off = BitVec.ofNat 32 r.reset)

/-- R271 to R275: through the cache's classes, held lines and memory, a byte reads as the last write of its class left
it, and a write leaves every other byte; the memories stay in canonical form. -/
def Obligations.PhysicalMemoryReadsBack : Prop :=
  ∀ (s : State) (hc host : Bool) (a : Nat) (d : List Byte),
    (∀ x, physRd1 (physWr s hc host a d) hc host x = if a ≤ x ∧ x < a + d.length then d.getD (x - a) 0 else physRd1 s hc host x) ∧
    (MemOk s.mem → MemOk (physWr s hc host a d).mem)

/-- Every command completes in every state, whatever its operands, and leaves the fuses and the queue as they are. -/
def Obligations.EveryCommandCompletes : Prop :=
  ∀ (c : Instr) (s : State), ∃ t, exec c s = .next t ∧ t.fuse = s.fuse ∧ t.pending = s.pending

/-- The invariant, that the memories are canonical and the Chronograph keeps within Table CH-1, is kept by every step
from every state that has it. -/
def Obligations.EveryStepKeepsTheInvariant : Prop :=
  ∀ (s t : State), Inv s → step s = .next t → Inv t

/-- R414, R421: a permanent record that is durable stands, at its index, through every command but CHRONO_CLEAR: no
reset, error, erase or other command takes it away. -/
def Obligations.DurableRecordsStand : Prop :=
  ∀ (c : Instr) (s t : State), Inv s → (∀ mb, c ≠ .chronoClear mb) → exec c s = .next t → DurableIn s.ch t.ch

/-- R377: when both the power cap and the thermal state call for pacing, the larger fraction is in force and its
causes are shown; each cause keeps stepping by its own rule. -/
def Obligations.TheLargerFractionIsInForce : Prop :=
  ∀ (s : State), s.pk.capPace ≤ 15 → s.pk.thermPace ≤ 15 → s.bu.tripped = false → rbit s Reg.GLOBAL_PINS 1 = false →
    dieTemp s < 120 → stackTemp s < 105 →
    let shown := fun (t : State) =>
      let p := Nat.max t.pk.capPace t.pk.thermPace
      rfld t Reg.GLOBAL_PWR_STATUS 4 4 = p ∧ (rbit t Reg.GLOBAL_PWR_STATUS 1 = true ↔ 0 < p ∧ t.pk.capPace = p) ∧
      (rbit t Reg.GLOBAL_PWR_STATUS 2 = true ↔ 0 < p ∧ t.pk.thermPace = p) ∧ t.pk.capPace ≤ 15 ∧ t.pk.thermPace ≤ 15
    (isDue s 8 100000 = true → ∃ t, exec .pacingStep s = .next t ∧ shown t ∧ t.pk.thermPace = s.pk.thermPace ∧
      (Nat.max t.pk.capPace t.pk.thermPace < Nat.max s.pk.capPace s.pk.thermPace → t.pk.capPace < s.pk.capPace)) ∧
    (isDue s 9 100000 = true → ∃ t, exec .thermalEvaluation s = .next t ∧ shown t ∧ t.pk.capPace = s.pk.capPace ∧
      (Nat.max t.pk.capPace t.pk.thermPace < Nat.max s.pk.capPace s.pk.thermPace → t.pk.thermPace < s.pk.thermPace))

/-- R2, R3, R6, R9: an access of an absent unit or of an offset of no register reads zero or is discarded, a write
that is narrower than a register or misaligned is discarded; each sets its bit of GLOBAL_STATUS, is counted once, and
its offset is captured while all three bits were clear. Nothing else changes. No register lies from 0x0140_0000 on. -/
def Obligations.AccessesBeyondTheMap : Prop :=
  let faults := fun (s t : State) (off b : Nat) =>
    rbit t Reg.GLOBAL_STATUS b = true ∧
    rfld t Reg.GLOBAL_FAULT_COUNT 0 16 = satTo 65535 (rfld s Reg.GLOBAL_FAULT_COUNT 0 16 + 1) ∧
    (rfld s Reg.GLOBAL_STATUS 0 3 = 0 → getReg t Reg.GLOBAL_FAULT_OFFSET = BitVec.ofNat 32 off) ∧
    (rfld s Reg.GLOBAL_STATUS 0 3 ≠ 0 → getReg t Reg.GLOBAL_FAULT_OFFSET = getReg s Reg.GLOBAL_FAULT_OFFSET) ∧
    (∀ o, o ≠ Reg.GLOBAL_STATUS → o ≠ Reg.GLOBAL_FAULT_COUNT → o ≠ Reg.GLOBAL_FAULT_OFFSET → getReg t o = getReg s o) ∧
    t = { s with regs := t.regs, hl := { s.hl with readData := t.hl.readData, readPoison := t.hl.readPoison } }
  (∀ (s : State) (write : Bool) (off : Nat) (val : Word), barsOn s = true → off < 2 ^ 26 → off % 4 = 0 → absentOff s.fuse.variant off = true →
    ∃ t, exec (.absentUnitAccess write off val) s = .next t ∧ faults s t off 0 ∧ (write = false → t.hl.readData = 0)) ∧
  (∀ (s : State) (write : Bool) (off : Nat) (val : Word), barsOn s = true → off < 2 ^ 26 → off % 4 = 0 →
    absentOff s.fuse.variant off = false → mapped off = false →
    ∃ t, exec (.unmappedAccess write off val) s = .next t ∧ faults s t off 2 ∧ (write = false → t.hl.readData = 0)) ∧
  (∀ (v : Variant) (off : Nat), 0x01400000 ≤ off → absentOff v off = false ∧ mapped off = false) ∧
  (∀ (s : State) (off n : Nat) (val : Dword), barsOn s = true → off < 2 ^ 26 → ¬(n = 4 ∧ off % 4 = 0) → ¬(n = 8 ∧ off % 8 = 0) →
    absentOff s.fuse.variant (off / 4 * 4) = false → mapped (off / 4 * 4) = true → offDead s (off / 4 * 4) = false →
    ∃ t, exec (.badWidthWrite off n val) s = .next t ∧ faults s t off 1)

/-- R7, R8: a write of a register that only holds a value: RW bits take the value written, W1C bits written 1 are
cleared, W1S bits written 1 are set, and every other bit and register stays; a read returns what the register shows
and clears the RC bits it returned. -/
def Obligations.RegisterAccessTypes : Prop :=
  (∀ (s : State) (off : Nat) (val : Word) (r : RegRow), Reaches s off → off < 2 ^ 26 → off % 4 = 0 → noEngine off = false → regRow off = some r →
    off ∉ [Reg.EV_CFG, Reg.EV_LINK, Reg.EV_RECORD_HI, Reg.EV_RECORD_LO, Reg.EV_ADVANCE, Reg.TU_CTRL, Reg.TU_FRING_CFG, Reg.TU_FRING_HEAD,
      Reg.TU_FRING_STATUS, Reg.CA_CLASS_EN, Reg.CA_WAYS, Reg.CA_MAINT_CTRL, Reg.HL_BAR4_SLIDE, Reg.NL_MC_CTRL, Reg.GLOBAL_THERM_CFG,
      Reg.RS_FORGET, Reg.RS_NVM_CTRL, Reg.BK_CTRL, Reg.BK_RTC_SET_LO, Reg.BK_RTC_SET_HI, Reg.GW_REPAIR_CTRL] →
    ¬(0x00101000 ≤ off ∧ off < 0x00102000) → instOf off (Reg.RG_JOB_CTRL 0) 0x20 32 = none → instOf off (Reg.CR_OUT_CFG 0) 0x40 4 = none →
    instOf off (Reg.CR_SLOT 0) 4 64 = none → instOf off (Reg.TM_GEN_CTRL 0) 0x10 8 = none → instOf off (Reg.HL_MSIX 0) 4 32 = none →
    instOf off (Reg.HL_HDM_DPA 0) 4 2 = none → ¬(Reg.TM_GEN_NUM 0 ≤ off ∧ off < Reg.TM_GEN_NUM 8) → ¬(Reg.MP_RXREC 0 ≤ off ∧ off < Reg.MP_TXREC 64) →
    ∃ t, exec (.registerWrite off val) s = .next t ∧
      (∀ i, i < 32 → (getReg t off).getLsbD i =
        if r.w1s.testBit i && val.getLsbD i then true
        else if r.w1c.testBit i && val.getLsbD i then false
        else if r.rw.testBit i then val.getLsbD i else (getReg s off).getLsbD i) ∧
      (∀ o, o ≠ off → getReg t o = getReg s o) ∧
      t = { s with regs := t.regs, hl := { s.hl with vecs := t.hl.vecs }, bu := { s.bu with dirty := t.bu.dirty } }) ∧
  (∀ (s : State) (off : Nat) (r : RegRow), Reaches s off → off < 2 ^ 26 → off % 4 = 0 → noEngine off = false → regRow off = some r →
    r.latch = false → off ≠ Reg.BK_RTC_SEC_LO → off ≠ Reg.TU_FRING_OVF →
    ∃ t, exec (.rcRegisterRead off) s = .next t ∧ t.hl.readData = (showReg s r off).setWidth 64 ∧
      (∀ i, i < 32 → (getReg t off).getLsbD i = if r.rc.testBit i then false else (getReg s off).getLsbD i) ∧
      (∀ o, o ≠ off → getReg t o = getReg s o) ∧
      t = { s with regs := t.regs, hl := { s.hl with readData := t.hl.readData, readPoison := t.hl.readPoison } })

/-- R205 to R207, R215, R217, R211, R212, R428: what moves descriptors: publication by DOORBELL, reservation by
RESERVE, the fetch of the next group of a ring, the reading of an indirect value, the start, and the push of a
continuation. -/
def Obligations.DescriptorsMoveAlong : Prop :=
  (∀ (s : State) (ring : Nat) (val : Word) (x : Ring), barsOn s = true → ringOf s ring = some x →
    ∃ t, exec (.doorbell ring val) s = .next t ∧
      (x.mode = 0 → (x.tail - x.head).toNat ≤ (val - x.head).toNat → (val - x.head).toNat ≤ x.entries →
        ∃ y, ringOf t ring = some y ∧ y.tail = val ∧ y.head = x.head ∧ (val ≠ x.tail → y.pub = val)) ∧
      (x.mode = 0 → ((val - x.head).toNat < (x.tail - x.head).toNat ∨ x.entries < (val - x.head).toNat) →
        rbit t Reg.ESC_ERR 1 = true ∧ ringOf t ring = some x) ∧
      (x.mode = 2 → publishable x val = false → rbit t Reg.ESC_ERR 2 = true ∧ ringOf t ring = some x) ∧
      (x.mode = 2 → publishable x val = true → val ≠ x.pub → x.published.contains x.pub.toNat = false →
        ringOf t ring = some { x with published := x.published ++ [val.toNat] }) ∧
      (x.mode = 2 → publishable x val = true → val = x.pub → x.published.contains (x.pub + 1).toNat = false →
        ∃ y, ringOf t ring = some y ∧ y.pub = x.pub + 1 ∧ y.tail = x.tail ∧ y.head = x.head) ∧
      (x.mode = 1 → rbit t Reg.ESC_ERR 1 = true ∧ ringOf t ring = some x) ∧
      (∀ k, k ≠ ring → ringOf t k = ringOf s k)) ∧
  (∀ (s : State) (ring : Nat), barsOn s = true →
    ∃ t, exec (.reserve ring) s = .next t ∧
      match ringOf s ring with
      | none => t.hl.readData = 0xFFFFFFFE ∧ t = { s with hl := t.hl }
      | some x =>
        if x.mode ≠ 2 then t.hl.readData = 0xFFFFFFFE ∧ t = { s with hl := t.hl }
        else if x.entries ≤ (x.tail - x.head).toNat ∨ 256 ≤ (x.tail - x.pub).toNat then t.hl.readData = 0xFFFFFFFF ∧ t = { s with hl := t.hl }
        else t.hl.readData = x.tail.setWidth 64 ∧ ringOf t ring = some { x with tail := x.tail + 1 } ∧ ∀ k, k ≠ ring → ringOf t k = ringOf s k) ∧
  (∀ (s s' : State) (eng r at_ : Nat) (x : Ring) (ents : List (List Byte)) (m : PageMap),
    fnNotReady s (engFn eng) = false → fnNotReady s Fun.ESCAPEMENTS = false → slotFree s eng = true →
    pickRing s eng = some (r, x, .group at_ ents) → ringOf s r = some x → prepare s (ringWho x r) (groupAccs x ents.length) = .ok s' m →
    ∃ t d y, exec (.descriptorFetch eng) s = .next t ∧ tfind t.esc.descs s.esc.nextDesc = some d ∧ d.ring = r ∧ d.ctx = x.ctx ∧ d.eng = x.eng ∧
      d.index = x.head ∧ d.bytes = ents.headD [] ∧ d.conts = ents.drop 1 ∧ d.phase ≠ .started ∧
      (∀ st, judge s x (ents.headD []) = some st → d.phase = .finished ∧ d.status = st) ∧
      ringOf t r = some y ∧ y.head = x.head + BitVec.ofNat 32 ents.length ∧ t.esc.nextDesc = s.esc.nextDesc + 1) ∧
  (∀ (s s' : State) (ring id off fw vw : Nat) (d : Desc) (m : PageMap), unstarted s ring .reading = some (id, d) →
    nextInd s d = some (off, fw, vw) → leAt d.bytes off fw % vw = 0 → leAt d.bytes off fw < 2 ^ 57 →
    prepare s { stream := 0, ctx := d.ctx, eng := d.eng, ring := some ring } [{ va := leAt d.bytes off fw, len := vw, kind := 0 }] = .ok s' m →
    ∃ t d', exec (.indirectRead ring) s = .next t ∧ tfind t.esc.descs id = some d' ∧
      tfind d'.ind off = some (leNat (vaRd s' true m (leAt d.bytes off fw) vw)) ∧ (∀ k, k ≠ off → tfind d'.ind k = tfind d.ind k) ∧
      (∀ k, k ≠ id → tfind t.esc.descs k = tfind s.esc.descs k)) ∧
  (∀ (s : State) (ring id : Nat) (d : Desc), unstarted s ring .ready = some (id, d) → startable s d = true →
    ∃ t, exec (.descriptorStart ring) s = .next t ∧ tfind t.esc.descs id = some { d with phase := .started } ∧
      (∀ k, k ≠ id → tfind t.esc.descs k = tfind s.esc.descs k) ∧ t = { s with esc := { s.esc with descs := t.esc.descs } }) ∧
  (∀ (s s' : State) (ring : Nat) (q : Cont) (x x' : Ring) (i : Word) (m : PageMap), nextCont s ring = some q → ringOf s ring = some x →
    reserveIn x = some (i, x') → prepare s { stream := 0, ctx := q.ctx, eng := q.eng, ring := some ring } [{ va := entryVa x i, len := 64, kind := 1 }] = .ok s' m →
    ∃ t y, exec (.continuationPush ring) s = .next t ∧ i = x.tail ∧ ringOf t ring = some y ∧ y.tail = x.tail + 1 ∧ y.head = x.head ∧
      t.esc.contQ = popCont ring s.esc.contQ ∧
      t.mem = (vaWr s' true { stream := 0, ctx := q.ctx, eng := q.eng, ring := some ring } m (entryVa x i) q.bytes).mem)

/-- R194, R196, R197, R199, R213, R214, R216: a finished descriptor completes, its record written where it has one;
NOP, EVENT_WAIT and EVENT_RECORD complete as soon as they start; ALLOC and FREE join their context's allocator, or are
refused where it has none; the allocator serves its oldest request. -/
def Obligations.DescriptorsComplete : Prop :=
  (∀ (s : State) (id : Nat) (d : Desc), tfind s.esc.descs id = some d → d.phase = .finished → sysScopeHeld s d = false →
    (d.record = none → ∃ t, exec (.descriptorComplete id) s = .next t ∧ LeavesFlight s t id d false) ∧
    (∀ va b s' m, d.record = some (va, b) →
      prepare s { stream := 0, ctx := d.ctx, eng := d.eng, ring := some d.ring } [{ va := va, len := b.length, kind := 1 }] = .ok s' m →
      ∃ t, exec (.descriptorComplete id) s = .next t ∧ tfind t.esc.descs id = none ∧
        t.mem = (vaWr s' true { stream := 0, ctx := d.ctx, eng := d.eng, ring := some d.ring } m va b).mem)) ∧
  (∀ (s : State) (id : Nat) (d : Desc), AtEngine s id Op.NOP d →
    Completes (.nop id) s s id d (if leAt d.bytes 0x10 0x30 = 0 then St.SUCCESS else St.BAD_OPERAND)) ∧
  (∀ (s : State) (id : Nat) (d : Desc), AtEngine s id Op.EVENT_WAIT d →
    Completes (.eventWait id) s s id d (if evBodyOk d.bytes true = true then St.SUCCESS else St.BAD_OPERAND)) ∧
  (∀ (s : State) (id : Nat) (d : Desc), AtEngine s id Op.EVENT_RECORD d →
    let es := (List.range 3).filterMap (evBodyEntry d.bytes)
    if evBodyOk d.bytes false = false then Completes (.eventRecord id) s s id d St.BAD_OPERAND
    else if ∃ p ∈ es, evOwned s d.ctx p.1 = false then Completes (.eventRecord id) s s id d St.BAD_EVENT
    else ∃ d', tfind (es.foldl (fun s p => recordEv s p.1 (setKind p.2)) s).esc.descs id = some d' ∧ d'.bytes = d.bytes ∧
      Completes (.eventRecord id) s (es.foldl (fun s p => recordEv s p.1 (setKind p.2)) s) id d' St.SUCCESS) ∧
  (∀ (s : State) (id op : Nat) (d : Desc), (op = Op.ALLOC ∨ op = Op.FREE) → AtEngine s id op d → (∀ q ∈ s.al.queue, q.desc ≠ some id) →
    let c : Instr := if op = Op.ALLOC then .alloc id else .free id
    if (ctxOf s d.ctx).mode = 0 then Completes c s s id d St.NO_ALLOCATOR
    else if d.indBad = true ∨ (allocBodyOk d = false ∧ d.indFault = false) then Completes c s s id d St.BAD_OPERAND
    else allocBodyOk d = true → d.indFault = false → exec c s = .next { s with al := { s.al with queue := s.al.queue ++
      [{ ctx := d.ctx, desc := some id, isFree := op == Op.FREE, arg := bodyVal d 0x10 8 }] } }) ∧
  (∀ (s s' : State) (c : Nat) (q : AllocReq) (rest : List AllocReq) (w : Wg) (b : Beat) (va : Nat) (m : PageMap),
    takeReq c s.al.queue = some (q, rest) → fenceStatus s c 2 = none → q.desc = none → q.isFree = false →
    wgOf s q.wg = some w → w.beats[q.beat]? = some b → placeAlloc (ctxOf s c) q.arg = some va →
    let acc := metaAcc (ctxOf s c) va (allocSize q.arg)
    laneMem s (allocWho c (some w.ring)) [(0, acc)] = .go s' m [] →
    ∃ t, exec (.allocatorRequest c) s = .next t ∧ t.al.queue = rest ∧ tfind (ctxOf t c).allocs va = some (allocSize q.arg) ∧
      ∃ w' b', wgOf t q.wg = some w' ∧ w'.beats[q.beat]? = some b' ∧
        (q.lane < 32 → b'.reg q.dst q.lane = BitVec.ofNat 32 va ∧ b'.reg (q.dst + 1) q.lane = BitVec.ofNat 32 (va / 2 ^ 32)))

/-- R222, R223, R227, R239, R232, R247, R248, R254: host records on the selected event, records arriving from a link,
the tick sample, the close of an accounting period and a shortfall window. -/
def Obligations.EventsAndPeriodsAdvance : Prop :=
  (∀ (s : State) (val : Word), Reaches s Reg.EV_RECORD_HI →
    exec (.evRecordHi val) s = .next { s with evs := { s.evs with recHi := val } }) ∧
  (∀ (s : State) (val : Word), Reaches s Reg.EV_RECORD_LO → let e := rfld s Reg.EV_SEL 0 16
    ∃ t, exec (.evRecordLo val) s = .next t ∧
      ((evOf s e).alloc = true → Recorded (evOf s e) (evOf t e) (setKind (s.evs.recHi.toNat * 2 ^ 32 + val.toNat))) ∧
      ((evOf s e).alloc = false → t = s) ∧ (∀ k, k ≠ e → evOf t k = evOf s k)) ∧
  (∀ (s : State) (val : Word), Reaches s Reg.EV_ADVANCE → bit val 0 = true → let e := rfld s Reg.EV_SEL 0 16
    ∃ t, exec (.evAdvance val) s = .next t ∧
      ((evOf s e).alloc = true → Recorded (evOf s e) (evOf t e) (.advance (bit val 1))) ∧
      ((evOf s e).alloc = false → t = s) ∧ (∀ k, k ≠ e → evOf t k = evOf s k)) ∧
  (∀ (s : State) (r : Fwd) (rest : List Fwd), s.evs.fwd = r :: rest →
    ∃ t, exec .linkedRecordArrival s = .next t ∧ (∀ k, k ≠ r.dst → evOf t k = evOf s k) ∧
      (let e := evOf s r.dst
       if e.alloc = true ∧ e.acceptEn = true ∧ e.acceptDev = r.srcDev then Recorded e (evOf t r.dst) r.kind
       else evOf t r.dst = e ∧ rbit t Reg.EV_ERR 1 = true ∧
         rfld t Reg.EV_REMOTE_DROP 0 32 = satTo (2 ^ 32 - 1) (rfld s Reg.EV_REMOTE_DROP 0 32 + 1))) ∧
  (∀ (s : State), rgRunning s = true → isDue s 4 10000000 = true →
    ∃ t, exec .tickSample s = .next t ∧ tget 0 t.time.last 4 = s.time.dev ∧ t.evs.ticked = [] ∧
      ((∀ p ∈ s.ctxs, p.2.st = .free) → t.ctxs = s.ctxs)) ∧
  (∀ (s : State), s.sched.perEnd ≤ s.time.cal →
    ∃ t, exec .periodClose s = .next t ∧ t.sched.clientPrev = s.sched.clientOpen ∧ t.sched.clientOpen = [] ∧
      t.sched.perEnd = periodEnd s.sched.perLen s.sched.perStart s.time.cal ∧
      (∀ p ∈ t.ctxs, p.2.acctOpen = 0 ∧ ∃ q ∈ s.ctxs, q.1 = p.1 ∧ q.2.acctOpen = p.2.acctPrev) ∧
      (∀ q ∈ s.ctxs, q.2.acctOpen ≠ 0 → ∃ p ∈ t.ctxs, p.1 = q.1 ∧ p.2.acctPrev = q.2.acctOpen)) ∧
  (∀ (s : State) (cls client received demand : Nat), isDue s 2 100000 = true →
    let need := Nat.min (clientResv s cls client) demand
    ∃ t, exec (.shortfallWindow cls client received demand) s = .next t ∧ tget 0 t.time.last 2 = s.time.dev ∧
      (received < need → t.sched.step = Nat.min 3 (s.sched.step + 1) ∨ 3 < s.sched.step) ∧
      (need ≤ received → s.sched.step ≠ 0 → s.sched.shortAt + 10000000 ≤ s.time.dev → t.sched.step = s.sched.step - 1) ∧
      (need ≤ received → (s.sched.step = 0 ∨ s.time.dev < s.sched.shortAt + 10000000) → t.sched.step = s.sched.step))

/-- R173 to R177: GO, ACK, the taking of a request, RELEASE. A mailbox that is IDLE or DONE becomes PENDING on GO with
the next sequence number, one that is not only notes the drop; a request is taken by its servicer in turn and is
either carried out or refused at once by checks 1 to 5. -/
def Obligations.MailboxProtocol : Prop :=
  (∀ (s : State) (mb : Nat), mb ≤ 15 → Reaches s (Reg.RG_MB_CTRL mb) →
    let x := mboxOf s mb
    ((x.st = .idle ∨ x.st = .done) → ¬(mb = 15 ∧ s.er.rmFailed = true) → s.er.heldFrozen = false →
      ∃ t, exec (.go mb) s = .next t ∧ mboxOf t mb = { x with st := .pending, resp := [], seq := x.seq + 1, goAt := s.rg.goClock + 1 } ∧
        (∀ n, n ≠ mb → mboxOf t n = mboxOf s n) ∧ t = { s with rg := { s.rg with mbox := t.rg.mbox, goClock := s.rg.goClock + 1 } }) ∧
    ((x.st = .pending ∨ x.st = .running) → ∃ t, exec (.go mb) s = .next t ∧ mboxOf t mb = { x with drop := true } ∧
        (∀ n, n ≠ mb → mboxOf t n = mboxOf s n) ∧ t = { s with rg := { s.rg with mbox := t.rg.mbox } }) ∧
    (∃ t, exec (.ack mb) s = .next t ∧ mboxOf t mb = (if x.st = .done then { x with st := .idle } else { x with drop := true }) ∧
        (∀ n, n ≠ mb → mboxOf t n = mboxOf s n) ∧ t = { s with rg := { s.rg with mbox := t.rg.mbox } })) ∧
  (∀ (s : State) (mb : Nat), mb ≤ 15 → (mboxOf s mb).st = .pending → isNext s mb = true → servicing s mb = true →
    let x := mboxOf s mb
    let u := setMbox s mb { x with st := .running, taken := x.req }
    match checkReq s mb x.req with
    | none => exec (.mailboxTake mb) s = .next u
    | some (st, res) => ∃ t, exec (.mailboxTake mb) s = .next t ∧ Answered u t mb st 0xFF res) ∧
  (∀ (s : State) (j : Nat), j < 32 → Reaches s (Reg.RG_JOB_CTRL j) → (jobOf s j).st = .done →
    ∃ t, exec (.release j) s = .next t ∧ jobOf t j = {} ∧ (∀ k, k ≠ j → jobOf t k = jobOf s k) ∧
      t = { s with rg := { s.rg with jobs := t.rg.jobs } })

/-- R177 to R179: a job whose final status is decided enters DONE with it, sets its interrupt bit, and records its
completion event where it has one; it waits for the older jobs on its object. -/
def Obligations.JobDoneEndsTheJob : Prop :=
  ∀ (s : State) (j st : Nat), let x := jobOf s j
    x.st = .running → (rgRunning s = true ∨ fillJob x = true) → jobBehind s x = false → x.final = some st →
    ∃ u t, exec (.jobDone j) s = .next t ∧
      t = (if x.evEn = true then recordEv u x.ev (.set (st != St.SUCCESS) (x.evVal.toNat % 2 ^ 63)) else u) ∧
      jobOf u j = { x with st := .done, status := st, unchecked := x.unchecked || unchecked s } ∧
      (∀ k, k ≠ j → jobOf u k = jobOf s k) ∧ (j < 32 → rbit u Reg.RG_IRQ_JOBS j = true) ∧
      u = { s with regs := u.regs, rg := { s.rg with jobs := u.rg.jobs } }

/-- Tables MB-5, MB-6, MB-9, R86, R180, R249, R252, R348, R410, R419, R427: the queries answer SUCCESS with what they
ask for, or NOT_FOUND, and change nothing else. -/
def Obligations.QueriesAnswerAndChangeNothing : Prop :=
  (∀ (s : State) (mb : Nat) (r : List Word), Asked s mb Cmd.GET_INFO r → Answers (.getInfo mb) s s mb St.SUCCESS
    [(getReg s Reg.GLOBAL_VARIANT).toNat, (getReg s Reg.GLOBAL_UNITS).toNat, (getReg s Reg.RG_FW_VERSION).toNat,
     0x04000100, 65536, Config.memBytes s.fuse.variant / 2 ^ 20, rfld s Reg.PL_HEALTHY 0 8 * 2 ^ 16 + rfld s Reg.BA_HEALTHY 0 12,
     b2n (unchecked s) * 2 ^ 26 + s.nl.acting * 2 ^ 24 + devNum s * 2 ^ 16 + rfld s Reg.PN_ACTIVE 0 8 * 2 ^ 8 + rfld s Reg.GW_SPARE_USE 15 5,
     calTime s % 2 ^ 32, calTime s / 2 ^ 32 % 2 ^ 32, 0x40001000]) ∧
  (∀ (s : State) (mb : Nat) (r : List Word), Asked s mb Cmd.CTX_QUERY r → let c := wd r 4
    if (ctxOf s c).st = .free then Answers (.ctxQuery mb) s s mb St.NOT_FOUND []
    else Answers (.ctxQuery mb) s s mb St.SUCCESS
      [ctxStCode (ctxOf s c).st + (ctxOf s c).pasid * 2 ^ 12, (s.esc.rings.filter (fun p => p.2.ctx == c)).length,
       ((ctxOf s c).fTail - (ctxOf s c).fHead).toNat % 2 ^ 16 + (s.tu.parked.filter (fun f => f.ctx == c)).length % 128 * 2 ^ 16,
       (ctxOf s c).fSeq.toNat]) ∧
  (∀ (s : State) (mb : Nat) (r : List Word), Asked s mb Cmd.RING_QUERY r → match ringOf s (wd r 4) with
    | none => Answers (.ringQuery mb) s s mb St.NOT_FOUND []
    | some x => Answers (.ringQuery mb) s s mb St.SUCCESS [x.head.toNat, x.tail.toNat, ringState s (wd r 4)]) ∧
  (∀ (s : State) (mb : Nat) (r : List Word), Asked s mb Cmd.MODEL_STATUS r → match modelOf s (wd r 4) with
    | none => Answers (.modelStatus mb) s s mb St.NOT_FOUND []
    | some m => (∀ a ∈ s.ba.queue, a.model ≠ wd r 4) → Answers (.modelStatus mb) s s mb St.SUCCESS
      [(if isResident m = true then 2 else if m.failed = true then 3 else 0) + 4 * b2n m.pinned, m.resident,
       m.count % 2 ^ 32, m.count / 2 ^ 32 % 2 ^ 32]) ∧
  (∀ (s : State) (mb : Nat) (r : List Word), Asked s mb Cmd.RESV_QUERY r →
    let sum := fun c => (s.sched.resv.filter (fun p => p.2.cls == c)).foldl (fun a p => a + p.2.mbs) 0
    Answers (.resvQuery mb) s s mb St.SUCCESS [sum 0, sum 1, sum 2, derated s]) ∧
  (∀ (s : State) (mb : Nat) (r : List Word), Asked s mb Cmd.ACCT_READ r →
    let o := clientCount s s.sched.clientOpen (·.acctOpen) (wd r 4)
    let p := clientCount s s.sched.clientPrev (·.acctPrev) (wd r 4)
    Answers (.acctRead mb) s s mb St.SUCCESS
      [o % 2 ^ 32, o / 2 ^ 32 % 2 ^ 32, p % 2 ^ 32, p / 2 ^ 32 % 2 ^ 32, s.sched.perEnd % 2 ^ 32, s.sched.perEnd / 2 ^ 32 % 2 ^ 32]) ∧
  (∀ (s : State) (mb : Nat) (r : List Word), Asked s mb Cmd.FAB_STATUS r → Answers (.fabStatus mb) s s mb St.SUCCESS
    [devNum s * 2 ^ 8 + s.nl.acting, s.nl.epoch.toNat, (upPorts s).foldl (fun m p => m + 2 ^ p) 0, if s.nl.mgrReach = true then 1 else 0]) ∧
  (∀ (s : State) (mb : Nat) (r : List Word), Asked s mb Cmd.CHRONO_INFO r → Answers (.chronoInfo mb) s s mb St.SUCCESS
    [recCount s false, recCount s true, (circOldest s).toNat]) ∧
  (∀ (s : State) (mb : Nat) (r : List Word), Asked s mb Cmd.CHRONO_READ r →
    let circ := (wd r 4) % 2 == 1
    match recAt s circ (wd r 5) with
    | none => Answers (.chronoRead mb) s s mb St.NOT_FOUND []
    | some x => Answers (.chronoRead mb) s s mb St.SUCCESS (recWords x ++ [recCount s circ])) ∧
  (∀ (s : State) (mb : Nat) (r : List Word), Asked s mb Cmd.STATUS r →
    let drain := (s.ctxs.filter (fun p => (p.2.st == .fenced || p.2.st == .destroying) && decide (0 < ctxInFlight s p.1))).length
    Answers (.status mb) s s mb St.SUCCESS [(getReg s Reg.RG_STATUS).toNat, readyMask s, fencedMask s,
      ctxFencedCount s + drain * 2 ^ 16, calTime s % 2 ^ 32, calTime s / 2 ^ 32 % 2 ^ 32]) ∧
  (∀ (s : State) (mb : Nat) (r : List Word), Asked s mb Cmd.READ_COUNTERS r → Answers (.readCounters mb) s s mb St.SUCCESS
    ((List.range 5).flatMap (fun k => let v := bankAt s (wd r 4) (wd r 5 + k); [v % 2 ^ 32, v / 2 ^ 32 % 2 ^ 32])))

/-- R185 to R190, R193, R233, R241: the commands on contexts. CTX_CREATE of a context without a device heap activates
the next free number at its initial values; CTX_DESTROY fences the context and leaves its stages to a job; CTX_UNFENCE
makes a HALTED context ACTIVE; CTX_WEIGHT and HANG_POLICY set their fields; FENCE_CONTEXT and FENCE_ALL fence. -/
def Obligations.ContextCommandsAct : Prop :=
  (∀ (s : State) (mb : Nat) (r : List Word) (c : Nat), Asked s mb Cmd.CTX_CREATE r → creating s = none → createCheck s r = .ok c → wd r 5 = 0 →
    ∃ u t, exec (.ctxCreate mb) s = .next t ∧ Answered u t mb St.SUCCESS 0xFF [c] ∧
      (ctxOf u c).st = .active ∧ (ctxOf u c).pasid = wd r 4 ∧ (ctxOf u c).quota = wd r 6 ∧ (ctxOf u c).weight = 16 ∧
      (ctxOf u c).hangWin = 2000 ∧ (ctxOf u c).hangFence = false ∧ u.rg.nextCtx = (c + 1) % 256 ∧
      (∀ d, d ≠ c → ctxOf u d = ctxOf s d)) ∧
  (∀ (s : State) (mb : Nat) (r : List Word) (st : Nat), Asked s mb Cmd.CTX_CREATE r → creating s = none → createCheck s r = .error st →
    st ≠ St.SUCCESS ∧ Answers (.ctxCreate mb) s s mb st []) ∧
  (∀ (s : State) (mb : Nat) (r : List Word), Asked s mb Cmd.CTX_DESTROY r → let c := wd r 4
    if (ctxOf s c).st = .free then Answers (.ctxDestroy mb) s s mb St.NOT_FOUND []
    else (∃ j, freeJob s = some j) → (ctxOf s c).st ≠ .destroying →
      ∃ u t j, exec (.ctxDestroy mb) s = .next t ∧ TakesJob u t mb { ctx := some c, obj := c, total := 4, done := 1 } j ∧
        (ctxOf u c).st = .destroying ∧ (ctxOf u c).stage = 2 ∧ ∀ d, d ≠ c → ctxOf u d = ctxOf s d) ∧
  (∀ (s : State) (mb : Nat) (r : List Word), Asked s mb Cmd.CTX_UNFENCE r → let c := wd r 4
    let x := ctxOf s c
    if x.st = .free ∨ x.st = .destroying then Answers (.ctxUnfence mb) s s mb St.NOT_FOUND []
    else if x.st = .fenced ∨ ctxJobBusy s c = true then Answers (.ctxUnfence mb) s s mb St.OBJECT_BUSY []
    else if x.st = .halted then Answers (.ctxUnfence mb) s (setCtx s c { x with st := .active }) mb St.SUCCESS []
    else Answers (.ctxUnfence mb) s s mb St.SUCCESS []) ∧
  (∀ (s : State) (mb : Nat) (r : List Word), let c := wd r 4
    let one := fun (i : Instr) (x : Ctx) =>
      if (ctxOf s c).st = .free then Answers i s s mb St.NOT_FOUND []
      else if ctxJobBusy s c = true then Answers i s s mb St.OBJECT_BUSY []
      else Answers i s (setCtx s c x) mb St.SUCCESS []
    (Asked s mb Cmd.CTX_WEIGHT r → one (.ctxWeight mb) { ctxOf s c with weight := wd r 5 }) ∧
    (Asked s mb Cmd.HANG_POLICY r →
      one (.hangPolicy mb) { ctxOf s c with hangWin := (wd r 5 + 9) / 10 * 10, hangFence := wd r 6 == 1 })) ∧
  (∀ (s : State) (mb : Nat) (r : List Word), Asked s mb Cmd.FENCE_CONTEXT r → let c := wd r 4
    if (ctxOf s c).st = .free then Answers (.fenceContext mb) s s mb St.NOT_FOUND []
    else ∃ u, Answers (.fenceContext mb) s u mb St.SUCCESS [ctxInFlight u c % 65536] ∧ (ctxOf u c).st ≠ .active ∧
      ∀ d, d ≠ c → ctxOf u d = ctxOf s d) ∧
  (∀ (s : State) (mb : Nat) (r : List Word), Asked s mb Cmd.FENCE_ALL r →
    ∃ u, Answers (.fenceAll mb) s u mb St.SUCCESS [allInFlight u % 65536] ∧ ∀ c, (ctxOf u c).st ≠ .active)

/-- R203, R219, R222, R226, R246, R247, R251, R252, R350, R418, R421: the short commands on events, rings,
reservations, accounting, routes and the Chronograph: each changes what it names and answers, or refuses and changes
nothing. -/
def Obligations.ObjectCommandsAct : Prop :=
  (∀ (s : State) (mb : Nat) (r : List Word), Asked s mb Cmd.EVENT_ALLOC r → (ctxOf s (wd r 4)).st = .active →
    match freeRun (wd r 5) 0 s.evs.ev with
    | none => Answers (.eventAlloc mb) s s mb St.EVENTS_FULL []
    | some f => ∃ u, Answers (.eventAlloc mb) s u mb St.SUCCESS [f] ∧
      (∀ e, evOf u e = if f ≤ e ∧ e < f + wd r 5 then { alloc := true, ctx := wd r 4 } else evOf s e) ∧
      u = { s with evs := { s.evs with ev := u.evs.ev } }) ∧
  (∀ (s : State) (mb : Nat) (r : List Word), Asked s mb Cmd.EVENT_FREE r → (ctxOf s (wd r 4)).st ≠ .free →
    (∀ i, i < wd r 6 → evOwned s (wd r 4) (wd r 5 + i) = true) →
    ∃ u, Answers (.eventFree mb) s u mb St.SUCCESS [] ∧
      (∀ e, evOf u e = if wd r 5 ≤ e ∧ e < wd r 5 + wd r 6 then {} else evOf s e) ∧
      (∀ w ∈ u.evs.waits, wd r 5 ≤ w.ev → w.ev < wd r 5 + wd r 6 → w.st ≠ .pending)) ∧
  (∀ (s : State) (mb : Nat) (r : List Word), Asked s mb Cmd.RING_CREATE r → (ctxOf s (wd r 4)).st = .active →
    match nextWrap (fun n => (ringOf s n).isNone) s.esc.nextRing 1024 with
    | none => Answers (.ringCreate mb) s s mb St.RINGS_FULL []
    | some n => ∃ u, Answers (.ringCreate mb) s u mb St.SUCCESS [n] ∧
      (∀ k, ringOf u k = if k = n then some { ctx := wd r 4, eng := wd r 5 % 32, mode := natBits (wd r 5) 8 2, va := wd64 r 6, log2 := Nat.log2 (wd r 8) } else ringOf s k) ∧
      u = { s with esc := { s.esc with rings := u.esc.rings, nextRing := (n + 1) % 1024 } }) ∧
  (∀ (s : State) (mb : Nat) (r : List Word), Asked s mb Cmd.RING_DESTROY r → let n := wd r 4
    if ringOf s n = none then Answers (.ringDestroy mb) s s mb St.NOT_FOUND []
    else if ringBusy s n = true then Answers (.ringDestroy mb) s s mb St.OBJECT_BUSY []
    else ∃ u, Answers (.ringDestroy mb) s u mb St.SUCCESS [] ∧ (∀ k, ringOf u k = if k = n then none else ringOf s k) ∧
      u = { s with esc := { s.esc with rings := u.esc.rings } }) ∧
  (∀ (s : State) (mb : Nat) (r : List Word), Asked s mb Cmd.RESV_SET r →
    match firstFrom (fun i => (tfind s.sched.resv i).isNone) 0 256 with
    | none => Answers (.resvSet mb) s s mb St.RESV_FULL []
    | some i => if derated s * 7 < (resvSum s + wd r 6) * 10 then Answers (.resvSet mb) s s mb St.RESV_OVERCOMMIT []
      else Answers (.resvSet mb) s { s with sched := { s.sched with
        resv := tset s.sched.resv i { cls := wd r 4, client := wd r 5, mbs := wd r 6 } } } mb St.SUCCESS [i]) ∧
  (∀ (s : State) (mb : Nat) (r : List Word), Asked s mb Cmd.RESV_RELEASE r →
    if tfind s.sched.resv (wd r 4) = none then Answers (.resvRelease mb) s s mb St.NOT_FOUND []
    else Answers (.resvRelease mb) s { s with sched := { s.sched with resv := tdel s.sched.resv (wd r 4) } } mb St.SUCCESS []) ∧
  (∀ (s : State) (mb : Nat) (r : List Word), Asked s mb Cmd.ACCT_BIND r → (ctxOf s (wd r 4)).st ≠ .free → ctxJobBusy s (wd r 4) = false →
    ∃ u, Answers (.acctBind mb) s u mb St.SUCCESS [] ∧ (ctxOf u (wd r 4)).client = wd r 5 ∧
      (ctxOf u (wd r 4)).acctOpen = 0 ∧ (ctxOf u (wd r 4)).acctPrev = 0) ∧
  (∀ (s : State) (mb : Nat) (r : List Word), Asked s mb Cmd.ACCT_PERIOD r →
    ∃ u, Answers (.acctPeriod mb) s u mb St.SUCCESS [] ∧ u.sched.perLen = wd r 4 ∧ u.sched.perStart = wd64 r 6 ∧
      u.sched.clientOpen = [] ∧ u.sched.clientPrev = s.sched.clientOpen ∧ u.bu.dirty = true) ∧
  (∀ (s : State) (mb : Nat) (r : List Word), Asked s mb Cmd.FAB_ROUTE_WRITE r →
    if wd r 4 = devNum s then Answers (.fabRouteWrite mb) s s mb St.BAD_ARGUMENT []
    else if fabBusy s = true then Answers (.fabRouteWrite mb) s s mb St.OBJECT_BUSY []
    else Answers (.fabRouteWrite mb) s { s with nl := { s.nl with idle := tset s.nl.idle (wd r 4) (wd r 5) } } mb St.SUCCESS []) ∧
  (∀ (s : State) (mb : Nat) (r : List Word), Asked s mb Cmd.CHRONO_LIMIT r →
    ∃ u, Answers (.chronoLimit mb) s u mb St.SUCCESS [] ∧
      (∀ c, tget {} u.ch.buckets c = if c = wd r 4 then { tget {} s.ch.buckets c with rate := wd r 5, nanoTokens := 16000000000, since := calTime s }
        else tget {} s.ch.buckets c) ∧ u = { s with ch := { s.ch with buckets := u.ch.buckets } }) ∧
  (∀ (s : State) (mb : Nat) (r : List Word), Asked s mb Cmd.CHRONO_CLEAR r → s.ch.erasing = none → ChOk s.ch →
    if exportReads s (wd r 4) = true then Answers (.chronoClear mb) s s mb St.OBJECT_BUSY []
    else if (wd r 4) % 2 = 1 then exec (.chronoClear mb) s = .next { s with ch := { s.ch with
      circ := if (wd r 4) / 2 % 2 = 1 then [] else s.ch.circ, perm := [], durable := 0, erasing := some mb, eraseMask := wd r 4 } }
    else ∃ u, Answers (.chronoClear mb) s u mb St.SUCCESS [] ∧ DurableIn s.ch u.ch)

/-- R83 to R97, R103, R104: the commands on models and partitions. -/
def Obligations.ModelCommandsAct : Prop :=
  (∀ (s : State) (mb : Nat) (r : List Word) (pin : Bool),
    Asked s mb (if pin then Cmd.MODEL_PIN else Cmd.MODEL_LOAD) r → let i := wd r 4
    let c : Instr := if pin then .modelPin mb else .modelLoad mb
    match modelOf s i with
    | none => Answers c s s mb St.NOT_FOUND []
    | some m =>
      if (ctxOf s m.ctx).st ≠ .active then Answers c s s mb St.CTX_FENCED []
      else (pin = true → ctxPinned s m.ctx + (if m.pinned then 0 else m.blocks) ≤ (ctxOf s m.ctx).quota) → (∃ j, freeJob s = some j) →
        ∃ u t j, exec c s = .next t ∧ TakesJob s u mb { ctx := some m.ctx, obj := i, total := m.blocks, done := m.resident } j ∧
          (∃ m', modelOf t i = some m' ∧ m'.pinned = (m.pinned || pin) ∧ m'.resident = m.resident) ∧
          (isResident m = true → (jobOf t j).st = .done ∧ (jobOf t j).status = St.SUCCESS) ∧
          (isResident m = false → ∃ a ∈ t.ba.queue, a.model = i)) ∧
  (∀ (s : State) (mb : Nat) (r : List Word), Asked s mb Cmd.MODEL_UNPIN r → match modelOf s (wd r 4) with
    | none => Answers (.modelUnpin mb) s s mb St.NOT_FOUND []
    | some m => if modelBusy s (wd r 4) = true then Answers (.modelUnpin mb) s s mb St.OBJECT_BUSY []
      else Answers (.modelUnpin mb) s (setModel s (wd r 4) { m with pinned := false }) mb St.SUCCESS []) ∧
  (∀ (s : State) (mb : Nat) (r : List Word), Asked s mb Cmd.MODEL_EVICT r → match modelOf s (wd r 4) with
    | none => Answers (.modelEvict mb) s s mb St.NOT_FOUND []
    | some m => if m.pinned = true then Answers (.modelEvict mb) s s mb St.PINNED []
      else (∃ j, freeJob s = some j) → ∃ t j, exec (.modelEvict mb) s = .next t ∧ TakesJob s t mb { ctx := some m.ctx, obj := wd r 4, total := 1 } j) ∧
  (∀ (s : State) (mb : Nat) (r : List Word), Asked s mb Cmd.MODEL_UNLOAD r → match modelOf s (wd r 4) with
    | none => Answers (.modelUnload mb) s s mb St.NOT_FOUND []
    | some m => (∃ j, freeJob s = some j) → ∃ t j, exec (.modelUnload mb) s = .next t ∧
      TakesJob s t mb { ctx := some m.ctx, obj := wd r 4, total := modelFrames s (wd r 4, m) } j) ∧
  (∀ (s : State) (mb : Nat) (r : List Word), Asked s mb Cmd.BARREL_QUOTA r → let c := wd r 4
    let n := wd r 5
    if (ctxOf s c).st = .free then Answers (.barrelQuota mb) s s mb St.NOT_FOUND []
    else if (ctxOf s c).st = .destroying then Answers (.barrelQuota mb) s s mb St.CTX_FENCED []
    else if healthyFrames s < quotaOthers s c + n then Answers (.barrelQuota mb) s s mb St.QUOTA_OVERCOMMIT []
    else if n < ctxPinned s c then Answers (.barrelQuota mb) s s mb St.QUOTA_PINNED []
    else (∃ j, freeJob s = some j) → ∃ u t j, exec (.barrelQuota mb) s = .next t ∧
      TakesJob s u mb { ctx := some c, obj := c, arg := n, total := ctxFrames s c - n } j ∧ (ctxOf t c).quota = n ∧
      (ctxFrames s c ≤ n → (jobOf t j).st = .done ∧ (jobOf t j).status = St.SUCCESS)) ∧
  (∀ (s : State) (mb : Nat) (r : List Word), Asked s mb Cmd.PLATE_PARTITION r → let c := wd r 4
    let n := wd r 5
    (ctxOf s c).st = .active → backed s c ≤ n → n - backed s c ≤ (freeGrans s).length → (∃ j, freeJob s = some j) →
    ∃ u t j, exec (.platePartition mb) s = .next t ∧
      TakesJob s u mb { ctx := some c, obj := c, arg := n, total := (if backed s c < n then n - backed s c else (ctxOf s c).granules.length - n), done := n - backed s c } j ∧
      backed t c = n) ∧
  (∀ (s s0 s1 : State) (mb : Nat) (r : List Word) (pm pm' : PageMap), Asked s mb Cmd.MODEL_REGISTER r →
    let c := wd r 4
    let va := wd64 r 6
    let w : Who := { stream := 60, ctx := c, eng := 0 }
    (ctxOf s c).st = .active → evOwned s c (wd r 5) = true → va % 64 = 0 →
    prepare s w [{ va := va, len := 64, kind := 0 }] = .ok s0 pm →
    let h := vaRd s0 false pm va 64
    imageOk h = true → natBits (leAt h 4 4) 16 1 = 0 → leAt h 8 4 ≤ Config.frames s.fuse.variant →
    let ops := leAt h 12 4
    let lva := va + leAt h 0x10 8
    prepare s w [{ va := va, len := 64, kind := 0 }, { va := lva, len := 128 * ops, kind := 0 }] = .ok s1 pm' →
    storeUsed s + ops ≤ 65536 →
    ∀ i, nextWrap (fun i => (modelOf s i).isNone) s.ba.nextModel 4096 = some i →
    ∃ t m, exec (.modelRegister mb) s = .next t ∧ modelOf t i = some m ∧ m.ctx = c ∧ m.image = va ∧ m.pbase = wd64 r 8 ∧ m.ev = wd r 5 ∧
      m.blocks = leAt h 8 4 ∧ m.ops = ops ∧ m.list = vaRd s1 false pm' lva (128 * ops) ∧ m.resident = 0 ∧ m.pinned = false ∧
      (mboxOf t mb).st = .done ∧ (∀ k, k ≠ i → modelOf t k = modelOf s k))

/-- R178, R349, R351, R357, R384, R385, R401, R409, R419: the long commands of the fabric, of the Chronograph and of
test and repair take a job; RESET_FUNCTION and RESET_DEVICE act at once. -/
def Obligations.LongCommandsTakeJobs : Prop :=
  (∀ (s : State) (mb : Nat) (r : List Word), s.nl.acting = 1 → (∃ j, freeJob s = some j) →
    let taken := fun (i : Instr) (n : Nat) => ∃ u t j, exec i s = .next t ∧ TakesJob s u mb { total := n } j ∧
      t = if fabBusy s then u else startFabJob u j
    (Asked s mb Cmd.FAB_ENUMERATE r → taken (.fabEnumerate mb) (wd r 4)) ∧
    (Asked s mb Cmd.FAB_EPOCH_SWITCH r → taken (.fabEpochSwitch mb) (reachable s).length) ∧
    (Asked s mb Cmd.FAB_REJOIN r → taken (.fabRejoin mb) s.nl.configured)) ∧
  (∀ (s : State) (mb : Nat) (r : List Word), s.nl.acting ≠ 1 →
    (Asked s mb Cmd.FAB_ENUMERATE r → Answers (.fabEnumerate mb) s s mb St.NOT_MANAGER []) ∧
    (Asked s mb Cmd.FAB_EPOCH_SWITCH r → Answers (.fabEpochSwitch mb) s s mb St.NOT_MANAGER []) ∧
    (Asked s mb Cmd.FAB_REJOIN r → Answers (.fabRejoin mb) s s mb (if s.nl.remoteFenced then St.NO_QUORUM else St.NOT_MANAGER) [])) ∧
  (∀ (s : State) (mb : Nat) (r : List Word), Asked s mb Cmd.CHRONO_EXPORT r → let c := natBits (wd r 4) 8 8
    let circ := (wd r 4) % 2 == 1
    let n := Nat.min (wd r 8) (recCount s circ)
    (ctxOf s c).st = .active → (∃ j, freeJob s = some j) → 0 < n →
    ∃ t j, exec (.chronoExport mb) s = .next t ∧ TakesJob s t mb
      { ctx := some c, obj := b2n circ, arg := wd64 r 6, arg2 := if circ then (circOldest s).toNat else 0, total := n } j) ∧
  (∀ (s : State) (mb : Nat) (r : List Word), Asked s mb Cmd.SCRUB r → let t0 := wd r 4
    let n := if t0 = 0 then wd64 r 8 / 2 ^ 20 else wd64 r 8
    if scrubSize s.fuse.variant t0 < wd64 r 6 + wd64 r 8 then Answers (.scrub mb) s s mb St.BAD_ARGUMENT []
    else (∃ j, freeJob s = some j) → 0 < n →
      ∃ t j, exec (.scrub mb) s = .next t ∧ TakesJob s t mb { obj := t0, arg := wd64 r 6, arg2 := wd64 r 8, total := n } j) ∧
  (∀ (s : State) (mb : Nat) (r : List Word), Asked s mb Cmd.SELF_TEST r → (∃ j, freeJob s = some j) →
    ∃ u t j, exec (.selfTest mb) s = .next t ∧ TakesJob s u mb { obj := wd r 4, total := (maskList (wd r 4) 19).length } j ∧
      (wd r 4 = 0 → (jobOf t j).st = .done ∧ (jobOf t j).status = St.SUCCESS) ∧
      (wd r 4 ≠ 0 → t = testFrom u j 0)) ∧
  (∀ (s : State) (mb : Nat) (r : List Word), Asked s mb Cmd.RESET_FUNCTION r →
    if mb ≤ 14 ∧ s.er.rmFailed = true then Answers (.resetFunction mb) s s mb St.RM_UNAVAILABLE []
    else testJob s (wd r 4) = none → ∃ u, Answered s u mb St.SUCCESS 0xFF [] ∧ exec (.resetFunction mb) s = .next (resetAny u (wd r 4))) ∧
  (∀ (s : State) (mb : Nat) (r : List Word), Asked s mb Cmd.RESET_DEVICE r →
    if mb ≤ 14 ∧ s.er.rmFailed = true then Answers (.resetDevice mb) s s mb St.RM_UNAVAILABLE []
    else ∃ u t, Answered s u mb St.SUCCESS 0xFF [] ∧ exec (.resetDevice mb) s = .next t ∧ t = deviceReset u 5 ∧ t.bu.pos ≠ .done)

/-- R180, R187, R193, R104: a fenced context whose last descriptor has completed is HALTED; a destruction drains,
releases what the context held, and frees its number and its zeroed partition; a management command takes its own
slot. -/
def Obligations.ContextsDrainAndEnd : Prop :=
  (∀ (s : State) (c : Nat), ((ctxOf s c).st = .fenced → ctxInFlight s c = 0 → ∃ t, exec (.contextDrainEnd c) s = .next t ∧
      ctxOf t c = { ctxOf s c with st := .halted } ∧ (∀ k, k ≠ c → ctxOf t k = ctxOf s k) ∧ t = { s with ctxs := t.ctxs, tu := t.tu }) ∧
    ((ctxOf s c).st ≠ .fenced ∨ ctxInFlight s c ≠ 0 → exec (.contextDrainEnd c) s = .next s)) ∧
  (∀ (s : State) (c : Nat), destroyJobs s c ≠ [] → rgRunning s = true → (ctxOf s c).st = .destroying →
    ((ctxOf s c).stage = 2 → ctxDrained s c = true → ∃ t, exec (.destroyDrainEnd c) s = .next t ∧
      ((ctxOf t c).stage = 3 ∨ (ctxOf t c).stage = 4) ∧ (ctxOf t c).st = .destroying ∧ (ctxOf t c).quota = 0 ∧ (ctxOf t c).client = 0 ∧
      (∀ p ∈ t.ba.models, p.2.ctx ≠ c) ∧ (∀ p ∈ t.esc.rings, p.2.ctx ≠ c) ∧ (∀ e, (evOf t e).alloc = true → (evOf t e).ctx ≠ c) ∧
      (∀ r ∈ t.tu.parked, r.ctx ≠ c)) ∧
    ((ctxOf s c).stage = 2 → ctxDrained s c = false → exec (.destroyDrainEnd c) s = .next s) ∧
    ((ctxOf s c).stage = 3 → crWaits s c = false → ∃ t, exec (.destroyDrainEnd c) s = .next t ∧ ctxOf t c = { ctxOf s c with stage := 4 }) ∧
    ((ctxOf s c).stage = 4 → (∀ k ∈ s.pl.claims, k.ctx ≠ c) → ∃ t, exec (.destroyPartitionZeroed c) s = .next t ∧ (ctxOf t c).st = .free ∧
      (∀ k, k ≠ c → ctxOf t k = ctxOf s k) ∧ (∀ p ∈ destroyJobs s c, (jobOf t p.1).final = some St.SUCCESS) ∧
      (∀ g, some g ∈ (ctxOf s c).granules → (granOf t g).owner = 0 ∧ ∀ a, a / 262144 = g → tget 0 t.pl.bytes a = 0) ∧
      (∀ g, some g ∉ (ctxOf s c).granules → granOf t g = granOf s g))) ∧
  (∀ (s : State) (words : List Word), let x := mboxOf s 16
    ((s.nl.member = false ∨ s.nl.mgrReach = false) → exec (.managementCommandArrival words) s = .next s) ∧
    (s.nl.member = true → s.nl.mgrReach = true → s.er.rmFailed = false → (x.st = .idle ∨ x.st = .done) →
      ∃ t, exec (.managementCommandArrival words) s = .next t ∧ mboxOf t 16 =
        { x with st := .pending, req := (words ++ List.replicate 16 0).take 16, seq := x.seq + 1, goAt := s.rg.goClock + 1 } ∧
        (∀ n, n ≠ 16 → mboxOf t n = mboxOf s n) ∧ t = { s with rg := { s.rg with mbox := t.rg.mbox, goClock := s.rg.goClock + 1 } }))

/-- R257 to R265: an access of a page that is not held opens a miss; its completion serves it and is held in the TLB,
or asks for the page, or fails; fault records go to their context's ring; invalidations remove what overlaps. -/
def Obligations.TranslationsAreMade : Prop :=
  (∀ (s : State) (stream c va : Nat) (w a : Bool), (ctxOf s c).st ≠ .free → fnFenced s Fun.TRANSLATION = false →
    let who : Who := { stream := stream, ctx := c, eng := 0 }
    let wr := w || a
    (pageRes s who (va / 4096) wr = .miss → ∃ t m, exec (.translationMiss stream c va w a) s = .next t ∧
      missOf t stream (ctxOf s c).pasid (va / 4096) = some m ∧ m.st = .sent1 ∧ m.va = va ∧ m.ctx = c ∧ m.needW = wr ∧ m.needR = !wr ∧ m.atomic = a ∧
      t.tu.sent = (1, (ctxOf s c).pasid, va / 4096) :: s.tu.sent ∧ t.tu.tlb = s.tu.tlb ∧
      rfld t Reg.TU_TLB_MISSES 0 32 = satTo (2 ^ 32 - 1) (rfld s Reg.TU_TLB_MISSES 0 32 + 1)) ∧
    (∀ h, pageRes s who (va / 4096) wr = .ok h → exec (.translationMiss stream c va w a) s = .next s)) ∧
  (∀ (s : State) (stream pasid page hpa log2 : Nat) (m : Miss) (ok r w n u : Bool), missOf s stream pasid page = some m → (m.st = .sent1 ∨ m.st = .sent2) →
    let granted := (m.needR = true → r = true) ∧ (m.needW = true → w = true)
    ∃ t, exec (.translationCompletion stream pasid page ok hpa log2 r w n u) s = .next t ∧
      (ok = false → missOf t stream pasid page = none ∧ rbit t Reg.TU_ERR 0 = true) ∧
      (ok = true → granted → missOf t stream pasid page = none ∧
        ∃ o ∈ t.tu.once, o.stream = stream ∧ o.ctx = m.ctx ∧ o.page = page ∧
          o.hpa = hpa / 2 ^ (Nat.max 12 log2) * 2 ^ (Nat.max 12 log2) + page * 4096 % 2 ^ (Nat.max 12 log2) ∧
          (u = true ∨ m.inval = true → t.tu.tlb = s.tu.tlb) ∧
          (u = false → m.inval = false → ∃ e ∈ t.tu.tlb, e.pasid = pasid ∧ e.base ≤ page * 4096 ∧ page * 4096 < e.base + 2 ^ e.log2 ∧
            e.hpa + (page * 4096 - e.base) = o.hpa ∧ e.r = r ∧ e.w = w)) ∧
      (ok = true → ¬granted → m.st = .sent1 → priOk s = true → missOf t stream pasid page = some { m with st := .needPage }) ∧
      (ok = true → ¬granted → (m.st = .sent2 ∨ priOk s = false) → missOf t stream pasid page = none ∧
        (streamHeld s stream m.ctx = false → ∃ f ∈ t.tu.recs, f.ctx = m.ctx ∧ f.va = m.va ∧ f.stream = stream ∧
          f.cause = (if m.st = .sent2 then Cause.PERMISSION else Cause.PRI_STOPPED) ∧ f.seq = (ctxOf s m.ctx).fSeq))) ∧
  (∀ (s : State) (m : Miss), priOk s = true → s.tu.misses.find? (fun m => m.st == .needPage) = some m →
    (priOut s < Nat.min 512 s.hl.priAlloc → ∃ t m', exec .pageRequest s = .next t ∧ missOf t m.stream m.pasid m.page = some m' ∧ m'.st = .sentPri ∧
      t.tu.sent = (2, m.pasid, m.page) :: s.tu.sent) ∧
    (Nat.min 512 s.hl.priAlloc ≤ priOut s → exec .pageRequest s = .next s)) ∧
  (∀ (s : State) (stream pasid page code : Nat) (m : Miss), missOf s stream pasid page = some m → m.st = .sentPri →
    ∃ t, exec (.pageRequestResponse stream pasid page code) s = .next t ∧
      (code = 0 → missOf t stream pasid page = some { m with st := .sent2 } ∧ t.tu.sent = (1, pasid, page) :: s.tu.sent) ∧
      (code ≠ 0 → missOf t stream pasid page = none) ∧ (2 ≤ code → t.tu.priStopped = true)) ∧
  (∀ (s : State) (c : Nat) (r : FaultRec), c < 256 → s.tu.recs.find? (fun r => r.ctx == c) = some r →
    let x := ctxOf s c
    ∃ t, exec (.faultRecordWrite c) s = .next t ∧
      (ringFull s c = true → (ctxOf t c).fOverflow = true ∧ (ctxOf t c).fTail = x.fTail ∧ { r with parked := true } ∈ t.tu.parked ∧ t.mem = s.mem) ∧
      (ringFull s c = false → (ctxOf t c).fTail = x.fTail + 1 ∧ (ctxOf t c).fHead = x.fHead ∧
        physRd t true false (ringOffset s c + 32 * (x.fTail.toNat % 2 ^ x.fLog2)) 32 = faultBytes r ∧
        (x.fIrqEn = true → rbit t (Reg.TU_FAULT_CTX (c / 32)) (c % 32) = true ∧ rbit t Reg.TU_IRQ 0 = true))) ∧
  (∀ (s : State) (val : Word), Reaches s Reg.TU_FRING_HEAD → let c := rfld s Reg.TU_CTX_SEL 0 8
    ∃ t, exec (.faultRingHeadWrite val) s = .next t ∧
      (ringCap s c < ((ctxOf s c).fTail - val).toNat → rbit t Reg.TU_ERR 3 = true ∧ t = { s with regs := t.regs }) ∧
      (((ctxOf s c).fTail - val).toNat ≤ ringCap s c → (ctxOf t c).fHead = val ∧ ∀ k, k ≠ c → (ctxOf t k).fHead = (ctxOf s k).fHead)) ∧
  (∀ (s : State) (val : Word), Reaches s Reg.TU_FRING_CFG → let c := rfld s Reg.TU_CTX_SEL 0 8
    let n := bits val 0 4
    let u := setCtx s c { ctxOf s c with fIrqEn := bit val 4 }
    ∃ t, exec (.faultRingResize val) s = .next t ∧ (ctxOf t c).fIrqEn = bit val 4 ∧
      ((n < 6 ∨ 14 < n) → rbit t Reg.TU_ERR 2 = true ∧ (ctxOf t c).fLog2 = (ctxOf s c).fLog2) ∧
      (6 ≤ n → n ≤ 14 → ringEmpty s c = false → rbit t Reg.TU_ERR 1 = true ∧ (ctxOf t c).fLog2 = (ctxOf s c).fLog2) ∧
      (6 ≤ n → n ≤ 14 → ringEmpty s c = true → n ≠ (ctxOf s c).fLog2 → ∀ v, resizeRing u c n = some v →
        t = v ∧ (ctxOf t c).fLog2 = n ∧ (ctxOf t c).fHead = (ctxOf s c).fHead) ∧
      (6 ≤ n → n ≤ 14 → ringEmpty s c = true → n ≠ (ctxOf s c).fLog2 → resizeRing u c n = none → rbit t Reg.TU_ERR 2 = true)) ∧
  (∀ (s : State) (has : Bool) (pasid base size : Nat), ∃ t, exec (.invalidateRequest has pasid base size) s = .next t ∧
    (∀ e, e ∈ t.tu.tlb ↔ e ∈ s.tu.tlb ∧ ¬((has = false ∨ e.pasid = pasid) ∧ e.base < base + size ∧ base < e.base + 2 ^ e.log2)) ∧
    t.tu.sent = (3, pasid, base / 4096) :: s.tu.sent ∧ t.mem = s.mem ∧
    rfld t Reg.TU_INVALIDATIONS 0 32 = satTo (2 ^ 32 - 1) (rfld s Reg.TU_INVALIDATIONS 0 32 + 1)) ∧
  (∀ (s : State), Reaches s Reg.TU_CTRL → ∃ t, exec .flushAll s = .next t ∧ (∀ e ∈ t.tu.tlb, 2 ^ 64 ≤ e.base) ∧ t = { s with tu := t.tu })

/-- R372 to R377: the power average and cap, pacing, the thermal states of Table PK-9 with their hysteresis, and the
pins nWAKE and NVM_WP. -/
def Obligations.PowerAndThermalStatesFollow : Prop :=
  (∀ (s : State) (core sram w : Nat), isDue s 7 10000 = true → rbit s Reg.GLOBAL_PINS 1 = false →
    ∃ t, exec (.powerMeasure core sram w) s = .next t ∧ t.pk.samples = (w :: s.pk.samples).take 100 ∧
      rfld t Reg.GLOBAL_PWR_NOW 0 16 = satTo 0xFFFF (((w :: s.pk.samples).take 100).foldl (· + ·) 0 / ((w :: s.pk.samples).take 100).length) ∧
      rfld t Reg.GLOBAL_VCORE 0 12 = core % 4096 ∧ rfld t Reg.GLOBAL_VCORE 16 12 = sram % 4096 ∧ rbit t Reg.GLOBAL_PWR_STATUS 0 = true ∧
      tget 0 t.time.last 7 = s.time.dev) ∧
  (∀ (s : State), isDue s 8 100000 = true →
    let cap := 8 * capWatts s
    let now := rfld s Reg.GLOBAL_PWR_NOW 0 16
    let p := s.pk.capPace
    ∃ t, exec .pacingStep s = .next t ∧ tget 0 t.time.last 8 = s.time.dev ∧ (cap = 0 → t.pk.capPace = 0) ∧
      (0 < cap → cap < now → t.pk.capPace = Nat.min 15 (p + 1)) ∧
      (0 < cap → now * 100 < cap * 98 → t.pk.capPace = p - 1) ∧ (0 < cap → now ≤ cap → cap * 98 ≤ now * 100 → t.pk.capPace = p) ∧
      rbit t Reg.GLOBAL_PWR_STATUS 3 = (decide (0 < cap) && decide (cap < now) && p == 15) ∧
      (p = 0 → 0 < cap → cap < now → rbit t Reg.GLOBAL_PK_EVENTS 3 = true) ∧
      rfld t Reg.GLOBAL_PWR_STATUS 4 4 = Nat.max t.pk.capPace s.pk.thermPace % 16) ∧
  (∀ (s : State), isDue s 9 100000 = true → rbit s Reg.GLOBAL_PINS 1 = false → s.bu.tripped = false →
    let tj := dieTemp s
    let ts := stackTemp s
    let hot : Int := rfld s Reg.GLOBAL_THERM_CFG 8 8
    let warn : Int := rfld s Reg.GLOBAL_THERM_CFG 0 8
    let st := rfld s Reg.GLOBAL_THERM_STATUS 0 2
    (120 ≤ tj ∨ 105 ≤ ts → ∃ t, exec .thermalEvaluation s = .next t ∧ DeviceCleared s t 6 ∧ t.bu.tripped = true) ∧
    (tj < 120 → ts < 105 → ∃ t, exec .thermalEvaluation s = .next t ∧
      rfld t Reg.GLOBAL_TEMP 0 8 = (BitVec.ofInt 8 tj).toNat ∧ rfld t Reg.GLOBAL_TEMP 8 8 = (BitVec.ofInt 8 ts).toNat ∧
      (hot ≤ tj ∨ 95 ≤ ts → rfld t Reg.GLOBAL_THERM_STATUS 0 2 = 2 ∧ rbit t Reg.GLOBAL_PINS 6 = false ∧ t.pk.thermPace = Nat.min 15 (s.pk.thermPace + 1) ∧
        (st ≠ 2 → rbit t Reg.GLOBAL_PK_EVENTS 2 = true)) ∧
      (tj < hot - 3 → ts < 92 → t.pk.thermPace = s.pk.thermPace - 1) ∧
      (st = 2 → tj < hot → ts < 95 → (hot - 3 ≤ tj ∨ 92 ≤ ts) → rfld t Reg.GLOBAL_THERM_STATUS 0 2 = 2 ∧ t.pk.thermPace = s.pk.thermPace) ∧
      (st ≠ 2 → tj < hot → ts < 95 → warn ≤ tj → rfld t Reg.GLOBAL_THERM_STATUS 0 2 = 1 ∧ rbit t Reg.GLOBAL_PINS 6 = false ∧
        (st ≠ 1 → rbit t Reg.GLOBAL_PK_EVENTS 1 = true)) ∧
      (tj < hot - 3 → ts < 92 → tj < warn - 3 → rfld t Reg.GLOBAL_THERM_STATUS 0 2 = 0 ∧ rbit t Reg.GLOBAL_PINS 6 = true) ∧
      rfld t Reg.GLOBAL_PWR_STATUS 4 4 = Nat.max s.pk.capPace t.pk.thermPace % 16)) ∧
  (∀ (s : State) (val : Word), Reaches s Reg.GLOBAL_THERM_CFG →
    let warn := bits val 0 8
    let hot := bits val 8 8
    let ok := 60 ≤ warn ∧ warn ≤ 110 ∧ 70 ≤ hot ∧ hot ≤ 115 ∧ warn ≤ hot
    ∃ t, exec (.thermCfgWrite val) s = .next t ∧
      (ok → rfld t Reg.GLOBAL_THERM_CFG 0 8 = warn ∧ rfld t Reg.GLOBAL_THERM_CFG 8 8 = hot ∧ t.bu.dirty = true) ∧
      (¬ok → getReg t Reg.GLOBAL_THERM_CFG = getReg s Reg.GLOBAL_THERM_CFG ∧ rbit t Reg.GLOBAL_PK_EVENTS 5 = true)) ∧
  (∀ (s : State) (level : Bool),
    (∃ t, exec (.nwake level) s = .next t ∧ rbit t Reg.GLOBAL_PINS 2 = level ∧ (level = false → rbit t Reg.GLOBAL_PK_EVENTS 0 = true ∧ t.hl.l1 = false)) ∧
    (∃ t, exec (.nvmWpChange level) s = .next t ∧ rbit t Reg.GLOBAL_PINS 3 = level ∧ (∀ i, i ≠ 3 → rbit t Reg.GLOBAL_PINS i = rbit s Reg.GLOBAL_PINS i) ∧
      t.bu.nvmOp = s.bu.nvmOp))

/-- R363 to R367, R376, R380, R405, Table BU-2: the resets of the whole device, by a rail, a pin, a trip or the
Remontoire, with what each clears and keeps, and the ends of those that hold bring-up. -/
def Obligations.ResetsClearTheDevice : Prop :=
  (∀ (s : State) (rail mv : Nat),
    (5 ≤ rail → ∃ t, exec (.powerOn rail mv) s = .next t ∧ DeviceCleared s t 1 ∧ rbit t Reg.GLOBAL_PINS 1 = true ∧ t.bu.uncounted = true) ∧
    (rail < 4 → rbit s Reg.GLOBAL_PINS 1 = false → mv < [550, 820, 1030, 1650].getD rail 0 →
      ∃ t, exec (.powerOn rail mv) s = .next t ∧ DeviceCleared s t 1 ∧ t.pk.railsMv = s.pk.railsMv.set rail mv) ∧
    (rail < 5 → rail = 4 ∨ rbit s Reg.GLOBAL_PINS 1 = true ∨ [550, 820, 1030, 1650].getD rail 0 ≤ mv →
      ∃ t, exec (.powerOn rail mv) s = .next t ∧ t.pk.railsMv = s.pk.railsMv.set rail mv ∧ t = { s with pk := t.pk, bu := t.bu } ∧
        ((t.pk.railsMv.getD 3 0 < 1746 ∨ 1854 < t.pk.railsMv.getD 3 0) → t.pk.railsMv.getD 4 0 < 1500 → t.bu.backup.lost = true))) ∧
  (∀ (s : State), ∃ t, exec .pinReset s = .next t ∧ DeviceCleared s t 2 ∧ rbit t Reg.GLOBAL_PINS 0 = false ∧ rfld t Reg.RS_CAUSE 0 4 = 2 ∧
    rbit t Reg.RS_CAUSE 17 = true ∧ t.bu.backup.total = satTo 0xFFFFFFFF (s.bu.backup.total + 1)) ∧
  (∀ (s : State), (s.er.wantReset = true → s.er.rmFailed = false → ∃ t, exec .remontoire s = .next t ∧ DeviceCleared s t 7 ∧ rfld t Reg.RS_CAUSE 0 4 = 7) ∧
    (s.er.wantReset = false ∨ s.er.rmFailed = true → exec .remontoire s = .next s)) ∧
  (∀ (s : State) (sensor : Nat) (temp : Int), (sensors s).contains sensor = true →
    let trip := s.bu.tripped = false ∧ (if sensor < 48 then 120 ≤ temp else 105 ≤ temp)
    ∃ t, exec (.thermalTrip sensor temp) s = .next t ∧ tempOf t sensor = temp ∧ (∀ k, k ≠ sensor → tempOf t k = tempOf s k) ∧
      (trip → DeviceCleared s t 6 ∧ t.bu.tripped = true ∧ t.bu.backup.trip = some (temp, sensor, calTime s) ∧
        rfld t Reg.GLOBAL_THERM_STATUS 0 2 = 3 ∧ rfld t Reg.RS_CAUSE 0 4 = 6) ∧
      (¬trip → t = { s with pk := t.pk })) ∧
  (∀ (s : State), s.bu.pos = .held →
    (mayStart s = true → ∃ t, exec .bringup s = .next t ∧ t.bu.pos = .step 1 ∧ t.bu.flr = false ∧ t.bu.startedAt = s.time.dev) ∧
    (mayStart s = false → exec .bringup s = .next s) ∧
    (∃ t, exec .npwrOkAssert s = .next t ∧ rbit t Reg.GLOBAL_PINS 1 = false ∧
      (t.bu.pos = .step 1 ↔ rbit s Reg.GLOBAL_PINS 0 = true ∧ s.bu.tripped = false)) ∧
    (∃ t, exec .nresetRelease s = .next t ∧ rbit t Reg.GLOBAL_PINS 0 = true ∧
      (t.bu.pos = .step 1 ↔ rbit s Reg.GLOBAL_PINS 1 = false ∧ s.bu.tripped = false)) ∧
    (s.bu.tripped = true → (∀ i ∈ sensors s, tempOf s i ≤ 90) → ∃ t, exec .tripEnd s = .next t ∧ t.bu.tripped = false ∧
      rfld t Reg.GLOBAL_THERM_STATUS 0 2 = 0 ∧ (t.bu.pos = .step 1 ↔ rbit s Reg.GLOBAL_PINS 1 = false ∧ rbit s Reg.GLOBAL_PINS 0 = true)))

/-- R382, R386 to R391: bring-up reads the option bytes and the backup domain, starts the Remontoire, memory and the
firmware image, tests each function, and is complete once each is ready or recorded as failed. -/
def Obligations.BringUpTakesItsSteps : Prop :=
  ∀ (s : State) (pass : Bool), mayStart s = true →
    (s.bu.pos = .step 1 → ∃ t, exec (.bringupStepComplete pass) s = .next t ∧ t.bu.pos = .step 2 ∧
      (∀ b, optionBytes s = some b → rbit t Reg.RS_STATUS 2 = false ∧ ∀ k, k < 64 → getReg t (Reg.RS_OPT k) = BitVec.ofNat 32 (leAt b (4 * k) 4)) ∧
      (optionBytes s = none → rbit t Reg.RS_STATUS 2 = true) ∧
      (s.bu.backup.lost = true → rfld t Reg.RS_CAUSE 0 4 = 8 ∧ t.bu.backup.total = 1 ∧ rbit t Reg.RS_STATUS 3 = true) ∧
      (s.bu.backup.lost = false → s.bu.uncounted = true → rfld t Reg.RS_CAUSE 0 4 = 1 ∧ t.bu.backup.total = satTo 0xFFFFFFFF (s.bu.backup.total + 1)) ∧
      (s.bu.backup.lost = false → chooseCopy s.bu.backup = none → rbit t Reg.RS_STATUS 4 = true) ∧
      (∀ b, s.bu.backup.lost = false → chooseCopy s.bu.backup = some b → optNoRestore t = false →
        let c := if b = true then s.bu.backup.copyB else s.bu.backup.copyA
        (∀ p ∈ settingRegs.zip c.settings, getReg t p.1 = p.2) ∧ t.sched.perLen = c.acctLen ∧ rbit t Reg.RS_STATUS 5 = true)) ∧
    (s.bu.pos = .step 2 → exec (.bringupStepComplete pass) s = .next { s with bu := { s.bu with pos := .step 30 } }) ∧
    (s.bu.pos = .step 30 → s.bu.flr = false → ∃ t, exec (.bringupStepComplete pass) s = .next t ∧ t.bu.pos = .step 4 ∧
      (pass = true → (fnOf t Fun.REMONTOIRE).ready = true ∧ t.er = s.er) ∧
      (pass = false → t.er.rmFailed = true ∧ rbit t Reg.ER_DEVICE 0 = true ∧ rbit t Reg.RS_FAILED Fun.REMONTOIRE = true)) ∧
    (s.bu.pos = .step 4 → ∃ t, exec (.bringupStepComplete pass) s = .next t ∧ t.bu.pos = .step 5 ∧ (fnOf t Fun.MEMORY).ready = true ∧
      (∀ a, a < 2 ^ 26 → tget 0 t.mem.dev a = 0) ∧ (pass = true → (fnOf t Fun.SYSTEM_CACHE).ready = true) ∧
      (pass = false → rbit t Reg.RS_FAILED Fun.SYSTEM_CACHE = true)) ∧
    (s.bu.pos = .step 5 →
      (∀ alt fb img, chooseImage s = some (alt, fb, img) → ∃ t, exec (.bringupStepComplete pass) s = .next t ∧ t.bu.pos = .fn 5 ∧
        (fnOf t Fun.REGULATOR).ready = true ∧ rfld t Reg.RG_STATUS 0 2 = 1 ∧ rbit t Reg.RS_STATUS 7 = alt ∧ rbit t Reg.RS_STATUS 6 = fb ∧
        (∀ i, i < img.length → tget 0 t.mem.dev (0x00800000 + i) = img.getD i 0) ∧ rbit t Reg.ER_DEVICE 1 = false) ∧
      (chooseImage s = none → ∃ t, exec (.bringupStepComplete pass) s = .next t ∧ t.bu.pos = .step 6 ∧ rbit t Reg.RS_STATUS 8 = true ∧
        rbit t Reg.ER_DEVICE 1 = true)) ∧
    (∀ n, s.bu.pos = .fn n → n < 19 → ∃ t, exec (.bringupStepComplete pass) s = .next t ∧
      (pass = true → (fnOf t n).ready = true ∧ (fnOf t n).st = .up ∧ rbit t Reg.RS_FAILED n = false) ∧
      (pass = false → rbit t Reg.RS_FAILED n = true) ∧ (nextFn s n ≠ 19 → t.bu.pos = .fn (nextFn s n)) ∧
      (nextFn s n = 19 → (∀ k, k < 19 → k ≠ n → present s k = true → (fnOf s k).ready = true ∨ rbit s Reg.RS_FAILED k = true) →
        t.bu.pos = .done ∧ rbit t Reg.RS_STATUS 0 = true))

/-- R386, R389 to R391, R393: the NVM window, the backup domain's counts and clock, the retained settings block and
the forgetting of repair history. -/
def Obligations.RetainedStateIsWritten : Prop :=
  (∀ (s : State), Reaches s Reg.RS_NVM_CTRL →
    let page := rfld s Reg.RS_NVM_ADDR 8 16 * 256
    let busy := rbit s Reg.GLOBAL_PINS 3 = true ∨ s.bu.nvmOp ≠ none
    (busy → ∃ t, exec .program s = .next t ∧ rbit t Reg.RS_NVM_STATUS 2 = true ∧ t = { s with regs := t.regs }) ∧
    (busy → ∃ t, exec .erase s = .next t ∧ rbit t Reg.RS_NVM_STATUS 2 = true ∧ t = { s with regs := t.regs }) ∧
    (¬busy → ∃ t d, exec .program s = .next t ∧ t.bu.nvmOp = some (false, page, d) ∧ d.length = 256 ∧
      (∀ i, i < 64 → leAt d (4 * i) 4 = (getReg s (Reg.RS_NVM_DATA i)).toNat) ∧ rbit t Reg.RS_NVM_STATUS 0 = true ∧ t.mem = s.mem) ∧
    (¬busy → ∃ t, exec .erase s = .next t ∧ t.bu.nvmOp = some (true, page / 65536 * 65536, []) ∧ rbit t Reg.RS_NVM_STATUS 0 = true ∧ t.mem = s.mem)) ∧
  (∀ (s : State) (er : Bool) (addr : Nat) (d : List Byte), s.bu.nvmOp = some (er, addr, d) →
    ∃ t, exec .nvmWriteComplete s = .next t ∧ t.bu.nvmOp = none ∧ rbit t Reg.RS_NVM_STATUS 0 = false ∧ rbit t Reg.RS_NVM_STATUS 1 = true ∧
      t.mem.dev = s.mem.dev ∧ t.mem.host = s.mem.host ∧
      ∀ a, tget 0 t.mem.nvm a =
        if er = true then (if addr ≤ a ∧ a < addr + 65536 then 0 else tget 0 s.mem.nvm a)
        else if addr ≤ a ∧ a < addr + d.length then d.getD (a - addr) 0 else tget 0 s.mem.nvm a) ∧
  (∀ (s : State) (val : Word), Reaches s Reg.BK_CTRL →
    (bits val 16 16 = 0x434C → bit val 0 = true → exec (.clearCounts val) s =
      .next { s with bu := { s.bu with backup := { s.bu.backup with total := 0, counts := [] } } }) ∧
    (bits val 16 16 ≠ 0x434C ∨ bit val 0 = false → exec (.clearCounts val) s = .next s)) ∧
  (∀ (s : State) (val : Word), Reaches s Reg.BK_RTC_SET_LO →
    let ns := (s.bu.backup.rtcSetHi.toNat * 2 ^ 32 + val.toNat) * 1000000000
    ∃ t, exec (.bkRtcSet val) s = .next t ∧ t.bu.backup.rtcNs = ns ∧ (tmState s = 0 → t.time.cal = ns ∧ rbit t Reg.TM_STATUS 2 = true) ∧
      (tmState s ≠ 0 → t.time = s.time)) ∧
  (∀ (s : State), (s.bu.dirty = true → rgRunning s = true → ∃ t, exec .retainedBlockWrite s = .next t ∧ t.bu.dirty = false ∧
      (curCopy t).valid = true ∧ (curCopy t).seq = (curCopy s).seq + 1 ∧ (curCopy t).settings = settingRegs.map (getReg s) ∧
      (if t.bu.backup.useB = true then t.bu.backup.copyA else t.bu.backup.copyB) = curCopy s ∧ t.bu.backup.useB = !s.bu.backup.useB) ∧
    (s.bu.dirty = false ∨ rgRunning s = false → exec .retainedBlockWrite s = .next s)) ∧
  (∀ (s : State) (val : Word), Reaches s Reg.RS_FORGET →
    (bits val 16 16 ≠ 0x4647 → exec (.rsForget val) s = .next s) ∧
    (bits val 16 16 = 0x4647 → ∃ t, exec (.rsForget val) s = .next t ∧
      (∀ u, u < 5 → bit val u = true → u ≠ 0 ∨ gwIdle s = true → natBits t.bu.forgot u 1 = 1 ∧ t.bu.dirty = true) ∧
      (bit val 0 = true → gwIdle s = false → rbit t Reg.GW_ERR 3 = true) ∧
      (∀ u, u < 6 → bit val u = false → natBits t.bu.forgot u 1 = natBits s.bu.forgot u 1) ∧
      (∀ p, groupRetired t p = groupRetired s p) ∧ t.ba = s.ba ∧ t.pl = s.pl ∧ t.pn = s.pn ∧ t.df = s.df))

/-- R384, R395 to R397, R399, R400: a function is fenced, drained, cleared and restored; device-wide causes are
raised; memory errors are corrected, or poison their line. -/
def Obligations.FaultsAreConfined : Prop :=
  (∀ (s : State) (fn source : Nat), fn < 19 → 1 ≤ source → source ≤ 5 → fnNotReady s fn = false → present s fn = true →
    ((fnOf s fn).st = .up → ∃ t, exec (.functionFence fn source) s = .next t ∧
      fnOf t fn = { st := .fencing, ready := false, source := source, fencedAt := s.rg.fenceClock + 1 } ∧ (∀ k, k ≠ fn → fnOf t k = fnOf s k) ∧
      (fn ≠ Fun.PINIONS → fn ≠ Fun.CRYSTAL → rbit t Reg.ER_IRQ 0 = true ∧
        ∀ id d, tfind s.esc.descs id = some d → engFn d.eng = fn → d.phase ≠ .started → d.phase ≠ .finished →
          ∃ y, tfind t.esc.descs id = some y ∧ y.phase = .finished ∧ y.bytes = d.bytes)) ∧
    ((fnOf s fn).st ≠ .up → exec (.functionFence fn source) s = .next s)) ∧
  (∀ (s : State) (fn : Nat), (fnOf s fn).st = .fencing →
    (fnInFlight s fn ≠ 0 → exec (.functionDrainEnd fn) s = .next s) ∧
    (fnInFlight s fn = 0 → s.bu.restoring.contains fn = false →
      exec (.functionDrainEnd fn) s = .next (setFn s fn { fnOf s fn with st := .fenced })) ∧
    (fnInFlight s fn = 0 → s.bu.restoring.contains fn = true → ∃ t, exec (.functionDrainEnd fn) s = .next t ∧ (fnOf t fn).st = .restoring ∧
      (∀ k, k ≠ fn → fnOf t k = fnOf s k) ∧ (∀ off, blockFn off = some fn → healthReg off = false → getReg t off = regReset s.fuse.variant off) ∧
      (∀ off, blockFn off ≠ some fn ∨ healthReg off = true → getReg t off = getReg s off) ∧ t.ctxs = s.ctxs ∧ t.esc = s.esc ∧ t.mem = s.mem)) ∧
  (∀ (s : State) (fn : Nat) (pass : Bool), fn < 19 → (fnOf s fn).st = .restoring → testJob s fn = none →
    ∃ t, exec (.functionRestored fn pass) s = .next t ∧ (∀ k, k ≠ fn → fnOf t k = fnOf s k) ∧ fn ∉ t.bu.restoring ∧
      (pass = true → fnOf t fn = { ready := true } ∧ rbit t Reg.RS_FAILED fn = false) ∧
      (pass = false → fnOf t fn = { fnOf s fn with st := .fenced } ∧ rbit t Reg.RS_FAILED fn = true)) ∧
  (∀ (s : State) (c : Nat), c ≤ 4 → (c = 0 → s.er.rmFailed = false) → (c = 2 → s.er.heldFrozen = true ∨ rbit s Reg.RM_CFG 0 = false) →
    ∃ t, exec (.deviceCause c) s = .next t ∧ rbit t Reg.ER_DEVICE c = true ∧ (c ≠ 2 → rbit t Reg.ER_IRQ 2 = true) ∧
      (c = 1 ∨ c = 3 → rbit t Reg.GLOBAL_PINS 5 = false ∧ t.er = s.er) ∧ (c = 0 → t.er.rmFailed = true ∧ rbit t Reg.RG_STATUS 9 = true) ∧
      (c = 2 → t.er.heldFrozen = true) ∧ (c = 4 → rbit t Reg.RG_STATUS 8 = true)) ∧
  (∀ (s : State) (addr : Nat), addr < Config.memBytes s.fuse.variant →
    (∃ t, exec (.memoryEccError addr false) s = .next t ∧ t.mem = s.mem ∧ t.ch = s.ch ∧
      rfld t Reg.ER_MEM_CORRECTED 0 32 = satTo (2 ^ 32 - 1) (rfld s Reg.ER_MEM_CORRECTED 0 32 + 1)) ∧
    (addr / 128 ∈ s.mem.poison → exec (.memoryEccError addr true) s = .next s) ∧
    (addr / 128 ∉ s.mem.poison → ∃ t, exec (.memoryEccError addr true) s = .next t ∧ (∀ l, l ∈ t.mem.poison ↔ l ∈ s.mem.poison ∨ l = addr / 128) ∧
      t.mem.dev = s.mem.dev ∧ rfld t Reg.ER_MEM_UNCORRECTED 0 32 = satTo (2 ^ 32 - 1) (rfld s Reg.ER_MEM_UNCORRECTED 0 32 + 1)))

/-- R402 to R408: the lockstep checker and the watchdog start a recovery, which fences what was half changed, loads an
image and restarts the cores; past the limit the Regulator is held frozen. The Remontoire's three sequencers vote. -/
def Obligations.RegulatorRecovers : Prop :=
  (∀ (s : State) (cause : Nat) (c : Instr), rgAlive s = true → s.er.rmFailed = false → s.er.recov = none → (fnOf s Fun.REGULATOR).st = .up →
    (cause = 3 ∧ c = .regulatorStall ∧ s.er.retiredAt + 100000000 ≤ s.time.dev) ∨
      (unchecked s = false ∧ ((cause = 1 ∧ c = .lockstepMismatch true true) ∨
        (cause = 2 ∧ (c = .lockstepMismatch true false ∨ c = .lockstepMismatch false true)))) →
    let starts := s.time.dev :: s.er.starts.filter (fun t => decide (s.time.dev < t + 10000000000))
    ∃ t, exec c s = .next t ∧ (fnOf t Fun.REGULATOR).ready = false ∧ (fnOf t Fun.REGULATOR).source = 4 ∧ rfld t Reg.RG_STATUS 0 2 = 2 ∧ t.er.starts = starts ∧
      (starts.length < Nat.max 1 (rfld s Reg.RM_CFG 8 4) → t.er.recov = some { cause := cause, frozenAt := s.time.dev, fencedCtx := 0 }) ∧
      (Nat.max 1 (rfld s Reg.RM_CFG 8 4) ≤ starts.length → t.er.recov = none ∧ t.er.heldFrozen = true ∧
        (rbit s Reg.RM_CFG 0 = true → t.er.wantReset = true) ∧ (rbit s Reg.RM_CFG 0 = false → rbit t Reg.ER_DEVICE 2 = true))) ∧
  (∀ (s : State), exec (.lockstepMismatch false false) s = .next s) ∧
  (∀ (s : State) (a b : Bool), (fnOf s Fun.REMONTOIRE).ready = true → s.er.rmFailed = false → unchecked s = false → s.er.recov = none →
    isDue s 10 50000000 = true → ∃ t, exec (.checkerSelfTest a b) s = .next t ∧ rbit t Reg.RM_STATUS 6 = a ∧ rbit t Reg.RM_STATUS 7 = b ∧
      (a = true → b = true → t.er.selfTests = s.er.selfTests + 1 ∧ unchecked t = false) ∧
      (a = false ∨ b = false → t.er = s.er ∧ unchecked t = true ∧ rbit t Reg.ER_DEVICE 4 = true)) ∧
  (∀ (s : State) (r : Recov) (b : List Byte), s.er.recov = some r → s.er.rmFailed = false → r.image = none → copyImage s = some b →
    ∃ t n, exec .recovery s = .next t ∧ t.er.recov = some { r with fencedCtx := n, image := some 0 } ∧ rfld t Reg.RG_STATUS 0 2 = 3 ∧
      (r.cause = 0 → n = 0 ∧ t.ctxs = s.ctxs) ∧
      (r.cause ≠ 0 → ∀ c ∈ halfChanged s, (ctxOf s c).st = .active → (ctxOf t c).st = .fenced) ∧
      (∀ c, c ∉ halfChanged s → ctxOf t c = ctxOf s c)) ∧
  (∀ (s : State) (r : Recov) (k : Nat), s.er.recov = some r → s.er.rmFailed = false → r.image = some k →
    ∃ t, exec .reloadComplete s = .next t ∧ t.er.recov = none ∧ t.er.heldFrozen = false ∧ fnOf t Fun.REGULATOR = { ready := true } ∧
      rfld t Reg.RG_STATUS 0 2 = 1 ∧ rfld t Reg.RG_RESTARTS 0 16 = satTo 0xFFFF (rfld s Reg.RG_RESTARTS 0 16 + 1) ∧
      (r.cause ≠ 0 → rfld t Reg.RM_RECOVERIES 0 32 = satTo (2 ^ 32 - 1) (rfld s Reg.RM_RECOVERIES 0 32 + 1)) ∧
      (∀ m, m < 15 → (mboxOf s m).st = .running → (mboxOf t m).st = .done) ∧ (∀ m, m < 15 → (mboxOf s m).st = .pending → (mboxOf t m).st = .pending)) ∧
  (∀ (s : State) (q : Nat), (fnOf s Fun.REMONTOIRE).ready = true → s.er.rmFailed = false → 1 ≤ q → q ≤ 3 →
    let again := ∃ t, s.er.copiedAt = some (t, q) ∧ s.time.dev < t + 1000000
    ∃ t, exec (.rmDisagree q) s = .next t ∧
      (¬again → rfld t Reg.RM_DISAGREE 0 32 = satTo (2 ^ 32 - 1) (rfld s Reg.RM_DISAGREE 0 32 + 1) ∧ rfld t Reg.RM_STATUS 4 2 = q ∧
        t.er = { s.er with disagrees := s.er.disagrees + 1, copiedAt := some (s.time.dev, q) }) ∧
      (again → t.er.rmFailed = true ∧ rbit t Reg.ER_DEVICE 0 = true ∧ rfld t Reg.RM_STATUS 0 2 = 2)) ∧
  (∀ (s : State), (fnOf s Fun.REMONTOIRE).ready = true → s.er.rmFailed = false →
    ∃ t, exec Instr.rmFailed s = .next t ∧ t.er.rmFailed = true ∧ rbit t Reg.ER_DEVICE 0 = true ∧ rbit t Reg.RG_STATUS 9 = true)

/-- R382, R413 to R417, R421: a record is stamped, numbered and stored, limited by its code's bucket, or held while
the Chronograph is not ready; permanent records become durable in order; an erase ends with its own record. -/
def Obligations.ChronographKeepsRecords : Prop :=
  (∀ (s : State) (code ctx fn : Nat) (hc : Bool) (a0 a1 : Dword), codeListed code = true →
    let stamped := fun (r : Rec) => r.time = calTime s ∧ r.code = code ∧ r.ctxValid = hc ∧ (hc = true → r.ctx = ctx % 256) ∧ r.fn = fn % 256 ∧ r.arg0 = a0 ∧ r.arg1 = a1
    let b := refill (tget {} s.ch.buckets code) (calTime s)
    let stored := fun (t : State) => ∃ r, stamped r ∧ r.seq = s.ch.nextSeq ∧ t.ch.nextSeq = s.ch.nextSeq + 1 ∧
      t.ch.circ = (if s.ch.circ.length < 16384 then s.ch.circ ++ [r] else (s.ch.circ ++ [r]).drop 1) ∧
      t.ch.perm = (if s.ch.perm.length < 4096 then s.ch.perm ++ [r] else s.ch.perm) ∧ t.ch.durable = s.ch.durable
    ∃ t, exec (.chronographRecord code hc ctx fn a0 a1) s = .next t ∧
      ((fnOf s Fun.CHRONOGRAPH).ready = true → code < 0x10 → stored t ∧ t.ch.buckets = s.ch.buckets) ∧
      ((fnOf s Fun.CHRONOGRAPH).ready = true → 0x10 ≤ code → b.rate ≠ 0 → b.rate ≠ 0xFFFFFFFF → 1000000000 ≤ b.nanoTokens → b.pending = 0 →
        stored t ∧ tget {} t.ch.buckets code = { b with nanoTokens := b.nanoTokens - 1000000000 }) ∧
      ((fnOf s Fun.CHRONOGRAPH).ready = true → 0x10 ≤ code → b.rate = 0 ∨ (b.rate ≠ 0xFFFFFFFF ∧ b.nanoTokens < 1000000000) →
        t.ch.circ = s.ch.circ ∧ t.ch.perm = s.ch.perm ∧ t.ch.nextSeq = s.ch.nextSeq ∧ (tget {} t.ch.buckets code).pending = satTo 0xFFFFFFFF (b.pending + 1) ∧
        rfld t Reg.CH_SUPPRESSED 0 32 = satTo (2 ^ 32 - 1) (rfld s Reg.CH_SUPPRESSED 0 32 + 1) ∧ rbit t Reg.CH_IRQ 2 = true) ∧
      ((fnOf s Fun.CHRONOGRAPH).ready = false → s.ch.held.length < 16 → ∃ r, stamped r ∧ t = { s with ch := { s.ch with held := s.ch.held ++ [r] } })) ∧
  (∀ (s : State),
    (s.ch.erasing = none → s.ch.durable < s.ch.perm.length → exec .permanentProgram s = .next { s with ch := { s.ch with durable := s.ch.durable + 1 } }) ∧
    (s.ch.erasing ≠ none ∨ s.ch.perm.length ≤ s.ch.durable → exec .permanentProgram s = .next s)) ∧
  (∀ (s : State) (mb : Nat) (r : List Word), s.ch.erasing = some mb → Asked s mb Cmd.CHRONO_CLEAR r →
    ∃ u, Answers .permanentEraseComplete s u mb St.SUCCESS [] ∧ u.ch.erasing = none ∧ u.rg = s.rg ∧
      (natBits s.ch.eraseMask 0 1 = 1 → (fnOf s Fun.CHRONOGRAPH).ready = true → ∃ x, x.code = Chr.CLEARED ∧ x.time = calTime s ∧
        x.arg0 = BitVec.ofNat 64 s.ch.eraseMask ∧ x.seq = s.ch.nextSeq ∧ u.ch.perm = (x :: s.ch.perm).take 4096 ∧ u.ch.durable = s.ch.durable))

/-- R338, R339, R381: the link comes up, loses a lane, sleeps and wakes, goes down, which ends what waited on the host
and clears nothing, and is reset, which clears its configuration and nothing else; an FLR fences every context and
starts bring-up again, the Regulator and the durable records apart. -/
def Obligations.LinkComesUpAndGoesDown : Prop :=
  (∀ (s : State) (lanes width speed : Nat),
    ((fnOf s Fun.REMONTOIRE).ready = true → ∃ t, exec (.linkUp lanes width speed) s = .next t ∧ hostUp t = true ∧ t.hl.cfgReady = true ∧
      (fnOf t Fun.HOST_LINK).ready = true ∧ rfld t Reg.HL_LINK 16 16 = lanes % 2 ^ 16 ∧ rfld t Reg.HL_LINK 4 5 = width % 32 ∧
      rfld t Reg.HL_LINK 1 3 = speed % 8 ∧ ((fnOf s Fun.REGULATOR).ready = true → rbit t Reg.GLOBAL_PINS 7 = false)) ∧
    ((fnOf s Fun.REMONTOIRE).ready = false → s.er.rmFailed = false → exec (.linkUp lanes width speed) s = .next s)) ∧
  (∀ (s : State), hostUp s = true →
    (∃ t, exec .linkDown s = .next t ∧ hostUp t = false ∧ rbit t Reg.HL_ERR 3 = true ∧ rfld t Reg.HL_LINK 16 16 = rfld s Reg.HL_LINK 16 16 ∧
      (∀ m ∈ t.tu.misses, m.st = .needPage) ∧ t.hl.snoops = [] ∧ (∀ p ∈ t.ca.victim, p.2.evicting = false) ∧
      t.tu.tlb = s.tu.tlb ∧ t.hl = { s.hl with snoops := [], sf := t.hl.sf } ∧ (∀ c, (ctxOf t c).st = (ctxOf s c).st) ∧ t.esc.rings = s.esc.rings) ∧
    (∀ lane, lane < 16 → ∃ t, exec (.laneFail lane) s = .next t ∧ rbit t Reg.HL_LINK (16 + lane) = false ∧ rfld t Reg.HL_LINK 4 5 = 8 ∧
      (∀ k, k < 16 → k ≠ lane → rbit t Reg.HL_LINK (16 + k) = rbit s Reg.HL_LINK (16 + k)) ∧ hostUp t = true ∧ rbit t Reg.HL_ERR 2 = true ∧ t.hl = s.hl) ∧
    (s.hl.cfgReady = true → exec .d3hotEntry s = .next { s with hl := { s.hl with d3 := true, l1 := true } } ∧
      exec .d0Return s = .next { s with hl := { s.hl with d3 := false, l1 := false } } ∧ barsOn { s with hl := { s.hl with d3 := true, l1 := true } } = false)) ∧
  (∀ (s : State), ∃ t, exec .hotReset s = .next t ∧ hostUp t = false ∧ barsOn t = false ∧ t.hl.cfgReady = false ∧ t.hl.hdm = [] ∧ t.hl.vecs = [] ∧
    t.hl.bar4Base = 0 ∧ t.hl.busMaster = false ∧ t.hl.atsEn = false ∧ t.hl.priEn = false ∧ t.hl.snoops = [] ∧ t.hl.sf = [] ∧ t.tu.tlb = [] ∧
    rfld t Reg.RS_CAUSE 0 4 = 3 ∧ rbit t Reg.RS_CAUSE 18 = true ∧ (fnOf t Fun.HOST_LINK).ready = false ∧ rbit t Reg.GLOBAL_PINS 7 = true ∧
    (∀ n, n ≠ Fun.HOST_LINK → fnOf t n = fnOf s n) ∧ t.gw = s.gw ∧ t.ba = s.ba ∧ t.pl = s.pl ∧ t.pn = s.pn ∧ t.ra = s.ra ∧ t.cr = s.cr ∧
    t.esc = s.esc ∧ t.rg = s.rg ∧ t.mp = s.mp ∧ t.nl = s.nl) ∧
  (∀ (s : State), hostUp s = true → s.hl.cfgReady = true →
    (s.bu.pos = .done ∨ s.bu.pos = .step 6 ∨ s.bu.flr = true → ∃ t, exec .flr s = .next t ∧ t.ctxs = [] ∧ t.esc = {} ∧ t.evs = {} ∧ t.ra = {} ∧
      t.ba.models = [] ∧ t.bu.pos = .step 30 ∧ t.bu.flr = true ∧ rfld t Reg.RS_CAUSE 0 4 = 4 ∧ fnOf t Fun.REGULATOR = fnOf s Fun.REGULATOR ∧
      (∀ n, n ≠ Fun.REGULATOR → fnOf t n = {}) ∧ hostUp t = false ∧ t.ch.perm.length ≥ s.ch.perm.length ∧ t.ch.durable = s.ch.durable ∧
      (∀ a, a < 2 ^ 26 → a < 0x00800000 ∨ 0x00C00000 ≤ a → tget 0 t.mem.dev a = 0)) ∧
    (s.bu.pos ≠ .done → s.bu.pos ≠ .step 6 → s.bu.flr = false → ∃ t, exec .flr s = .next t ∧ rfld t Reg.RS_CAUSE 0 4 = 4 ∧ t.bu.flr = false ∧
      (mayStart s = true → t.bu.pos = .step 1)))

/-- R266, R275, R330 to R334: what a configuration write enables, BAR4 through its slide, and its snoops. -/
def Obligations.HostReachesDeviceMemory : Prop :=
  (∀ (s : State) (val : Nat), s.hl.cfgReady = true → hostUp s = true → let on := val % 2 == 1
    exec (.configurationWrite 0 val) s = .next { s with hl := { s.hl with busMaster := on } } ∧
    exec (.configurationWrite 1 val) s = .next { s with hl := { s.hl with memSpace := on } } ∧
    exec (.configurationWrite 2 val) s = .next { s with hl := { s.hl with atsEn := on } } ∧
    exec (.configurationWrite 3 val) s = .next { s with hl := { s.hl with pasidEn := on } } ∧
    (∃ t, exec (.configurationWrite 4 val) s = .next t ∧ t.hl = { s.hl with priEn := on } ∧
      (on = true → s.hl.priEn = false → t.tu.priStopped = false) ∧ (on = false ∨ s.hl.priEn = true → t.tu = s.tu)) ∧
    exec (.configurationWrite 5 val) s = .next { s with hl := { s.hl with priAlloc := val % 2 ^ 32 } } ∧
    (∃ t, exec (.configurationWrite 6 val) s = .next t ∧ t.hl = { s.hl with cacheEn := on } ∧
      (on = false → s.hl.cacheEn = true → (∀ p ∈ t.ca.lines, p.2.host = true → p.2.evicting = true) ∧ ∀ p ∈ t.ca.victim, p.2.host = true → p.2.evicting = true)) ∧
    (∃ t, exec (.configurationWrite 7 val) s = .next t ∧ t = { s with hl := { s.hl with bar4Base := t.hl.bar4Base } } ∧
      t.hl.bar4Base ≤ val % 2 ^ 64 ∧ s.hl.bar4Size ∣ t.hl.bar4Base) ∧
    (∀ i, i < 10 → val = 2 ^ (28 + i) → ∃ t, exec (.configurationWrite 8 val) s = .next t ∧ t.hl.bar4Size = val ∧ val ∣ t.hl.bar4Base)) ∧
  (∀ (s : State) (val : Word), Reaches s Reg.HL_BAR4_SLIDE →
    (bits val 0 10 * s.hl.bar4Size < Config.memBytes s.fuse.variant →
      ∃ t, exec (.bar4SlideWrite val) s = .next t ∧ rfld t Reg.HL_BAR4_SLIDE 0 10 = bits val 0 10 ∧ t = { s with regs := t.regs }) ∧
    (Config.memBytes s.fuse.variant ≤ bits val 0 10 * s.hl.bar4Size →
      ∃ t, exec (.bar4SlideWrite val) s = .next t ∧ rbit t Reg.HL_ERR 0 = true ∧ getReg t Reg.HL_BAR4_SLIDE = getReg s Reg.HL_BAR4_SLIDE)) ∧
  (∀ (s : State) (off n : Nat) (data : List Byte), barsOn s = true → n ≠ 0 → off + n ≤ s.hl.bar4Size →
    let a := off + rfld s Reg.HL_BAR4_SLIDE 0 10 * s.hl.bar4Size
    let here := fun (u : State) x => physRd1 u (hostClass u x) false x
    a + n ≤ Config.memBytes s.fuse.variant →
    (snoopLines s a n false = [] → ∃ t, exec (.bar4Access 0 off n data) s = .next t ∧ t.hl.readMem = (List.range n).map (fun i => here s (a + i)) ∧
      t = { s with hl := { s.hl with readMem := t.hl.readMem, readPoison := poisonAt s false a n != 0 } }) ∧
    (data.length = n → snoopLines s a n true = [] → ∃ t, exec (.bar4Access 1 off 0 data) s = .next t ∧
      (∀ x, x < Config.memBytes s.fuse.variant → here t x = if a ≤ x ∧ x < a + n then data.getD (x - a) 0 else here s x) ∧ t = { s with mem := t.mem, ca := t.ca }) ∧
    (∀ k, k = 2 ∨ k = 3 ∨ k = 4 → n = 4 ∨ n = 8 → off % n = 0 → snoopLines s a n true = [] →
      let old := leNat ((List.range n).map (fun i => here s (a + i)))
      let new := if k = 2 then (old + leAt data 0 n) % 2 ^ (8 * n) else if k = 3 then leAt data 0 n else if old = leAt data 0 n then leAt data n n else old
      ∃ t, exec (.bar4Access k off n data) s = .next t ∧ t.hl.readMem = (List.range n).map (fun i => here s (a + i)) ∧
        ∀ x, x < Config.memBytes s.fuse.variant → here t x = if a ≤ x ∧ x < a + n then (toLe new n).getD (x - a) 0 else here s x) ∧
    (∀ k, k ≤ 4 → (2 ≤ k → (n = 4 ∨ n = 8) ∧ off % n = 0) → data.length = n ∨ k ≠ 1 → snoopLines s a n (k != 0) ≠ [] →
      ∃ t, exec (.bar4Access k off n data) s = .next t ∧ t.mem = s.mem ∧ t.ca = s.ca ∧ t.hl.readMem = s.hl.readMem ∧
        ∀ l ∈ snoopLines s a n (k != 0), ∃ b ∈ t.hl.snoops, b.line = l))

/-- R335, R336: HDM decoders commit whole ranges of device memory; the snoop filter records what the host reads, and a
back-invalidation takes a line from it and frees the writes that waited. -/
def Obligations.HostMemoryProtocolIsKept : Prop :=
  (∀ (s : State) (d base size : Nat), d < 2 → hostUp s = true → s.hl.cfgReady = true →
    let dpa := rfld s (Reg.HL_HDM_DPA d) 0 9 * 2 ^ 28
    let other := tget {} s.hl.hdm (1 - d)
    let good := base % 2 ^ 28 = 0 ∧ size % 2 ^ 28 = 0 ∧ dpa + size ≤ Config.memBytes s.fuse.variant ∧
      (other.committed = true → base + size ≤ other.base ∨ other.base + other.size ≤ base)
    ∃ t, exec (.hdmDecoderCommit d base size) s = .next t ∧ tget {} t.hl.hdm (1 - d) = other ∧
      (size = 0 → tget {} t.hl.hdm d = {} ∧ tget false t.hl.hdmErr d = false) ∧
      (size ≠ 0 → good → tget {} t.hl.hdm d = { committed := true, base := base, size := size } ∧ tget false t.hl.hdmErr d = false) ∧
      (size ≠ 0 → ¬good → (tget {} t.hl.hdm d).committed = false ∧ tget false t.hl.hdmErr d = true)) ∧
  (∀ (s : State) (hpa b o : Nat) (mdf : Bool) (data : List Byte), hdmOf s hpa = some (b, o) → hostUp s = true →
    let a := (b + o) / 64 * 64
    let l := a / 128
    let here := fun (u : State) x => physRd1 u (hostClass u x) false x
    ((∀ x ∈ s.hl.snoops, x.line ≠ l) → s.hl.sf.length < 262144 → a + 64 ≤ Config.memBytes s.fuse.variant →
      ∃ t, exec (.cxlMemAccess hpa false mdf data) s = .next t ∧ t.hl.readMem = (List.range 64).map (fun i => here s (a + i)) ∧
        (∃ f ∈ t.hl.sf, f.line = l ∧ (mdf = true → f.modified = true)) ∧ (∀ k, k ≠ l → t.hl.sf.filter (·.line == k) = s.hl.sf.filter (·.line == k)) ∧
        t.mem = s.mem ∧ t.ca = s.ca) ∧
    ((∀ x ∈ s.hl.snoops, x.line ≠ l) → ∀ f fs, s.hl.sf = f :: fs → 262144 ≤ s.hl.sf.length → (∀ x ∈ s.hl.sf, x.line ≠ l) →
      exec (.cxlMemAccess hpa false mdf data) s = .next (sendSnoop s f.line)) ∧
    (∃ t, exec (.cxlMemAccess hpa true mdf data) s = .next t ∧ (∀ f ∈ t.hl.sf, f.line = l → f.modified = false) ∧
      ∀ x, x < Config.memBytes s.fuse.variant → here t x = if a ≤ x ∧ x < a + 64 then data.getD (x - a) 0 else here s x)) ∧
  (∀ (s : State) (l : Nat),
    ((∃ f ∈ s.hl.sf, f.line = l) → ∃ t, exec (.backInvalidation l) s = .next t ∧ (∃ b ∈ t.hl.snoops, b.line = l) ∧ t.hl.sf = s.hl.sf ∧ t = { s with hl := t.hl }) ∧
    ((∀ f ∈ s.hl.sf, f.line ≠ l) → exec (.backInvalidation l) s = .next s) ∧
    (hostUp s = true → (∃ b ∈ s.hl.snoops, b.line = l) → ∃ t, exec (.backInvalidationResponse l) s = .next t ∧
      (∀ b ∈ t.hl.snoops, b.line ≠ l) ∧ t.hl.sf = s.hl.sf.filter (·.line != l) ∧
      (∀ a d, s.hl.snoops = [{ line := l, write := some (a, d) }] → (∀ f ∈ s.hl.sf, f.line ≠ l → f.line ∉ linesOf a d.length) →
        t.hl.snoops = [] ∧ ∀ x, x < Config.memBytes s.fuse.variant →
          physRd1 t (hostClass t x) false x = if a ≤ x ∧ x < a + d.length then d.getD (x - a) 0 else physRd1 s (hostClass s x) false x))) ∧
  (∀ (s : State) (v : Nat), v < 8 → let x := vecOf s v
    (vecLevel s v = false → ∃ t, exec (.msiXMessage v) s = .next t ∧ vecOf t v = { x with level := false, again := false, pend := false } ∧ t.hl.msgs = s.hl.msgs) ∧
    (vecLevel s v = true → x.level = true → x.again = false → exec (.msiXMessage v) s = .next s) ∧
    (vecLevel s v = true → (x.level = false ∨ x.again = true) → x.masked = true → ∃ t, exec (.msiXMessage v) s = .next t ∧
      vecOf t v = { x with level := true, again := false, pend := true } ∧ t.hl.msgs = s.hl.msgs) ∧
    (vecLevel s v = true → (x.level = false ∨ x.again = true) → x.masked = false → s.hl.busMaster = true → hostUp s = true →
      ∃ t, exec (.msiXMessage v) s = .next t ∧ t.hl.msgs = (v, x.addr, x.data) :: s.hl.msgs ∧ vecOf t v = { x with level := true, again := false }) ∧
    (Reaches s (Reg.HL_MSIX (4 * v + 3)) → ∃ t, exec (.vectorUnmask v) s = .next t ∧ (vecOf t v).masked = false ∧ (vecOf t v).pend = false ∧
      t.hl.msgs = if x.pend = true ∧ vecLevel s v = true ∧ s.hl.busMaster = true ∧ hostUp s = true then (v, x.addr, x.data) :: s.hl.msgs else s.hl.msgs))

/-- R343 to R347, R350, R352, R354, R356: ports train, carry flits, replay, return credits, beat and fall; packets are
forwarded on their route or dropped at the hop limit; requests for this device's memory are performed and answered. -/
def Obligations.PortsAndPacketsMove : Prop :=
  (∀ (s : State) (p waves peer pp : Nat), p < Config.nlPorts s.fuse.variant → s.nl.roleOpt ≠ 0 → 1 ≤ waves → waves ≤ 4 → (portOf s p).up = false →
    fnNotReady s Fun.FABRIC = false → ∃ t, exec (.fabricPortUp p waves peer pp) s = .next t ∧
      portOf t p = { up := true, waves := waves, peer := peer % 64, peerPort := pp % 8, lastRx := s.time.dev, lastBeat := s.time.dev } ∧
      ∀ k, k ≠ p → portOf t k = portOf s k) ∧
  (∀ (s : State) (p : Nat) (wave : Bool), (portOf s p).up = true → ∃ t, exec (.fabricPortDown p wave) s = .next t ∧ (portOf t p).up = false ∧
      ∀ d, d < 64 → d ≠ devNum s → natBits s.nl.members d 1 = 1 → (d, p) ∈ s.nl.active → natBits t.nl.lost d 1 = 1) ∧
  (∀ (s : State) (p : Nat), (portOf s p).up = true → (portOf s p).out = [] → 1 ≤ (portOf s p).credits.getD 3 0 → (portOf s p).lastBeat + 100000 ≤ s.time.dev →
    ∃ t k, exec (.heartbeat p) s = .next t ∧ t.nl.tx = (p, k) :: s.nl.tx ∧ k.body = .heartbeat ∧ k.vc = 3 ∧ (portOf t p).lastBeat = s.time.dev ∧
      (portOf t p).credits.getD 3 0 = (portOf s p).credits.getD 3 0 - 1) ∧
  (∀ (s : State) (p : Nat),
    ((portOf s p).up = true → (portOf s p).lastRx + 1000000 ≤ s.time.dev → ∃ t, exec (.heartbeatTimeout p) s = .next t ∧ (portOf t p).up = false) ∧
    ((portOf s p).up = false ∨ s.time.dev < (portOf s p).lastRx + 1000000 → exec (.heartbeatTimeout p) s = .next s)) ∧
  (∀ (s : State) (p vc n : Nat), (portOf s p).up = true → vc < 4 → (portOf s p).out = [] → (portOf s p).credits.length = 4 →
    ∃ t, exec (.creditReturn p vc n) s = .next t ∧ t.nl.tx = s.nl.tx ∧ portOf t p = { portOf s p with
      credits := (portOf s p).credits.set vc (Nat.min ([512, 512, 64, 32].getD vc 0) ((portOf s p).credits.getD vc 0 + n)) }) ∧
  (∀ (s : State) (p : Nat) (k : Packet), (portOf s p).up = true →
    ((portOf s p).replays < 8 → ∃ t, exec (.flitReceive p false k) s = .next t ∧
      portOf t p = { portOf s p with lastRx := s.time.dev, replays := (portOf s p).replays + 1 } ∧ t.nl.inbox = s.nl.inbox ∧
      rfld t (Reg.NL_P_REPLAYS p) 0 32 = satTo (2 ^ 32 - 1) (rfld s (Reg.NL_P_REPLAYS p) 0 32 + 1)) ∧
    ((portOf s p).replays = 8 → ∃ t, exec (.flitReceive p false k) s = .next t ∧ (portOf t p).up = false) ∧
    (k.path = none → k.vc ≠ 3 → (reqOf k.body).isSome = true → ∃ t, exec (.flitReceive p true k) s = .next t ∧
      t.nl.inbox = s.nl.inbox ++ [(p, k)] ∧ portOf t p = { portOf s p with lastRx := s.time.dev, replays := 0 } ∧ t = { s with nl := t.nl })) ∧
  (∀ (s : State) (p o : Nat) (x : Nat × Packet), s.nl.inbox.find? (fun x => x.1 == p && x.2.dst != devNum s) = some x →
    (63 ≤ x.2.hop → ∃ t, exec (.packetForward p) s = .next t ∧ t.nl.inbox = s.nl.inbox.erase x ∧ rbit t Reg.NL_ERR 0 = true ∧
      rfld t Reg.NL_HOP_DROP 0 32 = satTo (2 ^ 32 - 1) (rfld s Reg.NL_HOP_DROP 0 32 + 1)) ∧
    (x.2.hop < 63 → tfind (if x.2.epoch = s.nl.epoch.toNat % 2 then s.nl.active else s.nl.idle) x.2.dst = some o → (portOf s o).up = true →
      (portOf s o).out = [] → pktFlits { x.2 with hop := x.2.hop + 1 } ≤ (portOf s o).credits.getD x.2.vc 0 →
      ∃ t, exec (.packetForward p) s = .next t ∧ t.nl.inbox = s.nl.inbox.erase x ∧ t.nl.tx = (o, { x.2 with hop := x.2.hop + 1 }) :: s.nl.tx)) ∧
  (∀ (s : State) (x : Nat × Packet) (tag off n : Nat) (wr : Bool), s.nl.inbox.find? (fun x => x.2.dst == devNum s && x.2.vc == 0) = some x →
    reqOf x.2.body = some (tag, off, n, wr) →
    (s.nl.remoteFenced = true ∨ Config.memBytes s.fuse.variant < off + n → ∃ t, exec .remoteRequest s = .next t ∧ t.mem = s.mem ∧ t.ca = s.ca ∧
      t.nl.inbox = s.nl.inbox.erase x) ∧
    (s.nl.remoteFenced = false → off + n ≤ Config.memBytes s.fuse.variant → snoopLines s off n wr = [] → ∃ t, exec .remoteRequest s = .next t ∧
      t.nl.inbox = s.nl.inbox.erase x ∧ (wr = false → t.mem = s.mem ∧ t.ca = s.ca) ∧
      (∀ d, x.2.body = .write tag off d → ∀ a, physRd1 t false false a = if off ≤ a ∧ a < off + d.length then d.getD (a - off) 0 else physRd1 s false false a) ∧
      (∀ op d, x.2.body = .atomic tag off op d →
        let new := toLe (atomNew op n (leNat (physRd s false false off n)) (leAt d 0 n) (leAt d n n)) n
        ∀ a, physRd1 t false false a = if off ≤ a ∧ a < off + n then new.getD (a - off) 0 else physRd1 s false false a)) ∧
    (s.nl.remoteFenced = false → off + n ≤ Config.memBytes s.fuse.variant → snoopLines s off n wr ≠ [] → ∃ t, exec .remoteRequest s = .next t ∧
      t.mem = s.mem ∧ t.nl = s.nl ∧ ∀ l ∈ snoopLines s off n wr, ∃ b ∈ t.hl.snoops, b.line = l)) ∧
  (∀ (s : State) (x : Nat × Packet) (tag st : Nat) (d : List Byte) (q : RemReq), s.nl.inbox.find? (fun x => x.2.dst == devNum s && x.2.vc == 1) = some x →
    x.2.body = .response tag st d → s.nl.reqs.find? (fun q => q.tag == tag && q.dev == x.2.src) = some q →
    ∃ t, exec .remoteResponse s = .next t ∧ t.nl.inbox = s.nl.inbox.erase x ∧ t.nl.reqs = s.nl.reqs.filter (fun y => y.tag != tag) ∧
      (st = 0 → t = { s with nl := t.nl }) ∧
      (st = 0 → q.write = false → t.nl.arrived = s.nl.arrived ++ [{ stream := q.stream, ctx := q.ctx, dev := q.dev, off := q.off, data := d }]) ∧
      (st ≠ 0 → streamHeld s q.stream q.ctx = false → ∃ f ∈ t.tu.recs, f.ctx = q.ctx ∧ f.stream = q.stream ∧ f.cause = st))

/-- R348, R349, R351, R353 to R357: a device answers an enumeration, the manager numbers those that answer, epochs are
switched behind markers, losses are declared, the manager is confirmed or replaced by a quorum, and the management
channel carries one command at a time. -/
def Obligations.DomainsFormAndVote : Prop :=
  (∀ (s : State) (p seq dev pp : Nat) (re : Bool), s.nl.roleOpt ≠ 0 → (portOf s p).up = true → s.nl.enumJob = none → s.nl.enumSeen ≠ some seq →
    (portOf s p).out = [] → 1 ≤ (portOf s p).credits.getD 3 0 →
    ∃ t k, exec (.enum p seq re dev pp) s = .next t ∧ t.nl.enumSeen = some seq ∧ t.nl.enumPort = some p ∧ t.nl.tx = (p, k) :: s.nl.tx ∧
      k.body = .enumAnswer s.nl.roleOpt (if re = true ∧ s.nl.member = true then s.nl.dev + 1 else 0) [] [(p, dev, pp)] ∧
      exec (.enum p seq re dev pp) t = .next t) ∧
  (∀ (s : State) (p role keep j : Nat) (path : List Nat) (links : List (Nat × Nat × Nat)), s.nl.enumJob = some j →
    (∀ a ∈ s.nl.answered, a.path ≠ p :: path) →
    (role = 1 → s.nl.rejoin = false → ∃ t, exec (.enumAnswer p role keep path links) s = .next t ∧ rbit t Reg.NL_ERR 1 = true ∧ t.nl = s.nl) ∧
    (role ≠ 1 → (jobOf s j).total ≤ s.nl.answered.length + 1 → ∃ t, exec (.enumAnswer p role keep path links) s = .next t ∧ rbit t Reg.NL_ERR 2 = true ∧ t.nl = s.nl) ∧
    (role ≠ 1 → s.nl.answered.length + 1 < (jobOf s j).total → ∃ t a, exec (.enumAnswer p role keep path links) s = .next t ∧
      t.nl.answered = s.nl.answered ++ [a] ∧ a.path = p :: path ∧ a.links = links ∧ (keep = 0 → a.dev = freeNumber s) ∧
      a.role = (if role = 2 ∧ s.nl.deputySeen = false then 2 else 3) ∧
      (s.nl.answered.length + 2 = (jobOf s j).total → t.nl.enumJob = none ∧ t.nl.member = true ∧ t.nl.mgr = s.nl.dev))) ∧
  (∀ (s : State), (s.nl.member = false → exec .switch s = .next s) ∧
    (s.nl.member = true → s.nl.switching = none → (∃ r ∈ s.nl.active, natBits s.nl.members r.1 1 = 1 ∧ natBits s.nl.lost r.1 1 = 0) →
      ∃ t w, exec .switch s = .next t ∧ t.nl.switching = some w ∧ t.nl.active = s.nl.active ∧ t.nl.epoch = s.nl.epoch ∧
        ∀ d v, (d, v) ∈ w.flows ↔ v < 3 ∧ natBits s.nl.members d 1 = 1 ∧ natBits s.nl.lost d 1 = 0 ∧ ∃ r ∈ s.nl.active, r.1 = d)) ∧
  (∀ (s : State) (src vc p : Nat), s.nl.member = true → vc < 3 → tfind s.nl.active src = some p → (portOf s p).up = true → (portOf s p).out = [] →
    1 ≤ (portOf s p).credits.getD 3 0 → ∃ t k, exec (.drainMarker src vc) s = .next t ∧ t.nl.tx = (p, k) :: s.nl.tx ∧
      k.body = .echo s.nl.dev vc ∧ k.dst = src ∧ k.vc = 3) ∧
  (∀ (s : State) (dst vc : Nat) (w : Switching), s.nl.switching = some w →
    ((dst, vc) ∉ w.flows → exec (.drainMarkerEcho dst vc) s = .next s) ∧
    ((dst, vc) ∈ w.flows → (∃ f ∈ w.flows, f ≠ (dst, vc)) → ∃ t, exec (.drainMarkerEcho dst vc) s = .next t ∧
      t.nl.switching = some { w with flows := w.flows.filter (· != (dst, vc)) } ∧ t.nl.held = s.nl.held.filter (fun k => !(k.dst == dst && k.vc == vc)))) ∧
  (∀ (s : State) (d : Nat) (w : Switching), s.nl.switching = some w → s.nl.acting = 1 → d ∈ w.awaiting → ∃ t, exec (.switchDoneReport d) s = .next t ∧
    ((∃ k ∈ w.awaiting, k ≠ d) → t.nl.switching = some { w with awaiting := w.awaiting.filter (· != d) } ∧ t.nl.epoch = s.nl.epoch) ∧
    ((∀ k ∈ w.awaiting, k = d) → t.nl.switching = none ∧ t.nl.active = s.nl.idle ∧ t.nl.epoch = s.nl.epoch + 1)) ∧
  (∀ (s : State) (p mask d : Nat), d < 64 → natBits mask d 1 = 1 → (d, p) ∈ s.nl.active → d ≠ devNum s → natBits s.nl.members d 1 = 1 →
    ∃ t, exec (.lossNotice p mask) s = .next t ∧ natBits t.nl.lost d 1 = 1) ∧
  (∀ (s : State) (p cand : Nat), (s.nl.member = false ∨ cand = devNum s → exec (.probe p cand) s = .next s) ∧
    (s.nl.member = true → cand ≠ devNum s → ∃ t, exec (.probe p cand) s = .next t ∧ cand ∈ t.nl.probed ∧
      (s.nl.answeredCand = none → (s.nl.mgrReach = true → cand = s.nl.mgr) → t.nl.answeredCand = some cand) ∧
      (s.nl.answeredCand ≠ none ∨ (s.nl.mgrReach = true ∧ cand ≠ s.nl.mgr) → t.nl.answeredCand = s.nl.answeredCand))) ∧
  (∀ (s : State) (d cand : Nat),
    (s.nl.probing ≠ none → cand = devNum s → d ∉ s.nl.votes → exec (.probeAnswer d cand) s = .next { s with nl := { s.nl with votes := s.nl.votes ++ [d] } }) ∧
    (s.nl.probing = none ∨ cand ≠ devNum s ∨ d ∈ s.nl.votes → exec (.probeAnswer d cand) s = .next s)) ∧
  (∀ (s : State) (at_ : Nat), s.nl.probing = some at_ →
    (s.time.dev < at_ + 1000000 → exec .quorumVote s = .next s) ∧
    (at_ + 1000000 ≤ s.time.dev → ∃ t, exec .quorumVote s = .next t ∧ t.nl.probing = none ∧
      (s.nl.configured < 2 * s.nl.votes.length → t.nl.acting = 1 ∧ (s.nl.acting ≠ 1 → t.nl.mgr = devNum s ∧ t.nl.mgrReach = true ∧ t.nl.remoteFenced = false)) ∧
      (2 * s.nl.votes.length ≤ s.nl.configured → s.nl.acting = 1 → t.nl.acting = 2 ∧ t.nl.remoteFenced = true ∧ rbit t Reg.NL_ERR 5 = true))) ∧
  (∀ (s : State) (val : Word), Reaches s Reg.NL_MC_CTRL → bit val 8 = true →
    (s.nl.acting ≠ 1 ∨ s.nl.mcTarget ≠ none → ∃ t, exec (.mcGo val) s = .next t ∧ rbit t Reg.NL_ERR 3 = true ∧ t.nl = s.nl) ∧
    (s.nl.acting = 1 → s.nl.mcTarget = none → ∃ t, exec (.mcGo val) s = .next t ∧
      (bits val 0 6 = devNum s ∨ (natBits s.nl.members (bits val 0 6) 1 = 1 ∧ natBits s.nl.lost (bits val 0 6) 1 = 0) →
        t.nl.mcTarget = some (bits val 0 6) ∧ rfld t Reg.NL_MC_STATE 0 2 = 1) ∧
      (bits val 0 6 ≠ devNum s → natBits s.nl.members (bits val 0 6) 1 = 0 ∨ natBits s.nl.lost (bits val 0 6) 1 = 1 →
        t.nl.mcTarget = none ∧ rfld t Reg.NL_MC_STATE 0 2 = 2 ∧ rfld t (Reg.NL_MC_RESP 0) 0 16 = St.TARGET_LOST))) ∧
  (∀ (s : State) (words : List Word), (s.nl.mcTarget = none → exec (.mcResponse words) s = .next s) ∧
    (s.nl.mcTarget ≠ none → ∃ t, exec (.mcResponse words) s = .next t ∧ t.nl.mcTarget = none ∧ rfld t Reg.NL_MC_STATE 0 2 = 2 ∧
      ∀ i, i < 16 → getReg t (Reg.NL_MC_RESP i) = words.getD i 0))

/-- R56 to R59, R72, R73: an operation reaches the Great Wheel: WHEEL_OP from a started descriptor, an issue from a
render pass once its unit's raster phase has ended and the issue before it is selected, each with its checks made in
order; its parameter arrays are then read. -/
def Obligations.WheelOperationsArise : Prop :=
  (∀ (s : State) (id : Nat) (d : Desc), startedDesc s id Op.WHEEL_OP = some d → (∀ p ∈ s.gw.ops, p.2.desc ≠ some id) →
    let model := leAt d.bytes 0x10 4 % 4096
    ∃ t o, exec (.wheelOp id) s = .next t ∧ gwOp t s.gw.nextOp = some o ∧ (∀ k, k ≠ s.gw.nextOp → gwOp t k = gwOp s k) ∧
      t = { s with gw := { s.gw with ops := t.gw.ops, nextOp := s.gw.nextOp + 1 } } ∧
      o.desc = some id ∧ o.ctx = d.ctx ∧ o.model = model ∧ o.m = bodyVal d 0x18 8 ∧
      (d.indBad = true → o.refusal = some St.BAD_OPERAND) ∧
      (d.indBad = false → d.indFault = true → o.refusal = some St.IN_FAULT) ∧
      (d.indBad = false → d.indFault = false → (∀ m, modelOf s model = some m → m.ctx ≠ d.ctx) → o.refusal = some St.BAD_MODEL) ∧
      (o.refusal = none → o.phase = .params ∧ ∃ m, modelOf s model = some m ∧ m.ctx = d.ctx ∧ o.opIndex < m.ops ∧
        o.oprec = (m.list.drop (128 * o.opIndex)).take 128)) ∧
  (∀ (s : State) (id : Nat) (p : RPass), passOf s id = some p → p.phase = .run → p.final = true → p.nets ≠ [] →
    (∀ o ∈ s.gw.ops, o.2.desc = none → o.2.pass = id → o.2.phase ≠ .params ∧ o.2.phase ≠ .blocks ∧ o.2.phase ≠ .eligible) →
    p.rastUnits.contains p.netAt.1 = true →
    ∃ t, exec (.networkPassIssue id) s = .next t ∧ gwOp t s.gw.nextOp = some (issueOp s id p) ∧
      (∀ k, k ≠ s.gw.nextOp → gwOp t k = gwOp s k) ∧ passOf t id = some { p with netAt := nextIssue p p.netAt } ∧
      (∀ k, k ≠ id → passOf t k = passOf s k) ∧
      t = { s with gw := { s.gw with ops := t.gw.ops, nextOp := s.gw.nextOp + 1 }, ra := { s.ra with passes := t.ra.passes } }) ∧
  (∀ (s s' : State) (op : Nat) (o : GwOp) (md : Model) (pm : PageMap), gwOp s op = some o → o.phase = .params → modelOf s o.model = some md →
    let r := o.oprec
    let part := fun (on : Bool) (off n : Nat) => if on then [({ va := md.pbase + off, len := n, kind := 0 } : Acc)] else []
    let words := fun (on : Bool) (off n : Nat) => if on then wordsOf (vaRd s' false pm (md.pbase + off) n) else []
    let act := if rActEn r = true then some (words true (rActOff r) 192) else none
    prepare s { stream := 3, ctx := o.ctx, eng := 0, ring := some o.ring }
      (part (rScaleMode r == 1) (rScaleOff r) (4 * rN r) ++ part (rBiasMode r == 2) (rBiasOff r) (4 * rN r) ++ part (rActEn r) (rActOff r) 192) = .ok s' pm →
    ∃ t o', exec (.operationParameterRead op) s = .next t ∧ gwOp t op = some o' ∧
      o'.scales = words (rScaleMode r == 1) (rScaleOff r) (4 * rN r) ∧ o'.biases = words (rBiasMode r == 2) (rBiasOff r) (4 * rN r) ∧ o'.act = act ∧
      (∀ c, convOk r act = some c → o'.refusal = some c ∧ o'.phase = .ended) ∧
      (convOk r act = none → rKind r = 4 → o'.phase = .blocks) ∧
      (convOk r act = none → rKind r ≠ 4 → md.failed = false → o'.phase = .blocks ∨ o'.phase = .eligible))

/-- R42 to R45, R50, R75, R240, R241: the Great Wheel commits the next operation of the context whose turn it is,
loads its slices, steps its wavefronts, each counted, and completes it. -/
def Obligations.WheelOperationsRun : Prop :=
  (∀ (s u : State) (id : Nat) (o : GwOp), dwrr s (2 ^ 64) = some (u, id, o) →
    o.phase = .eligible ∧ (id, o) ∈ s.gw.ops ∧ u.sched.cur = o.ctx ∧
    ∀ p ∈ s.gw.ops, p.2.phase = .eligible → p.2.ctx = o.ctx → o.eligAt ≤ p.2.eligAt) ∧
  (∀ (s u : State) (id : Nat) (o : GwOp), atSelection (wakeTemplates s) = true → dwrr (wakeTemplates s) (2 ^ 64) = some (u, id, o) →
    let g := rfld (wakeTemplates s) Reg.GW_SPARE_USE 15 5
    g ≠ 0 → ∃ t o', exec .gwSelect s = .next t ∧ gwOp t id = some o' ∧ o'.groups = rfld u Reg.GW_SPARE_USE 15 5 ∧
      (o.m ≠ 0 → t.gw.sel = some id ∧ o'.phase = .selected) ∧ (o.m = 0 → t.gw.sel = u.gw.sel ∧ o'.phase = .ended) ∧
      (∀ k, k ≠ id → gwOp t k = gwOp u k) ∧ (∀ m, modelOf u o.model = some m → modelOf t o.model = some { m with recency := u.ba.clock + 1 })) ∧
  (∀ (s u : State) (id : Nat) (o : GwOp) (q : GwPos) (pm : PageMap) (bad : List Nat), loadCand s = some (id, o, q) → sliceIn s o q = true →
    laneMem s (gwWho o 3) (laneAccs (((scaleReads s o q).map (fun x => pageCuts x.1 x.2 0)).flatten)) = .go u pm bad →
    ∃ t o' sl, exec .sliceLoad s = .next t ∧ gwOp t id = some o' ∧ o'.shadow = some sl ∧ o'.loadsDone = (nextSlice o q).isNone ∧
      sl.mt = q.mt ∧ sl.sg = q.sg ∧ sl.p = q.p ∧ sl.j = q.j ∧ (rKind o.oprec ≠ 4 → sl.elems.length = 512 * (sliceCols o q.sg q.j).2) ∧
      (∀ k, k ≠ id → gwOp t k = gwOp s k)) ∧
  (∀ (s : State) (id g : Nat) (o : GwOp), s.gw.run = some id → gwOp s id = some o →
    (0 < o.gap → ∃ t o', exec (.wavefront 0 g) s = .next t ∧ gwOp t id = some o' ∧ o'.w = o.w + 1 ∧ o'.gap = o.gap - 1 ∧
      getWide t Reg.GW_TICKS_LO = (getWide s Reg.GW_TICKS_LO + 1) % 2 ^ 64 ∧ (∀ k, k ≠ id → gwOp t k = gwOp s k) ∧
      (if o.gap = 1 ∧ o.drained = true then t.gw.run = none ∧ o'.phase = .ended else t.gw.run = some id ∧ o'.phase = o.phase)) ∧
    (o.gap = 0 → 0 < o.pos.sub → ∃ t, exec (.wavefront 0 g) s = .next t ∧
      gwOp t id = some { advance o with w := o.w + 1 } ∧ (∀ k, k ≠ id → gwOp t k = gwOp s k) ∧
      getWide t Reg.GW_TICKS_LO = (getWide s Reg.GW_TICKS_LO + 1) % 2 ^ 64) ∧
    (∀ u v, o.gap = 0 → o.pos.sub = 0 → feedReady s id o o.pos = (u, true) → outReady u o o.pos = (v, true) → loadReady o = true →
      ∃ t o', exec (.wavefront 0 g) s = .next t ∧ gwOp t id = some o' ∧ o'.w = o.w + 1 ∧ o'.ran = Nat.max o.ran (vecNo o o.pos + 1)) ∧
    (∀ u, o.gap = 0 → o.pos.sub = 0 → feedReady s id o o.pos = (u, false) →
      ∃ t, exec (.wavefront 0 g) s = .next t ∧ t.gw.stall = 1 ∧
        rfld t Reg.GW_STALL_FEED 0 32 = satTo (2 ^ 32 - 1) (rfld u Reg.GW_STALL_FEED 0 32 + 1))) ∧
  (∀ (s : State) (op : Nat) (o : GwOp), gwOp s op = some o → opEnds s o = true →
    (o.ran = 0 ∨ (spoiledCols o = [] ∧ overlapRuns s o = [])) →
    (∀ d x, o.desc = some d → AtEngine s d Op.WHEEL_OP x →
      (o.compl = 0 → Completes (.gwOperationComplete op) s (dropOp s op) d x (opStatus s o)) ∧
      (o.compl ≠ 0 → ∃ t, exec (.gwOperationComplete op) s = .next t ∧ gwOp t op = none ∧
        (tfind t.esc.descs d = none ∨ ∃ y, tfind t.esc.descs d = some y ∧ y.phase = .finished ∧
          y.record = some (o.compl, opRecord s o (opStatus s o)) ∧ y.status = finalStatus s x (opStatus s o)))) ∧
    (∀ p, o.desc = none → o.compl = 0 → passOf s o.pass = some p → ∃ t, exec (.gwOperationComplete op) s = .next t ∧ gwOp t op = none ∧
      passOf t o.pass = some (if lastOfUnit o p = true ∧ p.phase = .run then { p with netUnits := p.netUnits ++ [o.unit] } else p)))

/-- R46, R49 to R53, R55: pattern tests, spare tests, repair by a spare, degradation once no spare is left, FORGET and
the rate sample. -/
def Obligations.WheelIsTestedAndRepaired : Prop :=
  (∀ (s : State) (pass : Bool), s.gw.run = none → testDue s = true → fnNotReady s Fun.GREAT_WHEEL = false → activeGroups s ≠ 0 →
    let l := s.gw.testGroup % activeGroups s
    ∃ t, exec (.patternTest pass) s = .next t ∧ tget 0 t.time.last 1 = s.time.dev ∧ t.gw.stepped = s.gw.stepped + 1024 ∧
      t.gw.testGroup = (l + 1) % activeGroups s ∧ t.gw.ops = s.gw.ops ∧ getWide t Reg.GW_TICKS_LO = getWide s Reg.GW_TICKS_LO ∧
      (pass = true → t.gw.faulty = s.gw.faulty) ∧
      (pass = false → l ∈ t.gw.faulty ∧ (∀ k, k ∈ t.gw.faulty ↔ k ∈ s.gw.faulty ∨ k = l) ∧ (l ∉ s.gw.faulty → rbit t Reg.GW_ERR 0 = true))) ∧
  (∀ (s : State) (p : Nat), p ∈ gwSpares s →
    ∃ t, exec (.spareTestFailure p) s = .next t ∧ (∀ q, q < 32 → groupRetired t q = (groupRetired s q || q == p)) ∧ rbit t Reg.GW_ERR 0 = true ∧
      t.bu.dirty = true ∧ (∀ l, physOf t l = physOf s l) ∧ activeGroups t = activeGroups s ∧
      t = { s with regs := t.regs, bu := { s.bu with dirty := true } }) ∧
  (∀ (s : State) (pass : Bool) (l : Nat), s.gw.run = none → lowFaulty s = some l → l < 16 →
    ∃ t, exec (.groupRepair pass) s = .next t ∧ t.bu.dirty = true ∧
      (∀ sp rest, gwSpares s = sp :: rest → pass = true →
        physOf t l = sp ∧ (∀ k, k < 16 → k ≠ l → physOf t k = physOf s k) ∧ groupRetired t (physOf s l) = true ∧
        activeGroups t = activeGroups s ∧ t.gw.faulty = s.gw.faulty.filter (· != l)) ∧
      (∀ sp rest, gwSpares s = sp :: rest → pass = false →
        groupRetired t sp = true ∧ t.gw.faulty = s.gw.faulty ∧ ∀ k, physOf t k = physOf s k) ∧
      (gwSpares s = [] →
        let live := (List.range Config.gwPhys).filter (fun p => !groupRetired s p && p != physOf s l)
        activeGroups t = live.length ∧ (∀ k, k < 16 → physOf t k = live.getD k 0x1F) ∧ rbit t Reg.GW_SPARE_USE 20 = true ∧
        (live = [] → (fnOf t Fun.GREAT_WHEEL).st ≠ .up))) ∧
  (∀ (s : State) (val : Word), Reaches s Reg.GW_REPAIR_CTRL →
    ∃ t, exec (.forget val) s = .next t ∧ (bit val 0 = false → t = s) ∧
      (bit val 0 = true → gwIdle s = false → rbit t Reg.GW_ERR 3 = true ∧ t = { s with regs := t.regs }) ∧
      (bit val 0 = true → gwIdle s = true → rfld t Reg.GW_SPARE_USE 0 10 = 0 ∧ rfld t Reg.GW_SPARE_USE 10 22 = rfld s Reg.GW_SPARE_USE 10 22 ∧
        t.bu.dirty = true ∧ t.bu.forgot = s.bu.forgot ||| 1 ∧ t = { s with regs := t.regs, bu := t.bu })) ∧
  (∀ (s : State) (n : Nat), isDue s 5 1000000 = true →
    ∃ t, exec (.gwRateSample n) s = .next t ∧ rfld t Reg.GW_RATE 0 16 = satTo 0xFFFF (if n = 0 then 0 else s.gw.stepped * 1000 / n) ∧
      t.gw = { s.gw with stepped := 0 } ∧ tget 0 t.time.last 5 = s.time.dev)

/-- R84, R85, R91 to R93, R96 to R98: models are admitted at the head of the fill order, filled block by block,
failed, held and shared; a frame with an error of its memory is tested and retired. -/
def Obligations.BarrelAdmitsAndFills : Prop :=
  (∀ (s : State) (id : Nat) (d : Desc), AtEngine s id Op.MODEL_LOAD d → (∀ p ∈ s.ba.loads, p.1 ≠ id) → leAt d.bytes 0x18 8 = 0 →
    let w := leAt d.bytes 0x10 4
    let i := w % 4096
    let pin := natBits w 12 1 == 1
    if natBits w 13 19 ≠ 0 ∨ leAt d.bytes 0x14 4 ≠ 0 ∨ leAt d.bytes 0x20 32 ≠ 0 then Completes (.modelLoadDescriptor id) s s id d St.BAD_OPERAND
    else match modelOf s i with
      | none => Completes (.modelLoadDescriptor id) s s id d St.BAD_MODEL
      | some m =>
        if m.ctx ≠ d.ctx then Completes (.modelLoadDescriptor id) s s id d St.BAD_MODEL
        else (pin = true → ctxPinned s m.ctx + (if m.pinned = true then 0 else m.blocks) ≤ (ctxOf s m.ctx).quota) →
          (isResident m = true → Completes (.modelLoadDescriptor id) s (setModel s i { m with pinned := m.pinned || pin }) id d St.SUCCESS) ∧
          (isResident m = false → ∃ t, exec (.modelLoadDescriptor id) s = .next t ∧ (id, i) ∈ t.ba.loads ∧ (∃ a ∈ t.ba.queue, a.model = i) ∧
            modelOf t i = some { m with pinned := m.pinned || pin, failed := false } ∧ t = { s with ba := t.ba })) ∧
  (∀ (s : State) (a : Adm) (rest : List Adm) (m : Model), s.ba.queue = a :: rest → a.filling = false → a.waiting = false →
    modelOf s a.model = some m → admFence s m.ctx = none →
    let room := (ctxOf s m.ctx).quota - ctxFrames s m.ctx
    let vs := victims s m.ctx a.model
    let sum := fun (l : List (Nat × Model)) => l.foldl (fun x p => x + p.2.resident) 0
    ∃ t, exec .admission s = .next t ∧
      (ctxFrames s m.ctx + m.blocks ≤ (ctxOf s m.ctx).quota → t.ba.frames = s.ba.frames ∧
        modelOf t a.model = some { m with recency := s.ba.clock + 1, startCount := m.count }) ∧
      (ctxFrames s m.ctx + m.blocks ≤ (ctxOf s m.ctx).quota ∨ m.blocks ≤ room + sum (vs.filter (fun p => !held s p.1)) →
        (∃ b l, t.ba.queue = b :: l ∧ b.model = a.model ∧ b.filling = true) ∧
        ∀ k, held s k = true → k ≠ a.model → modelOf t k = modelOf s k) ∧
      (room + sum vs < m.blocks → ∀ b ∈ t.ba.queue, b.model ≠ a.model)) ∧
  (∀ (s : State), (∀ a rest, s.ba.queue = a :: rest → a.waiting = false) →
    ∃ t, exec .holdEndAdmissionResume s = .next t ∧ t.ba.queue = s.ba.queue ∧ t.ba.freeAtHoldEnd = s.ba.freeAtHoldEnd.filter (held s) ∧
      (∀ i ∈ s.ba.freeAtHoldEnd, held s i = false → modelOf s i ≠ none → ∀ p ∈ t.ba.frames, p.2.model ≠ i + 1)) ∧
  (∀ (s : State) (a : Adm) (rest : List Adm) (m : Model), s.ba.queue = a :: rest → a.waiting = true → modelOf (releaseHeld s) a.model = some m →
    admFence (releaseHeld s) m.ctx = none → ctxFrames (releaseHeld s) m.ctx + m.blocks ≤ (ctxOf s m.ctx).quota →
    ∃ t b l, exec .holdEndAdmissionResume s = .next t ∧ t.ba.queue = b :: l ∧ b.model = a.model ∧ b.filling = true ∧ b.waiting = false) ∧
  (∀ (s : State) (a : Adm) (rest : List Adm) (m : Model), s.ba.queue = a :: rest → a.filling = true → a.failed = none →
    modelOf s a.model = some m → admFence s m.ctx = none → m.compressed = false →
    let va := m.image + m.blocksOff + 131072 * m.resident
    (∀ u pm f, prepare s { stream := 4, ctx := m.ctx, eng := 0 } [{ va := va, len := 131072, kind := 0 }] = .ok u pm →
      vaPoison u pm va 131072 = 0 → lowFrame u = some f →
      ∃ t m', exec .blockResident s = .next t ∧ (frameOf t f).model = a.model + 1 ∧ (frameOf t f).block = m.resident ∧
        (∀ k, k ≠ f → frameOf t k = frameOf s k) ∧ memRd t.ba.bytes (f * 131072) 131072 = vaRd u false pm va 131072 ∧
        modelOf t a.model = some m' ∧ m'.resident = m.resident + 1 ∧ m'.count = m.count + 1 ∧
        (m.resident + 1 = m.blocks → ∀ b ∈ t.ba.queue, b.model ≠ a.model)) ∧
    (∀ u c, prepare s { stream := 4, ctx := m.ctx, eng := 0 } [{ va := va, len := 131072, kind := 0 }] = .fault u c →
      ∃ t b l, exec .blockResident s = .next t ∧ t.ba.queue = b :: l ∧ b.model = a.model ∧ b.failed = some 1)) ∧
  (∀ (s : State) (a : Adm) (rest : List Adm) (c : Nat), s.ba.queue = a :: rest → a.failed = some c →
    ∃ t, exec .loadFailure s = .next t ∧ (∀ b ∈ t.ba.queue, b.model ≠ a.model) ∧
      (∀ m, modelOf s a.model = some m → ∃ m', modelOf t a.model = some m' ∧ m'.failed = true)) ∧
  (∀ (s : State) (f word op : Nat) (pass : Bool),
    (∃ t, exec (.barrelEccError f word false pass op) s = .next t ∧ t.ba = s.ba ∧
      rfld t Reg.BA_ECC_CORRECTED 0 32 = satTo (2 ^ 32 - 1) (rfld s Reg.BA_ECC_CORRECTED 0 32 + 1)) ∧
    (∃ t, exec (.barrelEccError f word true pass op) s = .next t ∧ (frameOf t f).dbl = true ∧
      (∀ o, gwOp s op = some o → ∃ o', gwOp t op = some o' ∧ o'.fails = o.fails ++ [St.BARREL_ECC]) ∧
      ((pass = false ∨ (frameOf s f).dbl = true) → (frameOf s f).retired = false →
        (frameOf t f).retired = true ∧ (frameOf t f).model = 0 ∧ t.bu.dirty = true ∧
        rfld t Reg.BA_HEALTHY 0 12 = rfld s Reg.BA_HEALTHY 0 12 - 1 ∧
        ∀ i m, (frameOf s f).model = i + 1 → modelOf s i = some m → (ctxOf t m.ctx).quota = (ctxOf s m.ctx).quota - 1))) ∧
  (∀ (s : State) (id : Nat) (p : RPass), passOf s id = some p → p.phase = .share → fenceStatus s p.ctx (16 + p.lead) = none →
    (∀ x ∈ s.ba.shares, x.1 ≠ id) →
    let ms := passModels s p
    ms.foldl (fun a i => a + ((modelOf s i).map (·.blocks)).getD 0) 0 +
      ((ctxModels s p.ctx).filter (fun x => x.2.pinned && !ms.contains x.1)).foldl (fun a x => a + x.2.blocks) 0 ≤ (ctxOf s p.ctx).quota →
    (∀ i ∈ ms, ∀ m, modelOf s i = some m → m.failed = false) →
    ∃ t, exec (.barrelShare id) s = .next t ∧ (∀ i ∈ ms, (id, i) ∈ t.ba.shares) ∧
      (∀ i ∈ ms, ∀ m, modelOf s i = some m → isResident m = false → ∃ a ∈ t.ba.queue, a.model = i) ∧
      passOf t id = some (if ms.all (fun i => ((modelOf s i).map isResident).getD true) = true then { p with phase := .claim } else p))

/-- R103, R104, R110, R114 to R116: accesses of the Plate by partition slot, the release and replacement of granules,
claims, the release of rows, and errors of the Plate's memory. -/
def Obligations.PlateServesItsPartitions : Prop :=
  (∀ (s : State) (c slot off : Nat) (data : List Byte),
    (∀ p, plateSlot s c slot = .ok p →
      (∃ t, exec (.plateAccess c slot off false data) s = .next t ∧
        t.pl.rdata = memRd s.pl.bytes (p * 16384 + off) (Nat.min data.length (16384 - off)) ∧
        t = { s with pl := { s.pl with rdata := t.pl.rdata, rstat := 0 } }) ∧
      (∃ t, exec (.plateAccess c slot off true data) s = .next t ∧
        (∀ a, tget 0 t.pl.bytes a = if p * 16384 + off ≤ a ∧ a < p * 16384 + off + Nat.min data.length (16384 - off)
          then data.getD (a - (p * 16384 + off)) 0 else tget 0 s.pl.bytes a) ∧
        t = { s with pl := { s.pl with bytes := t.pl.bytes, rstat := 0 } })) ∧
    (∀ e w, plateSlot s c slot = .error e → ∃ t, exec (.plateAccess c slot off w data) s = .next t ∧ t.pl.bytes = s.pl.bytes ∧ t.pl.rstat = e ∧
      (e = St.PLATE_RANGE → rbit t Reg.PL_ERR 1 = true) ∧ (e = St.PLATE_UNBACKED → rbit t Reg.PL_ERR 4 = true) ∧
      (e = St.PLATE_FOREIGN → rbit t Reg.PL_ERR 0 = true ∧
        rfld t Reg.PL_VIOL_COUNT 0 32 = satTo (2 ^ 32 - 1) (rfld s Reg.PL_VIOL_COUNT 0 32 + 1)))) ∧
  (∀ (s : State) (c j : Nat) (x : Job), partJob s c = some (j, x) →
    let l := (ctxOf s c).granules
    x.arg < l.length → claimed s c (l.length - 1) = false →
    ∃ t, exec (.granuleRelease c) s = .next t ∧ (ctxOf t c).granules = l.dropLast ∧ (∀ k, k ≠ c → ctxOf t k = ctxOf s k) ∧
      (∀ g, l.getLastD none = some g → (granOf t g).owner = 0) ∧ (∀ k, l.getLastD none ≠ some k → granOf t k = granOf s k) ∧
      (jobOf t j).done = x.done + 1 ∧ rfld t Reg.PL_FREE 0 8 = (freeGrans t).length) ∧
  (∀ (s : State) (c i g : Nat), let l := (ctxOf s c).granules
    l[i]? = some (some g) → (granOf s g).retired = true → claimed s c i = false →
    (∀ j h, j < i → l[j]? = some (some h) → (granOf s h).retired = false ∨ claimed s c j = true) →
    ∃ t, exec (.granuleReplacement c) s = .next t ∧ (granOf t g).owner = 0 ∧
      (∀ f fs, freeGrans s = f :: fs → (ctxOf t c).granules = l.set i (some f) ∧ (granOf t f).owner = c + 1 ∧
        (∀ a, tget 0 t.pl.bytes a = if a / 262144 = f then 0 else tget 0 s.pl.bytes a)) ∧
      (freeGrans s = [] → (ctxOf t c).granules = l.set i none)) ∧
  (∀ (s : State) (phys word desc : Nat) (pass : Bool), let g := phys / 16
    let line := phys * 16384 + word * 8 / 1024 * 1024
    (∃ t, exec (.plateEccError phys word false pass desc) s = .next t ∧ t.pl = s.pl ∧
      rfld t Reg.PL_ECC_CORRECTED 0 32 = satTo (2 ^ 32 - 1) (rfld s Reg.PL_ECC_CORRECTED 0 32 + 1)) ∧
    (∃ t, exec (.plateEccError phys word true pass desc) s = .next t ∧ (granOf t g).dbl = true ∧
      (∀ a, tget 0 t.pl.bytes a = if line ≤ a ∧ a < line + 1024 then 0 else tget 0 s.pl.bytes a) ∧
      ((pass = false ∨ (granOf s g).dbl = true) → (granOf s g).retired = false →
        (granOf t g).retired = true ∧ t.bu.dirty = true ∧ rbit t Reg.PL_ERR 3 = true ∧ rfld t Reg.PL_HEALTHY 0 8 = healthyGrans t) ∧
      (pass = true → (granOf s g).dbl = false → (granOf t g).retired = (granOf s g).retired))) ∧
  (∀ (s : State) (id : Nat) (p : RPass), passOf s id = some p → p.phase = .claim → fenceStatus s p.ctx (16 + p.lead) = none →
    let ops := passOps s p.ctx p.nets
    (∀ b ∈ p.imgs, (Img.range b).2 < 16 * (ctxOf s p.ctx).granules.length) →
    ringsOk p.imgs p.bw (imgsWritten ops) (imgsNbr p.imgs ops) = true →
    exec (.plateClaim id) s = .next (setPass { s with pl := { s.pl with
      claims := s.pl.claims ++ [{ ctx := p.ctx, pass := id, ranges := p.imgs.map Img.range }] } } id
      { p with phase := if p.heap = 0 then .run else .open, final := decide (p.heap = 0) })) ∧
  (∀ (s : State) (id k : Nat) (p : RPass), passOf s id = some p → p.phase = .run → p.final = true →
    let nbr := imgsNbr p.imgs (passOps s p.ctx p.nets)
    let r := tget 0 p.relRows k
    let b : Img := p.imgs.getD k []
    firstFrom (fun k => Img.external (p.imgs.getD k []) && decide (tget 0 p.relRows k < p.gy) && rowFree p nbr k (tget 0 p.relRows k)) 0 p.imgs.length = some k →
    ∃ t, exec (.rowRelease id) s = .next t ∧ passOf t id = some { p with relRows := tset p.relRows k (r + 1) } ∧
      (evOwned s p.ctx (Img.relEvent b) = true →
        Recorded (evOf s (Img.relEvent b)) (evOf t (Img.relEvent b)) (.set false ((Img.relBase b + r + 1) % 2 ^ 63))))

/-- R121, R124 to R129: the Binner opens a pass whose records are sound, bins its batches stage by stage, closes and
parks its segments, and takes a parked pass up again once its release has come. -/
def Obligations.BinnerBinsPasses : Prop :=
  (∀ (s : State) (id : Nat) (d : Desc), AtEngine s id Op.BIN_PASS d → binOf s id = none → s.ra.bins.length < 8 →
    let b := d.bytes
    let g := gridOf (natBits (leAt b 0x10 4) 30 2) (leAt b 0x14 2) (leAt b 0x16 2)
    let c := Instr.binPass id
    if binBodyOk b = false then Completes c s s id d St.BAD_BIN_PASS
    else if 4096 * leAt b 0x38 4 < heapMin (g.1 * g.2) then Completes c s (setFlag s Reg.BN_ERR 1 true) id d St.HEAP_TOO_SMALL
    else if evOwned s d.ctx (leAt b 0x10 2) = false ∨ evOwned s d.ctx (leAt b 0x24 2) = false then Completes c s s id d St.BAD_EVENT
    else
      let rd := fun (a k : Nat) => ({ va := a, len := k, kind := 0 } : Acc)
      let heap := leAt b 0x30 8
      let first := [rd (leAt b 0x18 8) (64 * leAt b 0x20 4), rd heap 16]
      ∀ s1 m1 s2 m2 s3 m3, prepare s (binWho d) first = .ok s1 m1 →
        let draws := (List.range (leAt b 0x20 4)).map (fun i => vaRd s1 false m1 (leAt b 0x18 8 + 64 * i) 64)
        let stVa := fun (i : Nat) => leAt b 0x28 8 + 64 * i
        let second := first ++ (drawStates draws).map (fun i => rd (stVa i) 64) ++ draws.map (fun x => rd (drProg x) 64)
        prepare s (binWho d) second = .ok s2 m2 →
        let states : Tbl (List Byte) := (drawStates draws).foldl (fun t i => tset t i (vaRd s2 false m2 (stVa i) 64)) []
        prepare s (binWho d) (second ++ states.map (fun p => rd (stProg p.2) 64)) = .ok s3 m3 →
        draws.all drawOk = true → states.all (fun p => stateOk p.2) = true →
        (∀ x ∈ draws, progOk (vaRd s3 false m3 (drProg x) 64) 1 (4 + 4 * drVary x) = true ∧
          progOk (vaRd s3 false m3 (stProg (tget [] states (drState x))) 64) 2 (fragRegs (tget [] states (drState x)) (drVary x)) = true) →
        ∃ t p, exec c s = .next t ∧ binOf t id = some p ∧ p.ctx = d.ctx ∧ p.draws = draws ∧ p.states = states ∧ p.heap = heap ∧
          p.segBase = leNat (vaRd s3 false m3 heap 8) ∧ p.relBase = leNat (vaRd s3 false m3 (heap + 8) 8) ∧ p.parked = false ∧
          (∀ k, k ≠ id → binOf t k = binOf s k)) ∧
  (∀ (s : State) (id : Nat) (p : BinPass), binNext s = some (id, p) → engineFence s 1 = none →
    let w : Who := { stream := 6, ctx := p.ctx, eng := 1, ring := some p.ring }
    let wr := fun (ws : List (Nat × List Byte)) => ws.map (fun x => ({ va := p.heap + x.1, len := x.2.length, kind := 1 } : Acc))
    let n := nextPrim p.draws p.draw p.inst p.prim (p.draws.length + 1)
    (p.shaded = none → p.bPrims ≠ [] → (∀ g ∈ p.bWgs, ∀ x, wgOf s g = some x → x.phase = .done) →
      ∃ t, exec .binBatch s = .next t ∧ binOf t id = some { p with shaded := some (collectVerts s p), bWgs := [] } ∧
        (∀ k, k ≠ id → binOf t k = binOf s k)) ∧
    (∀ u m, p.bPrims = [] → p.draws.length ≤ n.1 → prepare s w (wr (closeWrites p true)) = .ok u m →
      ∃ t, exec .binBatch s = .next t ∧ binOf t id = none ∧ ∀ d, AtEngine s id Op.BIN_PASS d →
        ∀ y, tfind t.esc.descs id = some y → y.phase = .finished) ∧
    (p.bPrims = [] → n.1 < p.draws.length →
      let b := p.draws.getD n.1 []
      drIndexed b = false → ∀ u m, prepare s { stream := 5, ctx := p.ctx, eng := 1, ring := some p.ring }
        [{ va := drProg b, len := 64, kind := 0 }] = .ok u m →
      ∃ t q, exec .binBatch s = .next t ∧ binOf t id = some q ∧ q.bDraw = n.1 ∧ q.bInst = n.2.1 ∧ q.shaded = none ∧
        q.bPrims.length = Nat.min 1024 (drPrims b - n.2.2) ∧ q.prim = n.2.2 + q.bPrims.length) ∧
    (∀ vs num l rest u m, p.shaded = some vs → p.bPrims = (num, l) :: rest →
      let a := addPrim p (segMapOf s p.ctx p.heap) vs num l
      (a.1.p.chunkBytes + a.1.p.recBytes ≤ p.heapBytes - dynBase p.tiles → prepare s w (wr a.1.writes) = .ok u m →
        ∃ t q, exec .binBatch s = .next t ∧ binOf t id = some q ∧ q.bPrims = rest ∧ q.prims = a.1.p.prims ∧ q.lists = a.1.p.lists ∧
          q.triIn = satTo 0xFFFFFFFF (p.triIn + a.2.1) ∧ q.culled = satTo 0xFFFFFFFF (p.culled + a.2.2)) ∧
      (p.heapBytes - dynBase p.tiles < a.1.p.chunkBytes + a.1.p.recBytes → prepare s w (wr (closeWrites p false)) = .ok u m →
        ∃ t, exec .binBatch s = .next t ∧ binOf t id = some { p with parked := true }))) ∧
  (∀ (s : State) (id : Nat) (p : BinPass), binOf s id = some p → p.parked = true → fenceStatus s p.ctx 1 = none →
    ∃ t, exec (.binnerUnpark id) s = .next t ∧
      match awaitEv s 2 id 0 p.ctx p.relEvent ((p.relBase + p.seg + 1) % 2 ^ 63) with
      | (u, .pending) => t = u ∧ binOf t id = some p
      | (_, .met) => binOf t id = some { p with
          parked := false, seg := p.seg + 1, chunkBytes := 0, recBytes := 0, prims := 0, verts := 0, lists := [], written := [] }
      | (_, .err) => (∀ d, tfind s.esc.descs id = some d → hIgnErr d.bytes = false) → binOf t id = none
      | (_, .gone) => binOf t id = none)

/-- R109, R110, R119, R120, R122, R123, R129 to R132: a render pass is opened, its segments read, its units handed out
and carried through their stages, its heap drained after a failure, and it completes. -/
def Obligations.RenderPassesRun : Prop :=
  (∀ (s : State) (id : Nat) (d : Desc), AtEngine s id Op.RENDER_PASS d → passOf s id = none →
    let b := d.bytes
    let w1 := leAt b 0x14 4
    (passBodyOk b (d.eng - 16) = false → Completes (.renderPass id) s s id d St.BAD_RENDER_PASS) ∧
    (passBodyOk b (d.eng - 16) = true → ∀ u bs,
      readChain s (teWho d.ctx (d.eng - 16) d.ring) []
        [(leAt b 0x18 8, 64 * (natBits w1 24 8 + 1)), (leAt b 0x20 8, 32 * natBits w1 19 5), (leAt b 0x28 8, 32 * natBits w1 15 4)] = .ok u bs →
      let imgs := cutRecs 64 (bs.getD 0 [])
      let atts := cutRecs 32 (bs.getD 1 [])
      let nets := cutRecs 32 (bs.getD 2 [])
      nets.all neOk = true → (∀ i ∈ imgs, Img.ok i (natBits (leAt b 0x10 4) 28 2) = true) → gridOk imgs = true →
      leAt b 0x10 2 ≤ Img.gx (imgs.headD []) → attachTableOk imgs (imgsWritten (passOps u d.ctx nets)) atts = true →
      (∀ p ∈ u.ra.bins, p.2.ctx = d.ctx → p.2.heap = leAt b 0x30 8 → heapMin (Img.gx (imgs.headD []) * Img.gy (imgs.headD [])) ≤ p.2.heapBytes) →
      ∃ t p, exec (.renderPass id) s = .next t ∧ passOf t id = some p ∧ p.phase = .share ∧ p.ctx = d.ctx ∧ p.lead = d.eng - 16 ∧
        p.imgs = imgs ∧ p.atts = atts ∧ p.nets = nets ∧ p.heap = leAt b 0x30 8 ∧ p.spill = leAt b 0x38 8 ∧ p.bw = leAt b 0x10 2 ∧
        (∀ k, k ≠ id → passOf t k = passOf s k))) ∧
  (∀ (s : State) (te : Nat), tfind s.ra.units te = none → te < Config.trains s.fuse.variant → fnNotReady s Fun.TILE_ENGINES = false →
    engineFence s (16 + te) = none →
    let can := fun (x : Nat × RPass) => x.2.phase = .run ∧ natBits x.2.mask te 1 = 1 ∧ x.2.nextUnit < unitCount x.2 ∧ unitReady s x.2 = true
    ((∀ x ∈ s.ra.passes, ¬can x) → exec (.unitHandout te) s = .next s) ∧
    ((∃ x ∈ s.ra.passes, can x) → ∃ t x, exec (.unitHandout te) s = .next t ∧ x ∈ s.ra.passes ∧ can x ∧
      (∀ y ∈ s.ra.passes, can y → x.2.age ≤ y.2.age) ∧ tfind t.ra.units te = some { pass := x.1, unit := x.2.nextUnit } ∧
      passOf t x.1 = some { x.2 with nextUnit := x.2.nextUnit + 1 } ∧ t = { s with ra := { s.ra with passes := t.ra.passes, units := t.ra.units } })) ∧
  (∀ (s : State) (te : Nat) (u : TUnit) (p : RPass), tfind s.ra.units te = some u → passOf s u.pass = some p →
    let i := (unitTiles p u.unit).getD u.t 0
    let g : Eng := { e := te, u := u, id := u.pass, p := p, i := i }
    ∃ t, exec (.tileProcess te) s = .next t ∧
      (p.phase ≠ .run → tfind t.ra.units te = none) ∧
      (p.phase = .run → u.stage = .shade → u.wgs = [] → u.todo = [] → tfind t.ra.units te = some { u with stage := .resolve }) ∧
      (p.phase = .run → u.stage = .resolve → p.final = false → u.t + 1 < (unitTiles p u.unit).length →
        tfind t.ra.units te = some { u with t := u.t + 1, stage := .load, todo := [], win := [] }) ∧
      (p.phase = .run → u.stage = .resolve → p.final = false → (unitTiles p u.unit).length ≤ u.t + 1 →
        passOf t u.pass = some { p with rastUnits := p.rastUnits ++ [u.unit] } ∧
        tfind t.ra.units te = some { u with t := 0, stage := .store, todo := [], win := [] }) ∧
      (p.phase = .run → u.stage = .network → engineFence s (16 + te) = none → p.nets = [] →
        passOf t u.pass = some { p with netUnits := p.netUnits ++ [u.unit] } ∧ tfind t.ra.units te = some { u with stage := .store }) ∧
      (∀ v m, p.phase = .run → u.stage = .store → engineFence s (16 + te) = none → p.final = false →
        prepare s g.who ((spillWrites s g).map (fun x => { va := x.1, len := x.2.length, kind := 1 })) = .ok v m →
        if u.t + 1 < (unitTiles p u.unit).length then tfind t.ra.units te = some { u with t := u.t + 1 }
        else tfind t.ra.units te = none ∧ passOf t u.pass = some { p with doneUnits := p.doneUnits ++ [u.unit] })) ∧
  (∀ (s : State) (id : Nat) (p : RPass), passOf s id = some p → engineFence s (16 + p.lead) = none →
    (p.phase = .run → unitCount p ≤ p.doneUnits.length → p.heap = 0 → exec (.segmentRead id) s = .next (setPass s id { p with phase := .close })) ∧
    (∀ u bs v, p.phase = .open → readChain s (passWho p) [] [(p.heap, 256)] = .ok u bs →
      let q := takeBlock p (bs.headD [])
      (awaitEv u 3 id 0 p.ctx q.segEvent (segTarget q.segBase q.seg) = (v, .met) → (q.final = true ∨ q.spill ≠ 0) →
        ∃ t, exec (.segmentRead id) s = .next t ∧ passOf t id = some { q with phase := .run }) ∧
      (awaitEv u 3 id 0 p.ctx q.segEvent (segTarget q.segBase q.seg) = (v, .pending) →
        ∃ t, exec (.segmentRead id) s = .next t ∧ passOf t id = some { q with final := false }))) ∧
  (∀ (s : State) (id : Nat) (p : RPass), passOf s id = some p → p.phase = .drain →
    (∀ u, readChain s (passWho p) [] [(p.heap, 256)] = .fault u →
      ∃ t, exec (.heapDrain id) s = .next t ∧ passOf t id = some { p with phase := .close }) ∧
    (∀ u bs v, readChain s (passWho p) [] [(p.heap, 256)] = .ok u bs →
      let q := takeBlock p (bs.headD [])
      awaitEv u 3 id 0 p.ctx q.segEvent (segTarget q.segBase q.seg) = (v, .met) →
      ∃ t q', exec (.heapDrain id) s = .next t ∧ passOf t id = some q' ∧ q'.seg = q.seg + 1 ∧ q'.phase = (if q.final = true then .close else .drain) ∧
        (evOwned v p.ctx q.relEvent = true →
          Recorded (evOf v q.relEvent) (evOf t q.relEvent) (.set false (segTarget q.relBase q.seg))))) ∧
  (∀ (s : State) (id : Nat) (p : RPass) (d : Desc), passOf s id = some p → p.phase = .close → (∀ u ∈ s.ra.units, u.2.pass ≠ id) →
    passIssues s id = false → p.heap = 0 → AtEngine s id Op.RENDER_PASS d →
    ∃ t, exec (.renderPassComplete id) s = .next t ∧ passOf t id = none ∧ tfind t.esc.descs id = none ∧
      (∀ x ∈ t.ba.shares, x.1 ≠ id) ∧ (∀ k ∈ t.pl.claims, k.pass ≠ id) ∧ (∀ k, k ≠ id → passOf t k = passOf s k))

/-- R145, R146, R151 to R154, R157: a dispatch is checked and expanded workgroup by workgroup; a Pinion admits from
its own train's queue or steals; a workgroup all of whose beats have ended leaves, and the dispatch completes. -/
def Obligations.DispatchesRun : Prop :=
  (∀ (s : State) (id : Nat) (d : Desc), AtEngine s id Op.DISPATCH d → tfind s.pn.disps id = none → d.indBad = false →
    let w : Who := { stream := 43, ctx := d.ctx, eng := d.eng, ring := some d.ring }
    let u := { s with pn := { s.pn with disps := tdel s.pn.disps id } }
    (dispOk s d = false → leAt d.bytes 0x38 8 = 0 →
      Completes (.dispatch id) s u id d (if d.indFault = true then St.IN_FAULT else St.BAD_DISPATCH)) ∧
    (dispOk s d = true → ∀ v m, prepare s w [{ va := leAt d.bytes 0x10 8, len := 64, kind := 0 }] = .ok v m →
      progOk (vaRd v false m (leAt d.bytes 0x10 8) 64) 0 0 = true →
      let p := progOf (vaRd v false m (leAt d.bytes 0x10 8) 64)
      ∃ t x, exec (.dispatch id) s = .next t ∧ tfind t.pn.disps id = some x ∧ (∀ k, k ≠ id → tfind t.pn.disps k = tfind s.pn.disps k) ∧
        x.ctx = d.ctx ∧ x.ring = d.ring ∧ x.next = 0 ∧ x.ended = 0 ∧ x.code = leAt d.bytes 0x10 8 + 64 ∧ x.vregs = p.vregs ∧ x.codeBytes = p.codeBytes ∧
        x.const = leAt d.bytes 0x18 8 ∧ x.gx = bodyVal d 0x20 4 ∧ x.gy = bodyVal d 0x24 4 % 2 ^ 16 ∧ x.gz = bodyVal d 0x24 4 / 2 ^ 16)) ∧
  (∀ (s : State) (id tr : Nat) (d : Disp), tfind s.pn.disps id = some d → d.next < d.gx * d.gy * d.gz → fnFenced s Fun.PINIONS = false → d.affMode < 3 →
    let n := Config.trains s.fuse.variant
    let key := d.affBase + d.next * d.affStep
    nextTrain s d.trains (if d.affMode = 0 then d.next % n else if d.affMode = 1 then key % n
      else key % Config.plGroups s.fuse.variant * n / Config.plGroups s.fuse.variant) = some tr →
    (256 ≤ queued s tr → exec (.workgroupExpansion id) s = .next s) ∧
    (queued s tr < 256 → ∃ t w, exec (.workgroupExpansion id) s = .next t ∧ wgOf t s.pn.nextWg = some w ∧
      (∀ k, k ≠ s.pn.nextWg → wgOf t k = wgOf s k) ∧ t.pn.nextWg = s.pn.nextWg + 1 ∧ w.phase = .queued ∧ w.kind = 0 ∧ w.owner = id ∧ w.aff = tr ∧
      w.xyz = (d.next % d.gx, d.next / d.gx % d.gy, d.next / d.gx / d.gy) ∧ w.beats.length = ceilDiv (d.wgx * d.wgy * d.wgz) 32 ∧
      tfind t.pn.disps id = some { d with next := d.next + 1 })) ∧
  (∀ (s : State) (train pos id : Nat) (w : Wg), pinionsUp s train = true → pinAdmits s train pos = true →
    (ownCand s train pos = some (id, w) →
      (id, w) ∈ trainQueue s train ∧ wgFits s train pos w = true ∧ ∃ t, exec (.workgroupAdmission train pos) s = .next t ∧
      wgOf t id = some { w with phase := .resident, train := train, pos := pos, admitted := s.pn.admClock + 1 } ∧
      (∀ k, k ≠ id → wgOf t k = wgOf s k) ∧ t = { s with pn := t.pn }) ∧
    (stealDue s train pos = true → stealCand s train pos = some (id, w) →
      stealable train w = true ∧ wgFits s train pos w = true ∧ hasOwnCompute s train pos = false ∧ ∃ t, exec (.workgroupSteal train pos) s = .next t ∧
      wgOf t id = some { w with phase := .resident, train := train, pos := pos, admitted := s.pn.admClock + 1 } ∧
      (∀ k, k ≠ id → wgOf t k = wgOf s k) ∧
      rfld t Reg.PN_STEALS 0 32 = satTo (2 ^ 32 - 1) (rfld s Reg.PN_STEALS 0 32 + 1) ∧
      (∀ d, w.kind = 0 → tfind s.pn.disps w.owner = some d → ∃ e, tfind t.pn.disps w.owner = some e ∧ e.stolen = satTo (2 ^ 32 - 1) (d.stolen + 1)))) ∧
  (∀ (s : State) (id : Nat) (w : Wg), wgOf s id = some w → w.phase = .resident → (∀ b ∈ w.beats, b.active = 0) →
    ∃ t, exec (.workgroupEnd id) s = .next t ∧ (∀ k, k ≠ id → wgOf t k = wgOf s k) ∧
      (w.kind = 0 → wgOf t id = none ∧ ∀ d, tfind s.pn.disps w.owner = some d →
        tfind t.pn.disps w.owner = some { d with ended := d.ended + 1 }) ∧
      (w.kind ≠ 0 → wgOf t id = some { w with phase := .done })) ∧
  (∀ (s : State) (id : Nat) (x : Disp) (d : Desc), tfind s.pn.disps id = some x → x.ended = x.gx * x.gy * x.gz → AtEngine s id Op.DISPATCH d →
    let u := { s with pn := { s.pn with disps := tdel s.pn.disps id } }
    let a := leAt d.bytes 0x38 8
    (a = 0 → Completes (.dispatchComplete id) s u id d d.err) ∧
    (a ≠ 0 → a % 64 = 0 → a < 2 ^ 57 → ∃ t, exec (.dispatchComplete id) s = .next t ∧ tfind t.pn.disps id = none ∧
      ∀ y, tfind t.esc.descs id = some y → y.phase = .finished ∧ y.status = finalStatus s d d.err ∧
        y.record = some (a, dispRecord s (finalStatus s d d.err) x.stolen x.ended x.ticks)))

/-- R168 to R170: errors of a Pinion's memories abandon what it holds, pattern tests drain one Pinion after another,
and a retired Pinion gives way to its train's spare, or its train is fenced. -/
def Obligations.PinionsAreTestedAndRetired : Prop :=
  (∀ (s : State) (train pos : Nat) (pass : Bool),
    (∃ t, exec (.pinionEccError train pos false pass) s = .next t ∧ t = { s with regs := t.regs } ∧
      rfld t Reg.PN_ECC_CORRECTED 0 32 = satTo (2 ^ 32 - 1) (rfld s Reg.PN_ECC_CORRECTED 0 32 + 1)) ∧
    (∃ t, exec (.pinionEccError train pos true pass) s = .next t ∧ (pinionOf t train pos).dbl = true ∧
      (∀ id w, wgOf s id = some w → w.phase = .resident → w.train = train → w.pos = pos →
        if w.kind = 0 then wgOf t id = none else ∃ w', wgOf t id = some w' ∧ w'.phase = .done) ∧
      ((pass = false ∨ (pinionOf s train pos).dbl = true) → (pinionOf s train pos).retired = false →
        (pinionOf t train pos).retired = true ∧ rbit t Reg.PN_ERR 2 = true ∧ t.bu.dirty = true) ∧
      (pass = true → (pinionOf s train pos).dbl = false → (pinionOf t train pos).retired = (pinionOf s train pos).retired))) ∧
  (∀ (s : State) (pass : Bool),
    (∀ n, drainingPin s = none → isDue s 3 (checkInterval s) = true → nextWrap (fun n => pinActive s (n / 9) (n % 9)) s.pn.testNext 108 = some n →
      ∃ t, exec (.pinionPatternTest pass) s = .next t ∧ (pinionOf t (n / 9) (n % 9)).draining = true ∧ tget 0 t.time.last 3 = s.time.dev ∧
        t.pn.testNext = (n + 1) % 108 ∧ t.pn.wgs = s.pn.wgs) ∧
    (∀ tr p, drainingPin s = some (tr, p) → resident s tr p = [] →
      ∃ t, exec (.pinionPatternTest pass) s = .next t ∧ (pinionOf t tr p).draining = false ∧ t.pn.wgs = s.pn.wgs ∧
        (pass = true → (pinionOf t tr p).retired = (pinionOf s tr p).retired) ∧
        (pass = false → (pinionOf t tr p).retired = true ∧ rbit t Reg.PN_ERR 2 = true ∧ t.bu.dirty = true))) ∧
  (∀ (s : State) (train p : Nat), train < Config.trains s.fuse.variant →
    (spareReady s train = true → p < 8 → (pinionOf s train p).retired = true →
      ∃ t, exec (.pinionRetire train) s = .next t ∧ pinActive t train 8 = true ∧ t = { s with pn := { s.pn with pinions := t.pn.pinions }, regs := t.regs }) ∧
    (spareReady s train = false → trainActive s train = 0 → trainFenced s (16 + train) = false →
      ∃ t, exec (.pinionRetire train) s = .next t ∧ trainFenced t (16 + train) = true ∧
        (∀ id w, wgOf s id = some w → w.kind = 2 → w.aff = train → w.phase ≠ .done → ∃ w', wgOf t id = some w' ∧ w'.phase = .done)))

/-- R34, R158: the FP32 arithmetic of the Pinions on its modified sources, rounded once, FMIN and FMAX; and packed
FP16, each half of DST from the same halves of the sources. -/
def Obligations.FloatArithmeticWritesDst : Prop :=
  (
    WritesReg 0x00 .fadd (fun i => [i.dst, i.s0, i.s1])
      (fun _ h l => res32 h.i.mod ((src32 h.i.mod 0 (h.b.reg h.i.s0 l)).add (src32 h.i.mod 1 (h.b.reg h.i.s1 l)))) ∧
    WritesReg 0x01 .fmul (fun i => [i.dst, i.s0, i.s1])
      (fun _ h l => res32 h.i.mod ((src32 h.i.mod 0 (h.b.reg h.i.s0 l)).mul (src32 h.i.mod 1 (h.b.reg h.i.s1 l)))) ∧
    WritesReg 0x02 .ffma (fun i => [i.dst, i.s0, i.s1, i.s2])
      (fun _ h l => res32 h.i.mod (((src32 h.i.mod 0 (h.b.reg h.i.s0 l)).mul (src32 h.i.mod 1 (h.b.reg h.i.s1 l))).add
        (src32 h.i.mod 2 (h.b.reg h.i.s2 l)))) ∧
    WritesReg 0x03 .fmin (fun i => [i.dst, i.s0, i.s1])
      (fun _ h l => res32 h.i.mod (minNum (src32 h.i.mod 0 (h.b.reg h.i.s0 l)) (src32 h.i.mod 1 (h.b.reg h.i.s1 l)))) ∧
    WritesReg 0x04 .fmax (fun i => [i.dst, i.s0, i.s1])
      (fun _ h l => res32 h.i.mod (maxNum (src32 h.i.mod 0 (h.b.reg h.i.s0 l)) (src32 h.i.mod 1 (h.b.reg h.i.s1 l)))) ∧
    WritesReg 0x16 .fdiv (fun i => [i.dst, i.s0, i.s1])
      (fun _ h l => res32 h.i.mod (fdivN fp32 (src32 h.i.mod 0 (h.b.reg h.i.s0 l)) (src32 h.i.mod 1 (h.b.reg h.i.s1 l)))) ∧
    WritesReg 0x17 .fsqrt (fun i => [i.dst, i.s0])
      (fun _ h l => res32 h.i.mod (fsqrtN fp32 (src32 h.i.mod 0 (h.b.reg h.i.s0 l))))) ∧
  (
    let half := fun (h : Here) (l k n : Nat) => src16 h.i.mod n k (h.b.reg (if n = 0 then h.i.s0 else if n = 1 then h.i.s1 else h.i.s2) l)
    let both := fun (h : Here) (f : Nat → Machine.Num) => pack16 (res16 h.i.mod (f 0)) (res16 h.i.mod (f 1))
    WritesReg 0x18 .hadd2 (fun i => [i.dst, i.s0, i.s1]) (fun _ h l => both h (fun k => (half h l k 0).add (half h l k 1))) ∧
    WritesReg 0x19 .hmul2 (fun i => [i.dst, i.s0, i.s1]) (fun _ h l => both h (fun k => (half h l k 0).mul (half h l k 1))) ∧
    WritesReg 0x1A .hfma2 (fun i => [i.dst, i.s0, i.s1, i.s2])
      (fun _ h l => both h (fun k => ((half h l k 0).mul (half h l k 1)).add (half h l k 2))) ∧
    WritesReg 0x1B .hmin2 (fun i => [i.dst, i.s0, i.s1]) (fun _ h l => both h (fun k => minNum (half h l k 0) (half h l k 1))) ∧
    WritesReg 0x1C .hmax2 (fun i => [i.dst, i.s0, i.s1]) (fun _ h l => both h (fun k => maxNum (half h l k 0) (half h l k 1))))

/-- R35, R158: the approximate instructions write what the model's frcpNum, frsqNum and approxNum give of the modified
source (free values, assumption log 21), modified in turn as the instruction says. -/
def Obligations.ApproximationsWriteDst : Prop :=
  WritesReg 0x10 .frcp (fun i => [i.dst, i.s0]) (fun _ h l => res32 h.i.mod (frcpNum (enc32 (src32 h.i.mod 0 (h.b.reg h.i.s0 l))))) ∧
  WritesReg 0x11 .frsq (fun i => [i.dst, i.s0]) (fun _ h l => res32 h.i.mod (frsqNum (enc32 (src32 h.i.mod 0 (h.b.reg h.i.s0 l))))) ∧
  WritesReg 0x12 .fexp2 (fun i => [i.dst, i.s0]) (fun _ h l => res32 h.i.mod (approxNum 0x12 (enc32 (src32 h.i.mod 0 (h.b.reg h.i.s0 l))))) ∧
  WritesReg 0x13 .flog2 (fun i => [i.dst, i.s0]) (fun _ h l => res32 h.i.mod (approxNum 0x13 (enc32 (src32 h.i.mod 0 (h.b.reg h.i.s0 l))))) ∧
  WritesReg 0x14 .fsin (fun i => [i.dst, i.s0]) (fun _ h l => res32 h.i.mod (approxNum 0x14 (enc32 (src32 h.i.mod 0 (h.b.reg h.i.s0 l))))) ∧
  WritesReg 0x15 .fcos (fun i => [i.dst, i.s0]) (fun _ h l => res32 h.i.mod (approxNum 0x15 (enc32 (src32 h.i.mod 0 (h.b.reg h.i.s0 l)))))

/-- R37, R158: integer arithmetic modulo 2^32, the high half of the two's complement product, the saturating forms and
the packed 16-bit addition; minima and maxima, logic, shifts by less than 32, counts and bit-field extraction. The
result of a shift by 32 or more, and of a field that is empty or leaves the word, is a free value (the model's reading
of a silence, assumption log 22). -/
def Obligations.IntegerAndLogicWriteDst : Prop :=
  (
    let clamp := fun (x : Int) => BitVec.ofInt 32 (max (-(2 ^ 31)) (min (2 ^ 31 - 1) x))
    WritesReg 0x20 .iadd (fun i => [i.dst, i.s0, i.s1]) (fun _ h l => h.b.reg h.i.s0 l + h.b.reg h.i.s1 l) ∧
    WritesReg 0x21 .isub (fun i => [i.dst, i.s0, i.s1]) (fun _ h l => h.b.reg h.i.s0 l - h.b.reg h.i.s1 l) ∧
    WritesReg 0x22 .imul (fun i => [i.dst, i.s0, i.s1]) (fun _ h l => h.b.reg h.i.s0 l * h.b.reg h.i.s1 l) ∧
    WritesReg 0x23 .imulhi (fun i => [i.dst, i.s0, i.s1])
      (fun _ h l => BitVec.ofInt 32 ((h.b.reg h.i.s0 l).toInt * (h.b.reg h.i.s1 l).toInt / 2 ^ 32)) ∧
    WritesReg 0x24 .imad (fun i => [i.dst, i.s0, i.s1, i.s2])
      (fun _ h l => h.b.reg h.i.s0 l * h.b.reg h.i.s1 l + h.b.reg h.i.s2 l) ∧
    WritesReg 0x25 .iaddsat (fun i => [i.dst, i.s0, i.s1]) (fun _ h l => clamp ((h.b.reg h.i.s0 l).toInt + (h.b.reg h.i.s1 l).toInt)) ∧
    WritesReg 0x26 .isubsat (fun i => [i.dst, i.s0, i.s1]) (fun _ h l => clamp ((h.b.reg h.i.s0 l).toInt - (h.b.reg h.i.s1 l).toInt)) ∧
    WritesReg 0x35 .iadd2 (fun i => [i.dst, i.s0, i.s1])
      (fun _ h l => pack16 (bits (h.b.reg h.i.s0 l) 0 16 + bits (h.b.reg h.i.s1 l) 0 16)
        (bits (h.b.reg h.i.s0 l) 16 16 + bits (h.b.reg h.i.s1 l) 16 16)) ∧
    WritesReg 0x36 .iaddi (fun i => [i.dst, i.s0]) (fun _ h l => h.b.reg h.i.s0 l + h.i.imm)) ∧
  (
    let x := fun (h : Here) (l : Nat) => h.b.reg h.i.s0 l
    let y := fun (h : Here) (l : Nat) => h.b.reg h.i.s1 l
    let three := fun (i : Ins) => [i.dst, i.s0, i.s1]
    WritesReg 0x27 .imin three (fun _ h l => if (x h l).toInt ≤ (y h l).toInt then x h l else y h l) ∧
    WritesReg 0x28 .imax three (fun _ h l => if (y h l).toInt ≤ (x h l).toInt then x h l else y h l) ∧
    WritesReg 0x29 .umin three (fun _ h l => if (x h l).toNat ≤ (y h l).toNat then x h l else y h l) ∧
    WritesReg 0x2A .umax three (fun _ h l => if (y h l).toNat ≤ (x h l).toNat then x h l else y h l) ∧
    WritesReg 0x2D .andBits three (fun _ h l => x h l &&& y h l) ∧
    WritesReg 0x2E .orBits three (fun _ h l => x h l ||| y h l) ∧
    WritesReg 0x2F .xorBits three (fun _ h l => x h l ^^^ y h l) ∧
    WritesReg 0x30 .shl three (fun _ h l => if (y h l).toNat < 32 then x h l <<< (y h l).toNat else shlRes (x h l) (y h l)) ∧
    WritesReg 0x31 .shr three (fun _ h l => if (y h l).toNat < 32 then x h l >>> (y h l).toNat else shrRes (x h l) (y h l)) ∧
    WritesReg 0x32 .sar three (fun _ h l => if (y h l).toNat < 32 then (x h l).sshiftRight (y h l).toNat else sarRes (x h l) (y h l)) ∧
    WritesReg 0x33 .popc (fun i => [i.dst, i.s0]) (fun _ h l => BitVec.ofNat 32 ((List.range 32).countP (fun k => (x h l).getLsbD k))) ∧
    WritesReg 0x34 .clz (fun i => [i.dst, i.s0]) (fun _ h l => BitVec.ofNat 32 (if x h l = 0 then 32 else 31 - Nat.log2 (x h l).toNat)) ∧
    WritesReg 0x37 .bfe (fun i => [i.dst, i.s0, i.s1, i.s2])
      (fun _ h l => bfeRes (x h l) (y h l) (h.b.reg h.i.s2 l)))

/-- R36, R157, R158: moves, selection by a predicate, the shuffle, which gives zero from an inactive lane, and the
differences across a quad; CVT between legal formats, and VOTE of a legal operation, whose predicate is SRC2[2:0] (the
model's reading, assumption log 22); a format or operation that is not legal ends the workgroup with ILLEGAL_OP. -/
def Obligations.MovesAndConversionsRun : Prop :=
  (
    WritesReg 0x41 .mov (fun i => [i.dst, i.s0]) (fun _ h l => h.b.reg h.i.s0 l) ∧
    WritesReg 0x42 .movi (fun i => [i.dst]) (fun _ h _ => h.i.imm) ∧
    WritesReg 0x43 .sel (fun i => [i.dst, i.s0, i.s1])
      (fun _ h l => if inMask (h.b.pred (h.i.s2 % 8)) l then h.b.reg h.i.s0 l else h.b.reg h.i.s1 l) ∧
    WritesReg 0x44 .shfl (fun i => [i.dst, i.s0, i.s1])
      (fun _ h l => if inMask h.b.active ((h.b.reg h.i.s1 l).toNat % 32) then h.b.reg h.i.s0 ((h.b.reg h.i.s1 l).toNat % 32) else 0) ∧
    WritesReg 0x46 .ddx (fun i => [i.dst, i.s0])
      (fun _ h l => res32 h.i.mod ((src32 h.i.mod 0 (h.b.reg h.i.s0 (l / 2 * 2 + 1))).add (src32 h.i.mod 0 (h.b.reg h.i.s0 (l / 2 * 2))).neg)) ∧
    WritesReg 0x47 .ddy (fun i => [i.dst, i.s0])
      (fun _ h l => res32 h.i.mod ((src32 h.i.mod 0 (h.b.reg h.i.s0 (l / 4 * 4 + l % 2 + 2))).add
        (src32 h.i.mod 0 (h.b.reg h.i.s0 (l / 4 * 4 + l % 2))).neg)) ∧
    WritesReg 0x76 .s2r (fun i => [i.dst]) (fun s h l => BitVec.ofNat 32 (s2rVal s h l))) ∧
  (
    (∀ (s s1 : State) (wg beat : Nat) (h : Here), fetchIns s wg beat 0x40 = .here s1 h → h.i.dst < h.w.vregs → h.i.s0 < h.w.vregs →
      if fmtOk h.i.ty = true ∧ fmtOk (natBits h.i.mod 9 4) = true then
        ∃ t b, exec (.cvt wg beat) s = .next t ∧ Issued s1 t h b ∧
          GoesOn h b (fun r l => if r = h.i.dst ∧ inMask h.g l = true then cvtRes h.i.mod h.i.ty (h.b.reg h.i.s0 l) else h.b.reg r l)
      else ∃ t, exec (.cvt wg beat) s = .next t ∧ EndsWithError s1 t wg St.ILLEGAL_OP) ∧
    (∀ (s s1 : State) (wg beat : Nat) (h : Here), fetchIns s wg beat 0x45 = .here s1 h → h.i.dst < h.w.vregs →
      let p := h.b.pred (h.i.s2 % 8)
      let v := if h.i.ty = 0 then b2n (decide (h.g &&& p ≠ 0)) else if h.i.ty = 1 then b2n (decide (h.g &&& p = h.g)) else h.g &&& p
      if h.i.ty ≤ 2 then
        ∃ t b, exec (.vote wg beat) s = .next t ∧ Issued s1 t h b ∧
          GoesOn h b (fun r l => if r = h.i.dst ∧ inMask h.g l = true then BitVec.ofNat 32 v else h.b.reg r l)
      else ∃ t, exec (.vote wg beat) s = .next t ∧ EndsWithError s1 t wg St.ILLEGAL_OP))

/-- R156, R158: the comparisons and predicate operations. HCMP2 decides DST from the low halves and DST + 1 from the
high halves (DST even: the model's reading, assumption log 22). -/
def Obligations.PredicatesAreDecided : Prop :=
  WritesPred 0x05 .fcmp (fun i => [i.s0, i.s1]) (fun i => condOk i.ty)
    (fun h l => fcond h.i.ty (src32 h.i.mod 0 (h.b.reg h.i.s0 l)) (src32 h.i.mod 1 (h.b.reg h.i.s1 l))) ∧
  WritesPred 0x2B .icmp (fun i => [i.s0, i.s1]) (fun i => condOk i.ty)
    (fun h l => icond h.i.ty (h.b.reg h.i.s0 l).toInt (h.b.reg h.i.s1 l).toInt) ∧
  WritesPred 0x2C .ucmp (fun i => [i.s0, i.s1]) (fun i => condOk i.ty)
    (fun h l => icond h.i.ty (h.b.reg h.i.s0 l).toNat (h.b.reg h.i.s1 l).toNat) ∧
  WritesPred 0x49 .plop (fun _ => []) (fun i => decide (i.ty ≤ 3))
    (fun h l => let x := inMask (h.b.pred (h.i.s0 % 8)) l
      let y := inMask (h.b.pred (h.i.s1 % 8)) l
      if h.i.ty = 0 then x && y else if h.i.ty = 1 then x || y else if h.i.ty = 2 then x != y else x && !y) ∧
  WritesPred 0x48 .pmov (fun i => [i.s0]) (fun i => i.ty == 1) (fun h l => decide (h.b.reg h.i.s0 l ≠ 0)) ∧
  (∀ (s s1 : State) (wg beat : Nat) (h : Here), fetchIns s wg beat 0x48 = .here s1 h → h.i.ty = 0 → h.i.dst < h.w.vregs →
    ∃ t b, exec (.pmov wg beat) s = .next t ∧ Issued s1 t h b ∧
      GoesOn h b (fun r l => if r = h.i.dst ∧ inMask h.g l = true then BitVec.ofNat 32 (b2n (inMask (h.b.pred (h.i.s0 % 8)) l)) else h.b.reg r l)) ∧
  (∀ (s s1 : State) (wg beat : Nat) (h : Here), fetchIns s wg beat 0x1D = .here s1 h → h.i.s0 < h.w.vregs → h.i.s1 < h.w.vregs →
    condOk h.i.ty = true → h.i.dst % 2 = 0 →
    ∃ t b, exec (.hcmp2 wg beat) s = .next t ∧ Issued s1 t h b ∧
      Decides h b (fun k l => if k ≠ 0 ∧ k / 2 = h.i.dst % 8 / 2 ∧ inMask h.g l = true then
        fcond h.i.ty (src16 h.i.mod 0 (k % 2) (h.b.reg h.i.s0 l)) (src16 h.i.mod 1 (k % 2) (h.b.reg h.i.s1 l))
        else inMask (h.b.pred k) l))

/-- R150, R158, R162, R163: loads. Every lane's translation decided (`laneMem`), LD puts the bytes at each guard
lane's VA into its run, +0 where the lane's translation failed (and IN_FAULT is noted), and changes no memory; so does
LDC at the constants of its program, whose values are free where there are none (the model's reading of a silence). -/
def Obligations.LoadsReadMemory : Prop :=
  (∀ (s s1 s2 : State) (wg beat : Nat) (h : Here) (m : PageMap) (bad : List Nat), fetchIns s wg beat 0x50 = .here s1 h →
    h.runPairOk = true →
    laneMem s1 (loadWho h.w) ((lanesOf h.g).map (fun l => (l, { va := h.va l, len := widthBytes h.i.width, kind := 0 }))) = .go s2 m bad →
    ∃ t s3 b, exec (.ld wg beat) s = .next t ∧ Issued s3 t h b ∧
      LoadsRuns h b (lanesOf h.g) h.i.dst (runLen h.i.width)
        (fun l => if l ∈ bad then List.replicate (widthBytes h.i.width) 0 else vaRd s2 false m (h.va l) (widthBytes h.i.width)) ∧
      s3 = { s2 with esc := s3.esc, gw := s3.gw, ca := { s2.ca with dir := s3.ca.dir } }) ∧
  (∀ (s s1 s2 : State) (wg beat : Nat) (h : Here) (m : PageMap) (bad : List Nat), fetchIns s wg beat 0x54 = .here s1 h →
    h.runRegOk = true → h.w.const ≠ 0 →
    laneMem s1 (loadWho h.w) ((lanesOf h.g).map (fun l => (l, { va := h.constVa l, len := widthBytes h.i.width, kind := 0 }))) = .go s2 m bad →
    ∃ t s3 b, exec (.ldc wg beat) s = .next t ∧ Issued s3 t h b ∧
      LoadsRuns h b (lanesOf h.g) h.i.dst (runLen h.i.width)
        (fun l => if l ∈ bad then List.replicate (widthBytes h.i.width) 0 else vaRd s2 false m (h.constVa l) (widthBytes h.i.width)) ∧
      s3 = { s2 with esc := s3.esc, gw := s3.gw, ca := { s2.ca with dir := s3.ca.dir } }) ∧
  (∀ (s s1 : State) (wg beat : Nat) (h : Here), fetchIns s wg beat 0x54 = .here s1 h → h.runRegOk = true → h.w.const = 0 →
    ∃ t b f, exec (.ldc wg beat) s = .next t ∧ Issued s1 t h b ∧ LoadsRuns h b (lanesOf h.g) h.i.dst (runLen h.i.width) f)

/-- R150, R158, R159, R162, R164: the local store and the Plate. LDS and PLD put the bytes at each guard lane's
address, its low bits below the width ignored, into its run; a lane outside the allocation reads 0 (LOCAL_RANGE), and
a Plate lane that is refused reads 0. STS and PST write the runs of the guard lanes that are no helpers, in ascending
order. -/
def Obligations.LocalAndPlateAccessesRun : Prop :=
  let n := fun (h : Here) => widthBytes h.i.width
  let at' := fun (h : Here) (l : Nat) => h.addr32 l - h.addr32 l % widthBytes h.i.width
  (∀ (s s1 : State) (wg beat : Nat) (h : Here), fetchIns s wg beat 0x52 = .here s1 h → h.runRegOk = true →
    ∃ t b, exec (.lds wg beat) s = .next t ∧
      Issued (if ∃ l ∈ lanesOf h.g, 512 * h.w.loc < at' h l + n h then noteFail s1 h.w.owner St.LOCAL_RANGE else s1) t h b ∧
      LoadsRuns h b (lanesOf h.g) h.i.dst (runLen h.i.width)
        (fun l => if at' h l + n h ≤ 512 * h.w.loc then memRd h.w.mem (at' h l) (n h) else List.replicate (n h) 0)) ∧
  (∀ (s s1 : State) (wg beat : Nat) (h : Here), fetchIns s wg beat 0x53 = .here s1 h → h.runRegOk = true →
    let m := h.live.foldl (fun m l => if at' h l + n h ≤ 512 * h.w.loc then memWr m (at' h l) (h.b.runBytes h.i.dst l (n h)) else m) h.w.mem
    let s2 := setWg s1 wg { h.w with mem := m }
    ∃ t, exec (.sts wg beat) s = .next t ∧
      Issued (if ∃ l ∈ h.live, 512 * h.w.loc < at' h l + n h then noteFail s2 h.w.owner St.LOCAL_RANGE else s2) t h { h.b with pc := h.b.pc + 1 }) ∧
  (∀ (s s1 : State) (wg beat : Nat) (h : Here), fetchIns s wg beat 0x58 = .here s1 h → h.runRegOk = true →
    ∃ t b, exec (.pld wg beat) s = .next t ∧ Issued (plateNote s1 h (lanesOf h.g)) t h b ∧
      ((∀ l ∈ lanesOf h.g, h.plateErr s1 l = 0) → plateNote s1 h (lanesOf h.g) = s1) ∧
      LoadsRuns h b (lanesOf h.g) h.i.dst (runLen h.i.width)
        (fun l => match h.plate l with | some p => plateRd s1 h.w.ctx p.1 p.2 (n h) | none => List.replicate (n h) 0)) ∧
  (∀ (s s1 : State) (wg beat : Nat) (h : Here), fetchIns s wg beat 0x59 = .here s1 h → h.runRegOk = true →
    let s2 := h.live.foldl (fun t l => match h.plate l with
      | some p => if h.plateErr s1 l = 0 then plateWr t h.w.ctx p.1 p.2 (h.b.runBytes h.i.dst l (n h)) else t
      | none => t) s1
    ∃ t, exec (.pst wg beat) s = .next t ∧ Issued (plateNote s2 h h.live) t h { h.b with pc := h.b.pc + 1 })

/-- R150, R158, R162, R163: ST writes, in ascending order of lane, the run of each guard lane that is no helper at the
lane's VA; a lane whose translation failed is discarded and OUT_FAULT noted. No register changes. -/
def Obligations.StoreWritesMemory : Prop :=
  ∀ (s s1 s2 : State) (wg beat : Nat) (h : Here) (m : PageMap) (bad : List Nat), fetchIns s wg beat 0x51 = .here s1 h →
    h.runPairOk = true →
    laneMem s1 (storeWho h.w) (h.live.map (fun l => (l, { va := h.va l, len := widthBytes h.i.width, kind := 1 }))) = .go s2 m bad →
    let s3 := (h.live.filter (fun l => !bad.contains l)).foldl
      (fun s l => vaWr s false (storeWho h.w) m (h.va l) (h.b.runBytes h.i.dst l (widthBytes h.i.width))) s2
    ∃ t, exec (.st wg beat) s = .next t ∧
      Issued (if bad = [] then s3 else noteFail s3 h.w.owner St.OUT_FAULT) t h { h.b with pc := h.b.pc + 1 }

/-- R161, R163: ATOM on lanes of this device's memory, and ATOMS on the local store: lane by lane in ascending order
the old value goes to DATA and the operation's result to memory; a misaligned lane has no effect and gets 0
(MISALIGNED). -/
def Obligations.AtomicsReadModifyWrite : Prop :=
  (∀ (s s1 s2 : State) (wg beat : Nat) (h : Here) (m : PageMap), fetchIns s wg beat 0x55 = .here s1 h → h.atomOk 2 = true →
    let n := widthBytes h.i.width
    let ls := h.live.filter (fun l => h.va l % n == 0)
    laneMem s1 (storeWho h.w) (ls.map (fun l => (l, { va := h.va l, len := n, kind := 1 }))) = .go s2 m [] →
    (∀ l ∈ ls, remoteOf s2 m (h.va l) = none) →
    let mis := h.live.filter (fun l => h.va l % n != 0)
    let b0 := mis.foldl (fun b l => b.setRun h.i.dst l (List.replicate n 0)) h.b
    let r := ls.foldl (fun (acc : State × Beat) l =>
      let old := vaRd acc.1 false m (h.va l) n
      (vaWr acc.1 false (storeWho h.w) m (h.va l) (toLe (atomNew h.aop n (leNat old) (h.atomArg l).1 (h.atomArg l).2) n),
        acc.2.setRun h.i.dst l old)) (s2, b0)
    ∃ t, exec (.atom wg beat) s = .next t ∧
      Issued (if mis = [] then r.1 else noteFail r.1 h.w.owner St.MISALIGNED) t h { r.2 with pc := h.b.pc + 1 }) ∧
  (∀ (s s1 : State) (wg beat : Nat) (h : Here), fetchIns s wg beat 0x56 = .here s1 h → h.atomOk 1 = true →
    let n := widthBytes h.i.width
    (∀ l ∈ h.live, h.addr32 l % n = 0 ∧ h.addr32 l + n ≤ 512 * h.w.loc) →
    let r := h.live.foldl (fun (acc : Tbl Byte × Beat) l =>
      let old := memRd acc.1 (h.addr32 l) n
      (memWr acc.1 (h.addr32 l) (toLe (atomNew h.aop n (leNat old) (h.atomArg l).1 (h.atomArg l).2) n), acc.2.setRun h.i.dst l old)) (h.w.mem, h.b)
    ∃ t, exec (.atoms wg beat) s = .next t ∧ Issued (setWg s1 wg { h.w with mem := r.1 }) t h { r.2 with pc := h.b.pc + 1 })

/-- R165: RSUB on a ring of the context that the device may feed, every lane's descriptor 64-byte aligned and every
translation served: entries are reserved lane by lane in ascending order, a lane that finds no room getting
0xFFFFFFFF, the descriptors copied into their entries and published. -/
def Obligations.RsubSubmits : Prop :=
  ∀ (s s1 s2 s3 u : State) (wg beat : Nat) (h : Here) (x : Ring) (m m2 mu : PageMap) (badu : List Nat), fetchIns s wg beat 0x5C = .here s1 h →
    h.i.dst < h.w.vregs → h.i.s0 % 2 = 0 → h.i.s0 + 2 ≤ h.w.vregs →
    ringOf s1 (h.i.offset % 1024) = some x → x.ctx = h.w.ctx → x.mode ≠ 0 →
    (∀ l ∈ h.live, h.b.pair h.i.s0 l % 64 = 0) →
    let p := rsubPlan x h.live
    let ents := p.1.filterMap (fun e => e.2.map (fun i => (e.1, i)))
    let wr := ents.map (fun e => (e.1, ({ va := entryVa x e.2, len := 64, kind := 1 } : Acc)))
    laneMem s1 (loadWho h.w) (ents.map (fun e => (e.1, ({ va := h.b.pair h.i.s0 e.1, len := 64, kind := 0 } : Acc)))) = .go s2 m [] →
    laneMem s1 (storeWho h.w) wr = .go u mu badu → laneMem s2 (storeWho h.w) wr = .go s3 m2 [] →
    let s4 := ents.foldl (fun s e =>
      let s := vaWr s false (storeWho h.w) m2 (entryVa x e.2) (vaRd s2 false m (h.b.pair h.i.s0 e.1) 64)
      match ringOf s (h.i.offset % 1024) with
      | some y => publishIn s (h.i.offset % 1024) y e.2
      | none => s) (setRing s3 (h.i.offset % 1024) p.2)
    ∃ t b, exec (.rsub wg beat) s = .next t ∧ Issued s4 t h b ∧ b.pc = h.b.pc + 1 ∧
      b = { p.1.foldl (fun b e => b.setReg h.i.dst e.1 (e.2.getD 0xFFFFFFFF)) h.b with pc := h.b.pc + 1 }

/-- R166, R222, R225: the event instructions. EVREC records each live lane's value; EVRD reads an event's 64-bit value
into the pair at DATA; EVWAIT goes on at once where every lane's wait is over, and else begins its waits. R167, R197,
Table CX-7: MALLOC and MFREE put a request for each guard lane, in ascending order, to the context's allocator, and
the beat waits; where the context has no device allocator MALLOC answers 0 and MFREE does nothing. -/
def Obligations.EventAndAllocatorInstructionsRun : Prop :=
  (
    (∀ (s s1 : State) (wg beat : Nat) (h : Here), fetchIns s wg beat 0x5D = .here s1 h →
      h.i.dst % 2 = 0 → h.i.dst + 2 ≤ h.w.vregs → h.i.s0 < h.w.vregs → h.sysHeld s1 = false →
      (∀ l ∈ h.live, evOwned s1 h.w.ctx (bits (h.b.reg h.i.s0 l) 0 16) = true) →
      ∃ t, exec (.evrec wg beat) s = .next t ∧
        Issued (h.live.foldl (fun t l => recordEv t (bits (h.b.reg h.i.s0 l) 0 16) (setKind (h.b.pair h.i.dst l))) s1) t h
          { h.b with pc := h.b.pc + 1 }) ∧
    (∀ (s s1 : State) (wg beat : Nat) (h : Here), fetchIns s wg beat 0x5F = .here s1 h →
      h.i.dst % 2 = 0 → h.i.dst + 2 ≤ h.w.vregs → h.i.s0 < h.w.vregs →
      (∀ l ∈ lanesOf h.g, evOwned s1 h.w.ctx (bits (h.b.reg h.i.s0 l) 0 16) = true) →
      ∃ t b, exec (.evrd wg beat) s = .next t ∧ Issued s1 t h b ∧
        GoesOn h b (fun r l =>
          let e := evOf s1 (bits (h.b.reg h.i.s0 l) 0 16)
          let v := e.count + (if e.flag then 2 ^ 63 else 0)
          if inMask h.g l = true ∧ r = h.i.dst then BitVec.ofNat 32 v
          else if inMask h.g l = true ∧ r = h.i.dst + 1 then BitVec.ofNat 32 (v / 2 ^ 32) else h.b.reg r l)) ∧
    (∀ (s s1 : State) (wg beat : Nat) (h : Here), fetchIns s wg beat 0x5E = .here s1 h →
      h.i.dst % 2 = 0 → h.i.dst + 2 ≤ h.w.vregs → h.i.s0 < h.w.vregs → h.b.waiting = false →
      (∀ l ∈ lanesOf h.g, evOwned s1 h.w.ctx (bits (h.b.reg h.i.s0 l) 0 16) = true) →
      let st := fun l => evalWait (evOf s1 (bits (h.b.reg h.i.s0 l) 0 16)) (h.b.pair h.i.dst l) .pending
      ((∀ l ∈ lanesOf h.g, st l = .met) → ∃ t b, exec (.evwait wg beat) s = .next t ∧ Issued s1 t h b ∧
        Decides h b (fun k l => if k ≠ 0 ∧ k = h.i.offset % 8 ∧ inMask h.g l = true then false else inMask (h.b.pred k) l)) ∧
      ((∃ l ∈ lanesOf h.g, st l = .pending) → ∃ t, exec (.evwait wg beat) s = .next t ∧
        (∀ k, wgOf t k = if k = wg then some { h.w with beats := h.w.beats.set beat { h.b with waiting := true } } else wgOf s1 k) ∧
        t.evs.waits = s1.evs.waits ++ (lanesOf h.g).map (fun l =>
          { kind := 1, id := 32 * wg + beat, lane := l, ev := bits (h.b.reg h.i.s0 l) 0 16, target := h.b.pair h.i.dst l, st := st l }) ∧
        t = { s1 with pn := t.pn, evs := { s1.evs with waits := t.evs.waits } }))) ∧
  (
    let q := fun (h : Here) (isFree : Bool) (arg : Nat → Nat) => (lanesOf h.g).map (fun l =>
      ({ ctx := h.w.ctx, desc := none, wg := h.id, beat := h.bi, lane := l, dst := h.i.s0, isFree := isFree, arg := arg l } : AllocReq))
    let asked := fun (s1 t : State) (h : Here) (rs : List AllocReq) =>
      t = { s1 with al := { s1.al with queue := s1.al.queue ++ rs }, pn := { s1.pn with wgs := t.pn.wgs } } ∧
      ∀ k, wgOf t k = if k = h.id then some { h.w with beats := h.w.beats.set h.bi { h.b with waiting := true } } else wgOf s1 k
    (∀ (s s1 : State) (wg beat : Nat) (h : Here), fetchIns s wg beat 0x60 = .here s1 h →
      h.i.dst < h.w.vregs → h.i.s0 % 2 = 0 → h.i.s0 + 2 ≤ h.w.vregs → h.b.waiting = false →
      ((ctxOf s1 h.w.ctx).mode ≠ 0 → h.g ≠ 0 →
        ∃ t, exec (.malloc wg beat) s = .next t ∧ asked s1 t h (q h false (fun l => (h.b.reg h.i.dst l).toNat))) ∧
      ((ctxOf s1 h.w.ctx).mode = 0 → ∃ t b, exec (.malloc wg beat) s = .next t ∧ Issued s1 t h b ∧
        GoesOn h b (fun r l => if inMask h.g l = true ∧ (r = h.i.s0 ∨ r = h.i.s0 + 1) then 0 else h.b.reg r l))) ∧
    (∀ (s s1 : State) (wg beat : Nat) (h : Here), fetchIns s wg beat 0x61 = .here s1 h →
      h.i.s0 % 2 = 0 → h.i.s0 + 2 ≤ h.w.vregs → h.b.waiting = false →
      ((ctxOf s1 h.w.ctx).mode ≠ 0 → h.g ≠ 0 →
        ∃ t, exec (.mfree wg beat) s = .next t ∧ asked s1 t h (q h true (fun l => h.b.pair h.i.s0 l))) ∧
      ((ctxOf s1 h.w.ctx).mode = 0 ∨ h.g = 0 → ∃ t, exec (.mfree wg beat) s = .next t ∧ Issued s1 t h { h.b with pc := h.b.pc + 1 })))

/-- R149, R157: control flow. BRA by its COND, CALL and RET over the stack of 16; a jump out of the code ends the
workgroup with BAD_PROGRAM, a push on a full stack or a pop from an empty one with STACK_ERROR. R150, R157, R160: BAR,
END, DISCARD and FENCE. A barrier holds the beat until every beat of the workgroup stands at it or has ended; END and
DISCARD take the guard lanes out of the active mask, END alone with an output; a release at system scope waits for the
context's remote writes. -/
def Obligations.ControlFlowRuns : Prop :=
  (
    let target := fun (h : Here) => (h.b.pc : Int) + 1 + (if h.i.target < 2 ^ 31 then (h.i.target : Int) else (h.i.target : Int) - 2 ^ 32)
    let goes := fun (s1 t : State) (h : Here) (b : Beat) (pc : Int) =>
      if 0 ≤ pc ∧ 8 * pc < h.w.codeBytes then Issued s1 t h { b with pc := pc.toNat } else EndsWithError s1 t h.id St.BAD_PROGRAM
    (∀ (s s1 : State) (wg beat : Nat) (h : Here), fetchIns s wg beat 0x70 = .here s1 h →
      ∃ t, exec (.bra wg beat) s = .next t ∧
        if h.i.cond = 0 ∨ (h.i.cond = 1 ∧ h.g ≠ 0) ∨ (h.i.cond = 2 ∧ h.g = h.b.active) ∨ (2 < h.i.cond ∧ h.g = 0)
        then goes s1 t h h.b (target h) else Issued s1 t h { h.b with pc := h.b.pc + 1 }) ∧
    (∀ (s s1 : State) (wg beat : Nat) (h : Here), fetchIns s wg beat 0x71 = .here s1 h →
      ∃ t, exec (.call wg beat) s = .next t ∧
        if h.g = 0 then Issued s1 t h { h.b with pc := h.b.pc + 1 }
        else if 16 ≤ h.b.stack.length then EndsWithError s1 t h.id St.STACK_ERROR
        else goes s1 t h { h.b with stack := (h.b.pc + 1) :: h.b.stack } (target h)) ∧
    (∀ (s s1 : State) (wg beat : Nat) (h : Here), fetchIns s wg beat 0x72 = .here s1 h →
      ∃ t, exec (.ret wg beat) s = .next t ∧
        if h.g = 0 then Issued s1 t h { h.b with pc := h.b.pc + 1 }
        else match h.b.stack with
          | [] => EndsWithError s1 t h.id St.STACK_ERROR
          | p :: rest => goes s1 t h { h.b with stack := rest } p) ∧
    (∀ (s s1 : State) (wg beat : Nat) (h : Here), fetchIns s wg beat 0x77 = .here s1 h →
      ∃ t, exec (.pinionNop wg beat) s = .next t ∧ Issued s1 t h { h.b with pc := h.b.pc + 1 })) ∧
  (
    let after := fun (s1 t : State) (h : Here) (b : Beat) =>
      let bs := h.w.beats.set h.bi { b with pc := h.b.pc + 1 }
      let opens := (∃ x ∈ bs, x.atBar = true) ∧ ∀ x ∈ bs, x.atBar = true ∨ x.active = 0
      (∀ k, k ≠ h.id → wgOf t k = wgOf s1 k) ∧
      (opens → wgOf t h.id = some { h.w with beats := bs.map (fun x => { x with atBar := false }) }) ∧
      (¬ opens → wgOf t h.id = some { h.w with beats := bs }) ∧
      t = { s1 with pn := { s1.pn with wgs := t.pn.wgs, disps := t.pn.disps }, nl := { s1.nl with arrived := t.nl.arrived }
                    wide := t.wide, evs := { s1.evs with ticked := t.evs.ticked } }
    (∀ (s s1 : State) (wg beat : Nat) (h : Here), fetchIns s wg beat 0x73 = .here s1 h →
      ∃ t, exec (.bar wg beat) s = .next t ∧
        if h.g = 0 then Issued s1 t h { h.b with pc := h.b.pc + 1 } else after s1 t h { h.b with atBar := true }) ∧
    (∀ (s s1 : State) (wg beat : Nat) (h : Here), fetchIns s wg beat 0x74 = .here s1 h →
      ∃ t, exec (.endLanes wg beat) s = .next t ∧
        after s1 t h { h.b with active := h.b.active ^^^ h.g, ended := h.b.ended ||| h.g }) ∧
    (∀ (s s1 : State) (wg beat : Nat) (h : Here), fetchIns s wg beat 0x75 = .here s1 h →
      ∃ t, exec (.discard wg beat) s = .next t ∧
        if h.w.kind = 2 then after s1 t h { h.b with active := h.b.active ^^^ h.g } else EndsWithError s1 t h.id St.ILLEGAL_OP) ∧
    (∀ (s s1 : State) (wg beat : Nat) (h : Here), fetchIns s wg beat 0x57 = .here s1 h →
      ¬ (h.g ≠ 0 ∧ natBits h.i.flags 3 1 = 1 ∧ h.i.flags % 4 = 2 ∧ ∃ r ∈ s.nl.reqs, r.write = true ∧ r.ctx = h.w.ctx) →
      ∃ t, exec (.fence wg beat) s = .next t ∧ Issued s1 t h { h.b with pc := h.b.pc + 1 }))

/-- R149, R158: what issues. A beat of a resident workgroup that has active lanes, stands at no barrier and is within
its code issues the word at its place where that word names an assigned opcode: with the lanes of its guard (R156). A
register named at or above VREGS and a reserved opcode end the workgroup with ILLEGAL_OP, and the end of the code ends
it with BAD_PROGRAM. -/
def Obligations.FetchIssuesTheWordAtThePc : Prop :=
  (∀ (s s2 : State) (wg beat op : Nat) (w : Wg) (b : Beat) (m : PageMap), wgOf s wg = some w → w.beats[beat]? = some b →
    w.phase = .resident → b.active ≠ 0 → b.atBar = false → 8 * b.pc < w.codeBytes →
    prepare s (loadWho w) [{ va := w.code + 8 * b.pc, len := 8, kind := 0 }] = .ok s2 m →
    let word : Dword := BitVec.ofNat 64 (leNat (vaRd s2 false m (w.code + 8 * b.pc) 8))
    let i := insOf word
    (i.op = op → opAssigned op = true → fetchIns s wg beat op = .here s2 { id := wg, bi := beat, w := w, b := b, i := i, g := guardLanes b i.guard }) ∧
    (opAssigned i.op = false → ∀ c : Nat → Nat → Instr, c ∈ [Instr.fadd, .iadd, .mov, .ld, .st, .bra, .bar] →
      ∃ t, exec (c wg beat) s = .next t ∧ EndsWithError s2 t wg St.ILLEGAL_OP)) ∧
  (∀ (s : State) (wg beat op : Nat) (w : Wg) (b : Beat), wgOf s wg = some w → w.beats[beat]? = some b →
    w.phase = .resident → b.active ≠ 0 → b.atBar = false → w.codeBytes ≤ 8 * b.pc →
    ∃ t, fetchIns s wg beat op = .no t ∧ EndsWithError s t wg St.BAD_PROGRAM) ∧
  (∀ (s s1 : State) (wg beat : Nat) (h : Here), fetchIns s wg beat 0x20 = .here s1 h →
    (h.w.vregs ≤ h.i.dst ∨ h.w.vregs ≤ h.i.s0 ∨ h.w.vregs ≤ h.i.s1) →
    ∃ t, exec (.iadd wg beat) s = .next t ∧ EndsWithError s1 t wg St.ILLEGAL_OP)

/-- R272 to R284: lookups and allocation, the victim cache, snoops, the directory, class enables, ways, maintenance
and memory errors of the system cache. -/
def Obligations.CacheServesAndKeeps : Prop :=
  (∀ (s : State) (a : Nat) (host hc write : Bool) (data : List Byte), classOn s (hc || host) = true → (host = true → s.hl.cacheEn = true) →
    let la := a / 128
    let d := data.take (128 - a % 128)
    ∃ t, exec (.cacheAccess a host hc write data) s = .next t ∧
      (∀ k l, findMain s la host = some (k, l) → findDir s la host = none →
        rfld t Reg.CA_HITS 0 32 = satTo (2 ^ 32 - 1) (rfld s Reg.CA_HITS 0 32 + 1) ∧ t.mem = s.mem ∧
        tfind t.ca.lines k = some (if write = true then linePut { l with used := s.ca.clock + 1 } a d else { l with used := s.ca.clock + 1 }) ∧
        (∀ j, j ≠ k → tfind t.ca.lines j = tfind s.ca.lines j)) ∧
      (∀ k u, findMain s la host = none → findVict s la host = none → placeLine s la (fetchLine s la host (hc || host)) = some (k, u) →
        rfld t Reg.CA_MISSES 0 32 = satTo (2 ^ 32 - 1) (rfld s Reg.CA_MISSES 0 32 + 1) ∧
        ∃ l, tfind t.ca.lines k = some l ∧ l.addr = la ∧ l.host = host)) ∧
  (∀ (s : State) (q : Nat), freeVict s q = none → (∃ p ∈ victSlice s q, p.2.evicting = false) →
    ∃ t k l, exec (.victimEviction q) s = .next t ∧ (k, l) ∈ victSlice s q ∧ l.evicting = false ∧
      (∀ p ∈ victSlice s q, p.2.evicting = false → l.used ≤ p.2.used) ∧
      (l.host = true → tfind t.ca.victim k = some { l with evicting := true }) ∧
      (l.host = false → tfind t.ca.victim k = none ∧ (l.dirty = true → memRd t.mem.dev (l.addr * 128) l.data.length = l.data))) ∧
  (∀ (s : State) (q slot : Nat) (l : Line), tfind s.ca.victim (q * 256 + slot % 256) = some l → l.evicting = true →
    ∃ t, exec (.evictionAcknowledge q slot) s = .next t ∧ tfind t.ca.victim (q * 256 + slot % 256) = none ∧
      (l.dirty = true → memRd t.mem.host (l.addr * 128) l.data.length = l.data) ∧ (l.dirty = false → t.mem = s.mem)) ∧
  (∀ (s : State) (a k : Nat) (inv : Bool),
    (∀ e, inv = true → findDir s (a / 128) true = some (k, e) → ∃ t, exec (.hostSnoop a inv) s = .next t ∧
      tfind t.ca.dir k = some { e with invSent := e.trains } ∧ t = { s with ca := { s.ca with dir := t.ca.dir } }) ∧
    (∀ l, (inv = true → findDir s (a / 128) true = none) → findMain s (a / 128) true = some (k, l) → l.evicting = false →
      ∃ t, exec (.hostSnoop a inv) s = .next t ∧ rfld t Reg.CA_SNOOPS 0 32 = satTo (2 ^ 32 - 1) (rfld s Reg.CA_SNOOPS 0 32 + 1) ∧
        tfind t.ca.lines k = (if inv = true then none else some { l with dirty := false }) ∧
        (l.dirty = true → memRd t.mem.host (l.addr * 128) l.data.length = l.data) ∧ (l.dirty = false → t.mem = s.mem))) ∧
  (∀ (s : State) (a k train : Nat) (host crossed : Bool) (e : Dir), findDir s (a / 128) host = some (k, e) → natBits e.trains train 1 = 1 →
    let gone := fun (t : State) => let e' := clearTrain e train
      if e'.trains = 0 then tfind t.ca.dir k = none else tfind t.ca.dir k = some e'
    (natBits e.invSent train 1 = 0 → ∃ t, exec (.l1EvictionNotice a host train) s = .next t ∧ gone t) ∧
    (natBits e.invSent train 1 = 1 → (crossed = false ∨ natBits e.notice train 1 = 1) →
      ∃ t, exec (.invalidationAcknowledge a host train crossed) s = .next t ∧ gone t) ∧
    (natBits e.invSent train 1 = 1 → crossed = true → natBits e.notice train 1 = 0 → e.trains ≠ 0 →
      ∃ t, exec (.invalidationAcknowledge a host train crossed) s = .next t ∧ tfind t.ca.dir k = some { e with acked := maskSet e.acked train })) ∧
  (∀ (s : State) (en : Bool), Reaches s Reg.CA_CLASS_EN →
    (∃ t, exec (.sdEnWrite en) s = .next t ∧ rbit t Reg.CA_CLASS_EN 0 = en ∧ rbit t Reg.CA_CLASS_EN 1 = rbit s Reg.CA_CLASS_EN 1 ∧
      (rbit s Reg.CA_CLASS_EN 0 = true → en = false → t.ca.dir = [] ∧ t.ca.held = [])) ∧
    (∃ t, exec (.hcEnWrite en) s = .next t ∧ rbit t Reg.CA_CLASS_EN 0 = rbit s Reg.CA_CLASS_EN 0 ∧
      (en = true → rbit s Reg.CA_CLASS_EN 1 = false → if rbit s Reg.CA_STATUS 2 = true then rbit t Reg.CA_CLASS_EN 1 = true
        else rbit t Reg.CA_CLASS_EN 1 = false ∧ rbit t Reg.CA_ERR 0 = true) ∧
      (en = false → rbit s Reg.CA_CLASS_EN 1 = true → (∀ p ∈ t.ca.lines, p.2.hc = true → p.2.evicting = false → p.2.dirty = false) ∧
        (rbit t Reg.CA_CLASS_EN 1 = false ∨ (rbit t Reg.CA_STATUS 1 = true ∧ ∃ p ∈ t.ca.victim, p.2.evicting = true))))) ∧
  (∀ (s : State) (val : Word), Reaches s Reg.CA_WAYS →
    let bad := (rbit s Reg.CA_CLASS_EN 0 = true ∧ bits val 0 16 = 0) ∨ (rbit s Reg.CA_CLASS_EN 1 = true ∧ bits val 16 16 = 0)
    ∃ t, exec (.caWaysWrite val) s = .next t ∧ (bad → rbit t Reg.CA_ERR 1 = true ∧ getReg t Reg.CA_WAYS = getReg s Reg.CA_WAYS) ∧
      (¬bad → getReg t Reg.CA_WAYS = val ∧ t.bu.dirty = true)) ∧
  (∀ (s : State) (c : Instr) (op : Nat), (c = .clean ∧ op = 1) ∨ (c = .invalidate ∧ op = 2) ∨ (c = .cleanAndInvalidate ∧ op = 3) →
    Reaches s Reg.CA_MAINT_CTRL →
    let tg := rfld s Reg.CA_MAINT_CTRL 2 2
    let x := rfld s Reg.CA_MAINT_CTX 0 8
    (s.ca.maint ≠ none → ∃ t, exec c s = .next t ∧ rbit t Reg.CA_ERR 2 = true ∧ t.ca = s.ca) ∧
    (s.ca.maint = none → tg = 0 → ((ctxOf s x).st = .free ∨ (ctxOf s x).st = .destroying) →
      ∃ t, exec c s = .next t ∧ rbit t Reg.CA_ERR 3 = true ∧ t.ca = s.ca) ∧
    (s.ca.maint = none → (tg = 1 ∨ tg = 3 ∨ (tg = 0 ∧ (ctxOf s x).st ≠ .free ∧ (ctxOf s x).st ≠ .destroying)) →
      ∃ t m, exec c s = .next t ∧ t.ca.maint = some m ∧ m.op = op ∧ m.target = tg ∧ m.classes = rfld s Reg.CA_MAINT_CTRL 4 2 ∧
        m.addr = maintAddr s ∧ m.size = maintSize s ∧ m.ctx = x ∧ rfld t Reg.CA_MAINT_STATUS 0 20 = 0 ∧ t.ca = { s.ca with maint := some m })) ∧
  (∀ (s : State) (m : Maint), s.ca.maint = some m → m.target ≠ 0 →
    let c := maintCover s m
    (∀ p ∈ s.ca.victim, c.vict p.1 p.2 = true → p.2.evicting = false) →
    ∃ t, exec .maintenanceComplete s = .next t ∧ t.ca.maint = none ∧ rbit t Reg.CA_MAINT_STATUS 30 = true ∧
      (m.op ≠ 1 → ∀ p ∈ t.ca.lines, c.main p.1 p.2 = true → p.2.evicting = true) ∧
      (m.op ≠ 1 → ∀ p ∈ t.ca.victim, c.vict p.1 p.2 = false)) ∧
  (∀ (s : State) (q st w : Nat), q < 16 → w < 16 → st < Machine.caSets s →
    let k := (q * Machine.caSets s + st) * 16 + w
    (∃ t, exec (.cacheEccError q st w 0) s = .next t ∧ t.ca = s.ca ∧
      rfld t Reg.CA_ECC_CORRECTED 0 32 = satTo (2 ^ 32 - 1) (rfld s Reg.CA_ECC_CORRECTED 0 32 + 1)) ∧
    (∀ l, tfind s.ca.lines k = some l →
      (l.dirty = false → ∃ t, exec (.cacheEccError q st w 1) s = .next t ∧ tfind t.ca.lines k = none ∧ t.mem = s.mem ∧
        rfld t Reg.CA_ECC_REFETCH 0 32 = satTo (2 ^ 32 - 1) (rfld s Reg.CA_ECC_REFETCH 0 32 + 1)) ∧
      (l.dirty = true → ∃ t, exec (.cacheEccError q st w 1) s = .next t ∧ rbit t Reg.CA_ERR 4 = true ∧
        tfind t.ca.lines k = some { l with poison := true, dirty := false })) ∧
    (∃ t, exec (.cacheEccError q st w 2) s = .next t ∧ tfind t.ca.lines k = none ∧
      rfld t Reg.CA_TAG_PARITY 0 32 = satTo (2 ^ 32 - 1) (rfld s Reg.CA_TAG_PARITY 0 32 + 1) ∧
      (∀ l, tfind s.ca.lines k = some l → l.dirty = true → rbit t Reg.ER_DEVICE 3 = true ∧ rbit t Reg.CA_ERR 5 = true)))

/-- R288 to R299: jobs of the Deflate engine are checked and queued in age order, wait for a stream to open, take a
lane, do their work and complete; an error of a lane's memory fails its job. -/
def Obligations.DeflateJobsRun : Prop :=
  (∀ (s : State) (id op : Nat) (d : Desc) (c : Instr),
    (c = .compress id ∧ op = Op.COMPRESS) ∨ (c = .decompress id ∧ op = Op.DECOMPRESS) ∨ (c = .flush id ∧ op = Op.FLUSH) →
    AtEngine s id op d → tfind s.df.jobs id = none → d.indBad = false → d.indFault = false →
    let f := leAt d.bytes 0x10 4
    let u := { s with df := { s.df with jobs := tdel s.df.jobs id } }
    let queued := fun (opening : Bool) => ∃ t j, exec c s = .next t ∧ tfind t.df.jobs id = some j ∧ j.lane = none ∧ j.opening = opening ∧ j.opcode = op ∧
      j.ctx = d.ctx ∧ j.tag = f % 256 ∧ j.first = (natBits f 28 1 == 1) ∧ j.last = (natBits f 27 1 == 1) ∧ j.age = s.df.clock + 1 ∧
      (∀ k, k ≠ id → tfind t.df.jobs k = tfind s.df.jobs k) ∧ t = { s with df := { s.df with jobs := t.df.jobs, clock := s.df.clock + 1 } }
    let refused := fun (st : Nat) => leAt d.bytes 0x38 8 = 0 → Completes c s u id d st
    if dfBodyOk d (op == Op.FLUSH) = false then refused St.BAD_OPERAND
    else if natBits f 28 1 = 1 then
      if (streamLane s d.ctx (f % 256)).isSome = true then refused St.STREAM_OPEN
      else if natBits f 27 1 = 1 then queued false
      else if ctxStreams s ≤ openOf s d.ctx then refused St.STREAMS_FULL
      else queued (decide (streamsMax s ≤ openCount s))
    else match streamLane s d.ctx (f % 256) with
      | none => refused St.NO_STREAM
      | some l =>
        if op = Op.FLUSH then (if (laneOf s l).opcode = Op.COMPRESS then queued false else refused St.NO_STREAM)
        else if (laneOf s l).opcode = op ∧ (laneOf s l).framing = natBits f 30 2 then queued false else refused St.NO_STREAM) ∧
  (∀ (s : State) (id : Nat) (j : DfJob), oldestJob s (·.opening) = some (id, j) →
    exec .streamOpenWaitEnd s = .next (if openCount s < streamsMax s then setDfJob s id { j with opening := false } else s)) ∧
  (∀ (s : State) (id l : Nat) (j : DfJob), oldestJob s (fun j => (laneFor s j).isSome) = some (id, j) → laneFor s j = some l →
    (∀ p ∈ s.df.jobs, (laneFor s p.2).isSome = true → j.age ≤ p.2.age) ∧
    ∃ t, exec .laneGrant s = .next t ∧ tfind t.df.jobs id = some { j with lane := some l } ∧ (laneOf t l).job = some id ∧
      (j.first = true → (laneOf t l).isOpen = !j.last ∧ (laneOf t l).ctx = j.ctx ∧ (laneOf t l).tag = j.tag ∧ (laneOf t l).seen = []) ∧
      (∀ k, k ≠ l → laneOf t k = laneOf s k) ∧ t = { s with df := { s.df with jobs := t.df.jobs, lanes := t.df.lanes } }) ∧
  (∀ (s u : State) (id l : Nat) (j : DfJob) (d : Desc) (m : PageMap) (ps : List (Nat × List Byte)) (st : Nat),
    tfind s.df.jobs id = some j → j.lane = some l → fenceStatus s j.ctx 3 = none → AtEngine s id j.opcode d → d.err = 0 →
    let w : Who := { stream := 44 + l, ctx := j.ctx, eng := 3, ring := some j.ring }
    let x := laneOf s l
    prepare s w [{ va := j.inAddr, len := j.inBytes, kind := 0 }] = .ok u m → vaPoison u m j.inAddr j.inBytes = 0 →
    let input := vaRd u false m j.inAddr j.inBytes
    let work := if x.opcode = Op.COMPRESS then compressWork x j input else decompressWork x j input
    layOut s w j.listAddr j.listCount 0 (work.out.drop j.outBytes) (if j.outBytes = 0 then [] else [(j.outAddr, work.out.take j.outBytes)]) = .ok ps st →
    let cut := pagePieces (ps.filter (fun p => p.2 != []))
    piecesWait s w cut = none →
    let r := writePieces u w cut 0
    let st' := if r.2.2 = true then St.OUT_FAULT else if st ≠ 0 then st else work.res.status
    ∃ t, exec (.deflateJobComplete id) s = .next t ∧ tfind t.df.jobs id = none ∧ (∀ k, k ≠ l → laneOf t k = laneOf s k) ∧
      laneOf t l = (if work.res.close = true ∨ st' ≠ 0 ∨ work.lane.isOpen = false then { retired := work.lane.retired, dbl := work.lane.dbl }
        else { work.lane with job := none }) ∧
      (∀ y, tfind t.esc.descs id = some y → y.phase = .finished) ∧ (leAt d.bytes 0x38 8 = 0 → t.mem = r.1.mem)) ∧
  (∀ (s : State) (l : Nat) (pass : Bool), let x := laneOf s l
    (∃ t, exec (.laneEccError l false pass) s = .next t ∧ t = { s with regs := t.regs } ∧
      rfld t Reg.DF_ECC_CORRECTED 0 32 = satTo (2 ^ 32 - 1) (rfld s Reg.DF_ECC_CORRECTED 0 32 + 1)) ∧
    (∃ t, exec (.laneEccError l true pass) s = .next t ∧ (laneOf t l).dbl = true ∧
      (laneOf t l).retired = (x.retired || !pass || x.dbl) ∧
      (∀ id d, x.job = some id → tfind s.esc.descs id = some d → d.phase = .started → d.err = 0 →
        ∃ e, tfind t.esc.descs id = some e ∧ e.err = St.LANE_ECC) ∧
      (x.retired = false → (pass = false ∨ x.dbl = true) → t.bu.dirty = true ∧ rbit t Reg.DF_ERR 3 = true ∧
        (lanesLeft t = 0 → (fnOf t Fun.DEFLATE).st ≠ .up))))

/-- R303 to R308, R310, R313, R319, R320, R327: layer slots, layer updates, commits, latches, underflow, packets and
frame boundaries of the Crystal. -/
def Obligations.CrystalShowsItsLayers : Prop :=
  (∀ (s : State) (i : Nat) (val : Word), i < 64 → Reaches s (Reg.CR_SLOT i) →
    ∃ t, exec (.crSlotWrite i val) s = .next t ∧ t = { s with regs := t.regs } ∧
      if (slotOf s i).active = none ∧ (slotOf s i).shadow = none then getReg t (Reg.CR_SLOT i) = val &&& 0x80FF0000
      else rbit t Reg.CR_ERR 1 = true ∧ getReg t (Reg.CR_SLOT i) = getReg s (Reg.CR_SLOT i)) ∧
  (∀ (s : State) (id : Nat) (d : Desc), AtEngine s id Op.LAYER_UPDATE d →
    let n := natBits (leAt d.bytes 0x10 4) 0 7
    let va := leAt d.bytes 0x18 8
    let c := Instr.layerUpdate id
    if leAt d.bytes 0x10 8 ≠ n ∨ leAt d.bytes 0x20 32 ≠ 0 ∨ n = 0 ∨ 64 < n ∨ vaOk 64 va = false then Completes c s s id d St.BAD_OPERAND
    else ∀ u bs,
      readChain s { stream := 52, ctx := d.ctx, eng := 4, ring := some d.ring }
        [fun bs => ((cutRecs 128 (bs.getD 0 [])).filter (wantsEntry s d.ctx)).map (fun b => (lyAddr b, 64))] [(va, 128 * n)] = .ok u bs →
      let pair := fun (a : List (List Byte × List Byte) × List (List Byte)) (b : List Byte) =>
        if wantsEntry u d.ctx b = true then (a.1 ++ [(b, a.2.headD [])], a.2.drop 1) else (a.1 ++ [(b, [])], a.2)
      let xs := ((cutRecs 128 (bs.getD 0 [])).foldl pair ([], bs.drop 1)).1
      match xs.findSome? (fun x => lyFault u d.ctx x.1 x.2) with
      | some st => Completes c s u id d st
      | none => Completes c s (xs.foldl (fun s x => applyLayer s d.ctx x) u) id d St.SUCCESS) ∧
  (∀ (s : State) (id : Nat) (d : Desc), AtEngine s id Op.COMMIT d →
    let o := natBits (leAt d.bytes 0x10 4) 0 2
    let x := outOf s o
    let n := (genOf s o).next
    let c := Instr.commit id
    (∀ a ∈ x.armed, a.desc ≠ id) → id ∉ x.taken → (∀ q ∈ x.due, q.desc ≠ id) → leAt d.bytes 0x10 8 = o → leAt d.bytes 0x20 32 = 0 →
    vaOk 32 (leAt d.bytes 0x18 8) = true →
    if Config.crOutputs s.fuse.variant ≤ o ∨ outOwned s d.ctx o = false then leAt d.bytes 0x18 8 = 0 → Completes c s s id d St.NOT_OWNER
    else if outEn s o = false then leAt d.bytes 0x18 8 = 0 → Completes c s s id d St.OUTPUT_OFF
    else
      let late := latchTime s o ≤ s.time.cal ∨ x.latched = some n
      ∃ t, exec c s = .next t ∧ (late → outOf t o = { x with armed := x.armed ++ [{ desc := id, first := n + 1 }] } ∧
          rfld t (Reg.CR_OUT_MISSED o) 0 32 = satTo (2 ^ 32 - 1) (rfld s (Reg.CR_OUT_MISSED o) 0 32 + 1)) ∧
        (¬late → outOf t o = { x with armed := x.armed ++ [{ desc := id, first := n }] }) ∧ ∀ k, k ≠ o → outOf t k = outOf s k) ∧
  (∀ (s : State) (o : Nat), o < Config.crOutputs s.fuse.variant → outEn s o = true → genEn s o = true → latchTime s o ≤ s.time.cal →
    (outOf s o).latched ≠ some (genOf s o).next →
    let now := (outOf s o).armed.filter (fun a => decide (a.first ≤ (genOf s o).next))
    ∃ t, exec (.latch o) s = .next t ∧ (outOf t o).latched = some (genOf s o).next ∧
      (outOf t o).armed = (outOf s o).armed.filter (fun a => decide ((genOf s o).next < a.first)) ∧
      ((∀ a ∈ now, ∀ d, tfind s.esc.descs a.desc = some d → fenceStatus s d.ctx d.eng = none) → now ≠ [] →
        if setOk (outW s o) (outH s o) (layersOn (latchSlots s o) o) = true then
          (outOf t o).taken = now.map (·.desc) ∧ ∀ i, i < 64 → slotOf t i = latchSlot s o i (slotOf s i)
        else (∀ i, slotOf t i = slotOf s i) ∧ ∀ a ∈ now, ∃ q ∈ (outOf t o).due, q.desc = a.desc ∧ q.status = St.BAD_LAYER_SET)) ∧
  (∀ (s : State) (o : Nat) (q : CrDue) (qs : List CrDue) (d : Desc), (outOf s o).due = q :: qs → AtEngine s q.desc Op.COMMIT d → leAt d.bytes 0x18 8 = 0 →
    Completes (.commitComplete o) s (setOut s o { outOf s o with due := qs }) q.desc d q.status) ∧
  (∀ (s : State) (o b : Nat), o < 4 → (outOf s o).running = true → tfind (outOf s o).blocks b = none → b < blocksWide s o * ceilDiv (outH s o) 32 →
    (blockLayers s o b).2 ≠ [] →
    ∃ t, exec (.blockUnderflow o b) s = .next t ∧ tfind (outOf t o).blocks b = some (composeBlock s o b []) ∧ (outOf t o).uf = (outOf s o).uf + 1 ∧
      rbit t Reg.CR_ERR 2 = true ∧ rfld t (Reg.CR_OUT_UNDERFLOW o) 0 32 = satTo (2 ^ 32 - 1) (rfld s (Reg.CR_OUT_UNDERFLOW o) 0 32 + 1)) ∧
  (∀ (s : State) (o : Nat), let x := outOf s o
    let n := framePkts s o
    x.running = true → outEn s o = true → bit (txWord s o 0) 31 = true → x.pkt < n → genNum s o ≠ 0 →
    x.began + x.pkt * genDen s o * 1000000000 / (genNum s o * n) ≤ s.time.cal →
    ∃ t, exec (.packetTransmit o) s = .next t ∧ (outOf t o).pkt = x.pkt + 1 ∧
      ∀ b ∈ spanBlocks s o (pktSpan s o x.pkt).1 (pktSpan s o x.pkt).2, (tfind (outOf t o).blocks b).isSome = true) ∧
  (∀ (s : State) (k : Nat), k < 8 → genEn s k = true → (genOf s k).due ≤ s.time.cal →
    let n := (genOf s k).next
    let ev := rfld s (Reg.TM_GEN_CTRL k) 0 16
    ∃ t, exec (.frameBoundary k) s = .next t ∧ (genOf t k).next = n + 1 ∧
      (k < Config.crOutputs s.fuse.variant → outEn s k = true →
        (outOf t k).running = true ∧ (outOf t k).began = (genOf s k).due ∧ (outOf t k).pkt = 0 ∧ (outOf t k).taken = []) ∧
      (¬(k < Config.crOutputs s.fuse.variant ∧ outEn s k = true) → rbit s (Reg.TM_GEN_CTRL k) 30 = true → (evOf s ev).alloc = true →
        Recorded (evOf s ev) (evOf t ev) (.set false (n % 2 ^ 63)))) ∧
  (∀ (s : State) (o : Nat) (val : Word), o < Config.crOutputs s.fuse.variant → Reaches s (Reg.CR_OUT_CFG o) →
    let r := Reg.CR_OUT_CFG o
    let new := val &&& 0xFFFFFC00
    ∃ t, exec (.crOutCfgWrite o val) s = .next t ∧
      (outEn s o = false → bit new 31 = false → t = putReg s r new) ∧
      (outEn s o = true → new = setBit (getReg s r) 31 false → getReg t r = new ∧ (outOf t o).running = false ∧ (outOf t o).armed = [] ∧
        ∀ a ∈ (outOf s o).armed, ∃ q ∈ (outOf t o).due, q.desc = a.desc ∧ q.status = St.OUTPUT_OFF) ∧
      (outEn s o = false → bit new 31 = true → genEn s o = false → outEn t o = false ∧ rbit t Reg.MP_ERR 3 = true) ∧
      (outEn s o = false → bit new 31 = true → txOver (putReg s r new) (bits new 10 2) = false → genEn s o = true →
        rateOk (genNum s o) (genDen s o) 120 = true → getReg t r = new ∧ frameNo t o = 0))

/-- R317, R318, R320 to R325, R328: stream records, links, received packets and the ingest of frames. -/
def Obligations.MediaPortsIngest : Prop :=
  (∀ (s : State) (off : Nat) (val : Word), Reaches s off → Reg.MP_RXREC 0 ≤ off → off < Reg.MP_RXREC 256 → off % 4 = 0 →
    let base := off / 64 * 64
    if rbit s base 31 = true ∧ (off ≠ base ∨ bit val 31 = true) then
      ∃ t, exec (.streamRecordWrite off val) s = .next t ∧ rbit t Reg.MP_ERR 0 = true ∧ getReg t off = getReg s off ∧ t = { s with regs := t.regs }
    else exec (.streamRecordWrite off val) s = .next (putReg s off val)) ∧
  (∀ (s : State) (p : Nat), p < 4 →
    (∃ t, exec (.mediaLinkUp p) s = .next t ∧ Machine.linkUp t p = rbit s (Reg.MP_P_CFG p) 31 ∧ rfld t (Reg.MP_P_STATUS p) 0 2 = 3 ∧ t = { s with regs := t.regs }) ∧
    (∃ t, exec (.mediaLinkDown p) s = .next t ∧ Machine.linkUp t p = false ∧ (∀ k, k ≠ p → mpOf t k = mpOf s k) ∧
      (∀ i, (mpOf s p).ingest = some i → (mpOf t p).ingest = some (if i.frame.isSome = true then { i with dropped := true } else i)))) ∧
  (∀ (s : State) (p : Nat) (k : MediaPkt), p < 4 → Machine.linkUp s p = true →
    let tagged := rbit s (Reg.MP_P_CFG p) 12 = true ∧ k.vlan ≠ some (rfld s (Reg.MP_P_CFG p) 0 12)
    ∃ t, exec (.mediaPacketReceive p k) s = .next t ∧
      (k.fcsBad = true → rfld t (Reg.MP_P_FCS p) 0 32 = satTo (2 ^ 32 - 1) (rfld s (Reg.MP_P_FCS p) 0 32 + 1) ∧ t = { s with regs := t.regs }) ∧
      (k.fcsBad = false → tagged ∨ streamFor s p k = none →
        rfld t (Reg.MP_P_DISCARDED p) 0 32 = satTo (2 ^ 32 - 1) (rfld s (Reg.MP_P_DISCARDED p) 0 32 + 1) ∧ t = { s with regs := t.regs }) ∧
      (∀ rx, k.fcsBad = false → ¬tagged → streamFor s p k = some rx → (mpOf s p).ingest = none →
        tfind (mpOf t p).cur rx = some ((if bits (rxWord s p rx 0) 29 2 = 1 then be k.raw 4 4 else k.ts) + 1) ∧ (mpOf t p).ingest = none ∧
        t = { s with mp := t.mp }) ∧
      (∀ rx i f, k.fcsBad = false → ¬tagged → streamFor s p k = some rx → (mpOf s p).ingest = some i → i.rx = rx → i.ended = false → i.dropped = false →
        i.frame = some f → f ≠ (if bits (rxWord s p rx 0) 29 2 = 1 then be k.raw 4 4 else k.ts) →
        (mpOf t p).ingest = some { i with ended := true } ∧ t = { s with mp := t.mp })) ∧
  (∀ (s : State) (id : Nat) (d : Desc), AtEngine s id Op.INGEST d → (mpOf s (d.eng - 5)).ingest = none →
    let p := d.eng - 5
    let b := d.bytes
    let w0 := leAt b 0x10 4
    let rx := natBits w0 16 2
    let dest := natBits w0 30 2
    let c := Instr.ingest id
    if natBits w0 18 6 ≠ 0 ∨ leAt b 0x16 2 ≠ 0 ∨ dest = 3 ∨ vaOk 64 (leAt b 0x18 8) = false ∨ vaOk 64 (leAt b 0x20 8) = false ∨
        (dest = 0 ∧ leAt b 0x20 8 ≠ 0) ∨ vaOk 32 (leAt b 0x38 8) = false then Completes c s s id d St.BAD_OPERAND
    else if bit (rxWord s p rx 0) 31 = false then Completes c s s id d St.STREAM_OFF
    else ∀ u m, prepare s { stream := 56 + p, ctx := d.ctx, eng := d.eng, ring := some d.ring } [{ va := leAt b 0x18 8, len := 64, kind := 0 }] = .ok u m →
      ingestImageOk u d.ctx (bits (rxWord s p rx 0) 29 2 == 1) (natBits w0 29 1 == 1) (natBits w0 28 1 == 1) dest
        (bits (rxWord u p rx 1) 0 16) (bits (rxWord u p rx 1) 16 16) (vaRd u false m (leAt b 0x18 8) 64) = true →
      ∃ t i, exec c s = .next t ∧ (mpOf t p).ingest = some i ∧ i.desc = id ∧ i.ctx = d.ctx ∧ i.rx = rx ∧ i.dest = dest ∧
        i.img = vaRd u false m (leAt b 0x18 8) 64 ∧ i.memAddr = leAt b 0x20 8 ∧ i.rowEvent = natBits w0 0 16 ∧ i.rowBase = leAt b 0x28 8 ∧
        i.rows = 0 ∧ i.frame = none ∧ (∀ k, k ≠ p → mpOf t k = mpOf s k)) ∧
  (∀ (s u : State) (p : Nat) (i : Ingest) (k : MediaPkt), (mpOf s p).ingest = some i → i.waiting = [k] → i.dropped = false →
    (placeRuns s p i (runsOf s p i k) = .wait u →
      ∃ t, exec (.ingestRelease p) s = .next t ∧ (mpOf t p).ingest = some i) ∧
    (placeRuns s p i (runsOf s p i k) = .done u →
      let r := completeRows u p (noteRuns i (runsOf s p i k)) (igFmt i).gy
      fenceStatus r.1 i.ctx (5 + p) = none → ∃ t, exec (.ingestRelease p) s = .next t ∧ (mpOf t p).ingest = some { r.2 with waiting := [] })) ∧
  (∀ (s u : State) (p : Nat) (i : Ingest) (d : Desc), (mpOf s p).ingest = some i → AtEngine s i.desc Op.INGEST d →
    let miss := (List.range (igFmt i).frameH).filter (fun y => !rowWhole i y)
    (i.ended = true → i.waiting = [] → i.dropped = false → fenceStatus s i.ctx (5 + p) = none →
      placeRuns s p i (miss.map (fun y => (y, 0, List.replicate (igFmt i).frameW (List.replicate (igB i) (0 : Byte))))) = .done u →
      ∃ t, exec (.ingestFrameEnd p) s = .next t ∧ (mpOf t p).ingest = none ∧ ∀ y, tfind t.esc.descs i.desc = some y → y.phase = .finished) ∧
    ((i.dropped = true ∨ (i.frame ≠ none ∧ 3 ≤ s.sched.step)) →
      ∃ t, exec (.frameDrop p) s = .next t ∧ (mpOf t p).ingest = none ∧
        ∀ y, tfind t.esc.descs i.desc = some y → y.phase = .finished ∧ y.status = finalStatus s d St.INGEST_DROPPED))

/-- R326, R327, R320: Studio time acquires, locks, holds over and falls free; the RTC follows it; a frame generator
that is enabled takes the first boundary at or after the present. -/
def Obligations.StudioTimeIsKept : Prop :=
  (∀ (s : State) (port domain kind utc : Nat) (acc : Bool) (offset : Int), rbit s Reg.TM_CFG 31 = true → rfld s Reg.TM_CFG 24 2 = port →
    rfld s Reg.TM_CFG 16 8 = domain → rbit s (Reg.MP_P_STATUS port) 0 = true →
    ∃ t, exec (.ptpMessage port domain kind acc offset utc) s = .next t ∧
      (kind = 0 → acc = false → t = s) ∧
      (kind = 0 → acc = true → rfld t Reg.TM_UTC 0 16 = utc % 2 ^ 16 ∧ t.mp.announced = true ∧ tmState t = (if tmState s = 0 then 1 else tmState s)) ∧
      (kind = 1 → (-(2 ^ 31) ≤ offset ∧ offset ≤ 2 ^ 31 - 1 → (tmState s = 1 ∨ tmState s = 2) → offset.natAbs ≤ 10000 →
        getReg t Reg.TM_OFFSET = BitVec.ofInt 32 offset) ∧
        (tmState s = 1 → offset.natAbs < 1000 → s.mp.near + 1 < 16 → t.mp.near = s.mp.near + 1 ∧ tmState t = 1) ∧
        (tmState s = 1 → offset.natAbs < 1000 → 16 ≤ s.mp.near + 1 → tmState t = 2 ∧ rbit t Reg.TM_STATUS 3 = true ∧ t.mp.slew = -offset) ∧
        (tmState s = 1 → 1000 ≤ offset.natAbs → t.mp.near = 0 ∧ tmState t = 1) ∧
        (tmState s = 2 → 10000 < offset.natAbs → 4 ≤ s.mp.far + 1 → tmState t = 1) ∧
        (tmState s = 2 → offset.natAbs ≤ 10000 → t.mp.far = 0 ∧ t.mp.slew = -offset ∧ tmState t = 2))) ∧
  (∀ (s : State),
    (tmState s = 2 → ∃ t, exec .announceTimeout s = .next t ∧ tmState t = 3 ∧ t.mp.heldAt = s.time.dev ∧ t.mp.announced = false ∧ t.mp.slew = 0) ∧
    (tmState s ≠ 2 → exec .announceTimeout s = .next s) ∧
    (tmState s = 3 → s.mp.heldAt + rfld s Reg.TM_CFG 0 16 * 1000000000 ≤ s.time.dev →
      ∃ t, exec .holdoverExpiry s = .next t ∧ tmState t = 0 ∧ rbit t Reg.TM_STATUS 3 = false) ∧
    (tmState s = 2 → isDue s 6 1000000000 = true →
      ∃ t, exec .rtcUpdate s = .next t ∧ t.bu.backup.rtcNs = s.time.cal ∧ tget 0 t.time.last 6 = s.time.dev)) ∧
  (∀ (s : State) (k : Nat) (val : Word), k < 8 → Reaches s (Reg.TM_GEN_CTRL k) →
    let v := val &&& 0xC000FFFF
    let pinned := k < 4 ∧ rbit s (Reg.CR_OUT_CFG k) 31 = true ∧ bit v 31 = false
    ∃ t, exec (.generatorCtrlWrite k val) s = .next t ∧
      (pinned → rbit t Reg.MP_ERR 4 = true ∧ getReg t (Reg.TM_GEN_CTRL k) = getReg s (Reg.TM_GEN_CTRL k)) ∧
      (¬pinned → bit v 31 = true → rateOk (genNum s k) (genDen s k) 240 = false → rbit t Reg.MP_ERR 5 = true ∧ genEn t k = genEn s k) ∧
      (¬pinned → (bit v 31 = true → rateOk (genNum s k) (genDen s k) 240 = true) → getReg t (Reg.TM_GEN_CTRL k) = v ∧
        (bit v 31 = true → genEn s k = false → s.time.cal ≤ (genOf t k).due ∧
          (genOf t k).next = firstBoundary s k s.time.cal ∧ (genOf t k).due = boundaryAt s k (genOf t k).next)))
end

