-- ==== Sys2Proof/Laws/Tables.lean ====
section
/-! SUPPORT. Laws of sparse tables and of the bytes of a store: what a read after a write gives, and that every
operation keeps the canonical form. -/

namespace Sys2Proof.Machine

/-! ### Reading after writing -/

theorem tfind_tset {α : Type} (t : Tbl α) (i j : Nat) (v : α) :
    tfind (tset t i v) j = if j = i then some v else tfind t j := by
  induction t with
  | nil => simp [tset, tfind]
  | cons p t ih =>
    obtain ⟨k, w⟩ := p
    simp only [tset]
    split
    · simp only [tfind]
    · split
      · subst_vars; simp only [tfind]; split <;> simp_all
      · simp only [tfind, ih]; split <;> simp_all <;> omega

theorem tget_tset {α : Type} (d : α) (t : Tbl α) (i j : Nat) (v : α) :
    tget d (tset t i v) j = if j = i then v else tget d t j := by
  induction t with
  | nil => simp [tset, tget]
  | cons p t ih =>
    obtain ⟨k, w⟩ := p
    simp only [tset]
    split
    · simp only [tget]
    · split
      · subst_vars; simp only [tget]; split <;> simp_all
      · simp only [tget, ih]; split <;> simp_all <;> omega

/-- What a key reads as is its entry, or the default. -/
theorem tget_eq {α : Type} (d : α) (t : Tbl α) (i : Nat) : tget d t i = (tfind t i).getD d := by
  induction t with
  | nil => rfl
  | cons p t ih =>
    obtain ⟨k, w⟩ := p
    simp only [tget, tfind]
    split <;> simp [ih]

theorem tSorted_mono {α : Type} {lo lo' : Nat} {t : Tbl α} (h : lo' ≤ lo) (ht : tSorted lo t = true) :
    tSorted lo' t = true := by
  cases t with
  | nil => rfl
  | cons p t => simp [tSorted] at *; exact ⟨by omega, ht.2⟩

/-- A key below every key of a table is not listed. -/
theorem tfind_below {α : Type} {lo i : Nat} {t : Tbl α} (ht : tSorted lo t = true) (h : i < lo) : tfind t i = none := by
  induction t generalizing lo with
  | nil => rfl
  | cons p t ih =>
    obtain ⟨k, w⟩ := p
    simp only [tSorted, Bool.and_eq_true, decide_eq_true_eq] at ht
    simp only [tfind]
    rw [if_neg (by omega)]
    exact ih ht.2 (by omega)

theorem tfind_tdel {α : Type} (t : Tbl α) (i j : Nat) :
    tfind (tdel t i) j = if j = i then none else tfind t j := by
  induction t with
  | nil => simp [tdel, tfind]
  | cons p t ih =>
    obtain ⟨k, w⟩ := p
    simp only [tdel]
    split
    · subst_vars
      simp only [tfind, ih]
      split <;> rfl
    · simp only [tfind, ih]
      split <;> simp_all <;> omega

/-! ### The canonical form -/

theorem tSorted_tset {α : Type} {lo : Nat} {t : Tbl α} (ht : tSorted lo t = true) {i : Nat} (hi : lo ≤ i) (v : α) :
    tSorted lo (tset t i v) = true := by
  induction t generalizing lo with
  | nil => simp [tset, tSorted, hi]
  | cons p t ih =>
    obtain ⟨k, w⟩ := p
    simp only [tSorted, Bool.and_eq_true, decide_eq_true_eq] at ht
    simp only [tset]
    split
    · simp [tSorted, hi, ht.2]; omega
    · split
      · subst_vars; simp [tSorted, hi, ht.2]
      · simp [tSorted, ht.1, ih ht.2 (by omega)]

theorem tSorted_tdel {α : Type} {lo : Nat} {t : Tbl α} (ht : tSorted lo t = true) (i : Nat) :
    tSorted lo (tdel t i) = true := by
  induction t generalizing lo with
  | nil => rfl
  | cons p t ih =>
    obtain ⟨k, w⟩ := p
    simp only [tSorted, Bool.and_eq_true, decide_eq_true_eq] at ht
    simp only [tdel]
    split
    · exact tSorted_mono (by omega) (ih ht.2)
    · simp [tSorted, ht.1, ih ht.2]

theorem all_tset {α : Type} {q : α → Bool} {t : Tbl α} (ht : t.all (fun p => q p.2) = true) (i : Nat) {v : α}
    (hv : q v = true) : (tset t i v).all (fun p => q p.2) = true := by
  induction t with
  | nil => simp [tset, hv]
  | cons p t ih =>
    obtain ⟨k, w⟩ := p
    simp only [List.all_cons, Bool.and_eq_true] at ht
    simp only [tset]
    split
    · simp only [List.all_cons, Bool.and_eq_true]; exact ⟨hv, ht.1, ht.2⟩
    · split
      · simp only [List.all_cons, Bool.and_eq_true]; exact ⟨hv, ht.2⟩
      · simp only [List.all_cons, Bool.and_eq_true]; exact ⟨ht.1, ih ht.2⟩

theorem all_tdel {α : Type} {q : α → Bool} {t : Tbl α} (ht : t.all (fun p => q p.2) = true) (i : Nat) :
    (tdel t i).all (fun p => q p.2) = true := by
  induction t with
  | nil => rfl
  | cons p t ih =>
    obtain ⟨k, w⟩ := p
    simp only [List.all_cons, Bool.and_eq_true] at ht
    simp only [tdel]
    split
    · exact ih ht.2
    · simp only [List.all_cons, Bool.and_eq_true]; exact ⟨ht.1, ih ht.2⟩

/-- Writing a key keeps the canonical form. -/
theorem tWf_tput {α : Type} [DecidableEq α] {d : α} {t : Tbl α} (ht : tWf d t = true) (i : Nat) (v : α) :
    tWf d (tput d t i v) = true := by
  simp only [tWf, Bool.and_eq_true] at *
  unfold tput
  split
  · exact ⟨tSorted_tdel ht.1 i, all_tdel (q := fun x => decide (x ≠ d)) ht.2 i⟩
  · exact ⟨tSorted_tset ht.1 (by omega) v, all_tset (q := fun x => decide (x ≠ d)) ht.2 i (by simpa)⟩

/-- A key just written reads as the value, and any other key as before. -/
theorem tget_tput {α : Type} [DecidableEq α] (d : α) (t : Tbl α) (i j : Nat) (v : α) :
    tget d (tput d t i v) j = if j = i then v else tget d t j := by
  unfold tput
  split
  · rw [tget_eq, tget_eq, tfind_tdel]; split <;> simp_all
  · exact tget_tset d t i j v

/-- The entry of a key after a write: none where the value is the default. -/
theorem tfind_tput {α : Type} [DecidableEq α] (d : α) (t : Tbl α) (i j : Nat) (v : α) :
    tfind (tput d t i v) j = if j = i then (if v = d then none else some v) else tfind t j := by
  unfold tput
  split
  · rw [tfind_tdel]
  · exact tfind_tset t i j v

/-- Two canonical tables that read alike are one table. -/
theorem tWf_ext {α : Type} [DecidableEq α] {d : α} {t u : Tbl α} (ht : tWf d t = true) (hu : tWf d u = true)
    (h : ∀ i, tget d t i = tget d u i) : t = u := by
  have gen : ∀ (t u : Tbl α) (lo : Nat), tSorted lo t = true → tSorted lo u = true →
      t.all (fun p => decide (p.2 ≠ d)) = true → u.all (fun p => decide (p.2 ≠ d)) = true →
      (∀ i, tget d t i = tget d u i) → t = u := by
    intro t
    induction t with
    | nil =>
      intro u lo _ hu _ hu' h
      cases u with
      | nil => rfl
      | cons q u =>
        have := h q.1
        simp [tget] at this hu'
        exact absurd this.symm hu'.1
    | cons p t ih =>
      intro u lo ht hu ht' hu' h
      obtain ⟨k, w⟩ := p
      cases u with
      | nil =>
        have := h k
        simp [tget] at this ht'
        exact absurd this ht'.1
      | cons q u =>
        obtain ⟨k', w'⟩ := q
        simp only [tSorted, Bool.and_eq_true, decide_eq_true_eq] at ht hu
        simp only [List.all_cons, Bool.and_eq_true, decide_eq_true_eq] at ht' hu'
        have low : ∀ {n i : Nat} {x : Tbl α}, tSorted n x = true → i < n → tget d x i = d := by
          intro n i x hx hi
          rw [tget_eq, tfind_below hx hi]; rfl
        have hk : k = k' := by
          rcases Nat.lt_trichotomy k k' with hlt | heq | hgt
          · have := h k
            simp only [tget, if_true] at this
            rw [if_neg (by omega), low hu.2 (by omega)] at this
            exact absurd this ht'.1
          · exact heq
          · have := h k'
            simp only [tget, if_true] at this
            rw [if_neg (by omega), low ht.2 (by omega)] at this
            exact absurd this.symm hu'.1
        subst hk
        have hw : w = w' := by simpa [tget] using h k
        subst hw
        congr 1
        refine ih u (k + 1) ht.2 hu.2 ht'.2 hu'.2 (fun i => ?_)
        by_cases hi : i < k + 1
        · rw [low ht.2 hi, low hu.2 hi]
        · have := h i
          simpa [tget, show i ≠ k by omega] using this
  simp only [tWf, Bool.and_eq_true] at ht hu
  exact gen t u 0 ht.1 hu.1 ht.2 hu.2 h

/-! ### Bytes of a store -/

theorem tWf_memWr {t : Tbl Byte} (ht : tWf 0 t = true) (a : Nat) (d : List Byte) : tWf 0 (memWr t a d) = true := by
  induction d generalizing t a with
  | nil => exact ht
  | cons b d ih => exact ih (tWf_tput ht a b) (a + 1)

/-- A byte of a store after a write: one of the bytes written, or what it was. -/
theorem tget_memWr (t : Tbl Byte) (a : Nat) (d : List Byte) (x : Nat) :
    tget 0 (memWr t a d) x = if a ≤ x ∧ x < a + d.length then d.getD (x - a) 0 else tget 0 t x := by
  induction d generalizing t a with
  | nil => rw [memWr, List.length_nil, if_neg (by omega)]
  | cons b d ih =>
    rw [memWr, ih, tget_tput]
    simp only [List.length_cons]
    by_cases h1 : a + 1 ≤ x ∧ x < a + 1 + d.length
    · rw [if_pos h1, if_pos (by omega), show x - a = (x - (a + 1)) + 1 by omega]; simp
    · rw [if_neg h1]
      by_cases h2 : x = a
      · subst h2; simp
      · rw [if_neg h2, if_neg (by omega)]

theorem memRd_length (t : Tbl Byte) (a n : Nat) : (memRd t a n).length = n := by
  induction n generalizing a with
  | zero => rfl
  | succ n ih => simp [memRd, ih]

theorem memRd_getD (t : Tbl Byte) (a n i : Nat) (h : i < n) : (memRd t a n).getD i 0 = tget 0 t (a + i) := by
  induction n generalizing a i with
  | zero => omega
  | succ n ih =>
    cases i with
    | zero => simp [memRd]
    | succ i =>
      have := ih (a + 1) i (by omega)
      simp only [memRd, List.getD_cons_succ]
      rw [this]; congr 1; omega

theorem toLe_length (x n : Nat) : (toLe x n).length = n := by
  induction n generalizing x with
  | zero => rfl
  | succ n ih => simp [toLe, ih]

theorem leNat_toLe (x n : Nat) : leNat (toLe x n) = x % 256 ^ n := by
  induction n generalizing x with
  | zero => simp [toLe, leNat, Nat.mod_one]
  | succ n ih =>
    have h : x % 256 ^ (n + 1) = x % 256 + 256 * (x / 256 % 256 ^ n) := by
      rw [Nat.pow_succ, Nat.mul_comm (256 ^ n) 256, Nat.mod_mul]
    rw [h]
    simp only [toLe, leNat, ih, BitVec.toNat_ofNat]

end Sys2Proof.Machine
end

