-- ==== Sys2Proof/Laws/Keeps.lean ====
section
/-! SUPPORT. The relation that every operation of the part keeps between the state it starts from and the one it
answers, and the rules by which it is shown: one lemma per way an operation is put together. -/

namespace Sys2Proof.Machine

/-- `t` follows from `s` by work that leaves the fuses and the queue, keeps the invariant, and, where `d`, keeps the
durable records. -/
structure Keeps (d : Prop) (s t : State) : Prop where
  fuse : t.fuse = s.fuse
  pending : t.pending = s.pending
  mem : MemOk s.mem → MemOk t.mem
  ch : ChOk s.ch → ChOk t.ch
  durable : d → ChOk s.ch → DurableIn s.ch t.ch

variable {d : Prop} {s0 s t : State}

theorem Keeps.refl (s : State) : Keeps d s s := ⟨rfl, rfl, id, id, fun _ _ => ⟨Nat.le_refl _, rfl⟩⟩

theorem DurableIn.trans {a b c : Chrono} (h : DurableIn a b) (k : DurableIn b c) : DurableIn a c := by
  refine ⟨Nat.le_trans h.1 k.1, ?_⟩
  have := congrArg (List.take a.durable) k.2
  rw [List.take_take, List.take_take, Nat.min_eq_left h.1] at this
  exact h.2.trans this

theorem Keeps.trans {u : State} (h : Keeps d s t) (k : Keeps d t u) : Keeps d s u :=
  ⟨k.fuse.trans h.fuse, k.pending.trans h.pending, fun m => k.mem (h.mem m), fun m => k.ch (h.ch m),
    fun x m => (h.durable x m).trans (k.durable x (h.ch m))⟩

/-- A step of work whose memory and Chronograph keep what is asked. -/
theorem Keeps.upd (h : Keeps d s0 s) (hf : t.fuse = s.fuse) (hp : t.pending = s.pending) (hm : MemOk s.mem → MemOk t.mem)
    (hc : ChOk s.ch → ChOk t.ch ∧ (d → DurableIn s.ch t.ch)) : Keeps d s0 t :=
  h.trans ⟨hf, hp, hm, fun x => (hc x).1, fun y x => (hc x).2 y⟩

theorem Keeps.updMem (h : Keeps d s0 s) (hf : t.fuse = s.fuse) (hp : t.pending = s.pending) (hc : t.ch = s.ch)
    (hm : MemOk s.mem → MemOk t.mem) : Keeps d s0 t :=
  h.upd hf hp hm (fun x => by rw [hc]; exact ⟨x, fun _ => ⟨Nat.le_refl _, rfl⟩⟩)

theorem Keeps.updCh (h : Keeps d s0 s) (hf : t.fuse = s.fuse) (hp : t.pending = s.pending) (hm : t.mem = s.mem)
    (hc : ChOk s.ch → ChOk t.ch ∧ (d → DurableIn s.ch t.ch)) : Keeps d s0 t :=
  h.upd hf hp (fun x => by rw [hm]; exact x) hc

/-- A record update that touches neither the memories, the Chronograph, the fuses nor the queue. -/
theorem Keeps.fields {b1 b2 b3 b4 c1 c2 c3 c4 c5 c6 c7 c8 c9 c10 c11 c12 e1 e2 e3 e4 e5 e6 e7 e8 e9 e10}
    (h : Keeps d s0 s) : Keeps d s0 ⟨s.fuse, b1, b2, b3, b4, s.mem, c1, c2, c3, c4, c5, c6, c7, c8, c9, c10, c11, c12,
      s.ch, e1, e2, e3, e4, e5, e6, e7, e8, e9, e10, s.pending⟩ :=
  h.upd rfl rfl id (fun x => ⟨x, fun _ => ⟨Nat.le_refl _, rfl⟩⟩)

/-- A record update that also changes the Chronograph's settings, but none of its stores. -/
theorem Keeps.chFields {b1 b2 b3 b4 c1 c2 c3 c4 c5 c6 c7 c8 c9 c10 c11 c12 e1 e2 e3 e4 e5 e6 e7 e8 e9 e10 x1 x2 x3 x4}
    (h : Keeps d s0 s) : Keeps d s0 ⟨s.fuse, b1, b2, b3, b4, s.mem, c1, c2, c3, c4, c5, c6, c7, c8, c9, c10, c11, c12,
      ⟨s.ch.circ, x1, s.ch.perm, s.ch.durable, s.ch.erasing, x2, x3, s.ch.held, x4⟩,
      e1, e2, e3, e4, e5, e6, e7, e8, e9, e10, s.pending⟩ :=
  h.upd rfl rfl id (fun x => ⟨x, fun _ => ⟨Nat.le_refl _, rfl⟩⟩)

theorem Keeps.ite {c : Prop} [Decidable c] {a b : State} (h : c → Keeps d s0 a) (k : ¬c → Keeps d s0 b) :
    Keeps d s0 (if c then a else b) := by
  by_cases e : c
  · rw [if_pos e]; exact h e
  · rw [if_neg e]; exact k e

theorem Keeps.foldl {α : Type} {l : List α} {f : State → α → State} (h : Keeps d s0 s)
    (hf : ∀ x a, Keeps d s0 x → Keeps d s0 (f x a)) : Keeps d s0 (l.foldl f s) := by
  induction l generalizing s with
  | nil => exact h
  | cons a l ih => exact ih (hf s a h)

theorem Keeps.foldlFst {α β : Type} {l : List α} {f : State × β → α → State × β} {p : State × β} (h : Keeps d s0 p.1)
    (hf : ∀ x a, Keeps d s0 x.1 → Keeps d s0 (f x a).1) : Keeps d s0 (l.foldl f p).1 := by
  induction l generalizing p with
  | nil => exact h
  | cons a l ih => exact ih (hf p a h)

/-- A command's answer: its next state, if it has one, is kept. -/
structure KeepsO (d : Prop) (s0 : State) (o : Out) : Prop where
  out : ∀ t, o = .next t → Keeps d s0 t

theorem KeepsO.next (h : Keeps d s0 t) : KeepsO d s0 (.next t) := ⟨fun _ e => by injection e with e; exact e ▸ h⟩

/-- The state in what preparing an access answers. -/
def Prep.st : Prep → State
  | .ok s _ => s
  | .wait s => s
  | .fault s _ => s

def LaneMem.st : LaneMem → State
  | .wait s => s
  | .go s _ _ => s

def Fetched.st : Fetched → State
  | .no s => s
  | .here s _ => s

def Placed.st : Placed → State
  | .wait s => s
  | .done s => s
  | .stop s _ => s

def Chain.st : Chain → State
  | .wait s => s
  | .fault s => s
  | .ok s _ => s

def Laid.stOr (s : State) : Laid → State
  | .ok _ _ => s
  | .wait t => t
  | .fault _ _ t => t

/-- An optional answer, where there is one. -/
structure KeepsP (d : Prop) (s0 : State) {α : Type} (f : α → State) (o : Option α) : Prop where
  out : ∀ x, o = some x → Keeps d s0 (f x)

theorem KeepsP.none {α : Type} {f : α → State} : KeepsP d s0 f none := ⟨fun _ e => nomatch e⟩
theorem KeepsP.some {α : Type} {f : α → State} {x : α} (h : Keeps d s0 (f x)) : KeepsP d s0 f (some x) :=
  ⟨fun _ e => by injection e with e; exact e ▸ h⟩

theorem KeepsP.map {α β : Type} {f : β → State} {g : α → β} {o : Option α} (h : KeepsP d s0 (fun x => f (g x)) o) :
    KeepsP d s0 f (o.map g) := ⟨fun x e => by
  cases o with
  | none => nomatch e
  | some y => injection e with e; exact e ▸ h.out y rfl⟩

end Sys2Proof.Machine
end

