-- ==== Sys2Proof/Laws/KeepsA.lean ====
section
/-! SUPPORT. Every operation of the part keeps the relation `Keeps` (operations in the order in which they use
one another): one lemma for each, used by the next. -/

namespace Sys2Proof.Machine

variable {d : Prop} {s0 : State}

theorem retainedDirty_keeps {s : State} (k0 : Keeps d s0 s) : Keeps d s0 (retainedDirty s) := by
  unfold retainedDirty
  with_reducible apply Keeps.fields
  with_reducible assumption

theorem markDone_keeps {s : State} {id : Nat} (k0 : Keeps d s0 s) : Keeps d s0 (markDone s id) := by
  unfold markDone
  with_reducible apply Keeps.fields
  with_reducible assumption

theorem setCtx_keeps {s : State} {c : Nat} {x : Ctx} (k0 : Keeps d s0 s) : Keeps d s0 (setCtx s c x) := by
  unfold setCtx
  with_reducible apply Keeps.fields
  with_reducible assumption

theorem addWide_keeps {s : State} {lo : Nat} {n : Nat} (k0 : Keeps d s0 s) : Keeps d s0 (addWide s lo n) := by
  unfold addWide
  with_reducible apply Keeps.fields
  with_reducible assumption

theorem setPort_keeps {s : State} {p : Nat} {x : Port} (k0 : Keeps d s0 s) : Keeps d s0 (setPort s p x) := by
  unfold setPort
  with_reducible apply Keeps.fields
  with_reducible assumption

theorem setFn_keeps {s : State} {n : Nat} {f : Fn} (k0 : Keeps d s0 s) : Keeps d s0 (setFn s n f) := by
  unfold setFn
  with_reducible apply Keeps.fields
  with_reducible assumption

theorem tickFor_keeps {s : State} {c : Nat} {e : Nat} (k0 : Keeps d s0 s) : Keeps d s0 (tickFor s c e) := by
  unfold tickFor
  apply Keeps.ite
  intro _
  with_reducible assumption
  intro _
  with_reducible apply Keeps.fields
  with_reducible assumption

theorem putReg_keeps {s : State} {off : Nat} {w : Word} (k0 : Keeps d s0 s) : Keeps d s0 (putReg s off w) := by
  unfold putReg
  with_reducible apply Keeps.fields
  with_reducible assumption

theorem drawFree_keeps {s : State} {w : Nat} (k0 : Keeps d s0 s) : Keeps d s0 (drawFree s w).2 := by
  unfold drawFree
  with_reducible apply Keeps.fields
  with_reducible assumption

theorem drawFree_eq {s : State} {w : Nat} {y} {t : State} (e : drawFree s w = (y, t)) (k0 : Keeps d s0 s) : Keeps d s0 t := by
  have h : Keeps d s0 (drawFree s w).2 := drawFree_keeps k0
  rw [e] at h
  exact h

theorem setEv_keeps {s : State} {e : Nat} {x : Ev} (k0 : Keeps d s0 s) : Keeps d s0 (setEv s e x) := by
  unfold setEv
  with_reducible apply Keeps.fields
  with_reducible assumption

theorem dropArrived_keeps {s : State} {stream : Nat} {c : Nat} (k0 : Keeps d s0 s) : Keeps d s0 (dropArrived s stream c) := by
  unfold dropArrived
  with_reducible apply Keeps.fields
  with_reducible assumption

theorem sendSnoop_keeps {s : State} {l : Nat} (k0 : Keeps d s0 s) : Keeps d s0 (sendSnoop s l) := by
  unfold sendSnoop
  apply Keeps.ite
  intro _
  with_reducible assumption
  intro _
  with_reducible apply Keeps.fields
  with_reducible assumption

theorem failEntry_keeps {s : State} {r : FaultRec} (k0 : Keeps d s0 s) : Keeps d s0 (failEntry s r) := by
  unfold failEntry
  apply Keeps.ite
  intro _
  with_reducible apply Keeps.fields
  with_reducible assumption
  intro _
  with_reducible apply Keeps.fields
  apply setCtx_keeps
  with_reducible assumption

theorem failJoined_keeps {s : State} {r : FaultRec} (k0 : Keeps d s0 s) : Keeps d s0 (failJoined s r) := by
  unfold failJoined
  apply Keeps.ite
  intro _
  apply failEntry_keeps
  with_reducible assumption
  intro _
  with_reducible apply Keeps.fields
  apply failEntry_keeps
  with_reducible assumption

theorem dropDir_keeps {s : State} {host : Bool} {a : Nat} {n : Nat} (k0 : Keeps d s0 s) : Keeps d s0 (dropDir s host a n) := by
  unfold dropDir
  with_reducible apply Keeps.fields
  with_reducible assumption

theorem takeFault_keeps {s : State} {w : Who} {f : (Nat × Nat × Nat) × Nat × Bool} (k0 : Keeps d s0 s) : Keeps d s0 (takeFault s w f) := by
  unfold takeFault
  apply Keeps.ite
  intro _
  with_reducible apply Keeps.fields
  with_reducible assumption
  intro _
  apply failEntry_keeps
  with_reducible assumption

theorem askSnoops_keeps {s : State} {m : PageMap} {a : Acc} (k0 : Keeps d s0 s) : Keeps d s0 (askSnoops s m a).1 := by
  unfold askSnoops
  apply Keeps.foldlFst
  with_reducible assumption
  intro _ _ _
  with_reducible apply Keeps.fields
  split
  with_reducible apply Keeps.fields
  split
  apply Keeps.foldl
  with_reducible assumption
  intro _ _ _
  apply sendSnoop_keeps
  with_reducible assumption
  with_reducible assumption
  with_reducible assumption

theorem askSnoops_eq {s : State} {m : PageMap} {a : Acc} {y} {t : State} (e : askSnoops s m a = (t, y)) (k0 : Keeps d s0 s) : Keeps d s0 t := by
  have h : Keeps d s0 (askSnoops s m a).1 := askSnoops_keeps k0
  rw [e] at h
  exact h

theorem memStore_keeps {s : State} {host : Bool} {a : Nat} {x3 : List Byte} (k0 : Keeps d s0 s) :
    Keeps d s0 (memStore s host a x3) := by
  unfold memStore
  split
  · exact k0.updMem rfl rfl rfl (fun h => ⟨h.1, tWf_memWr h.2.1 _ _, h.2.2.1, h.2.2.2⟩)
  · exact k0.updMem rfl rfl rfl (fun h => ⟨tWf_memWr h.1 _ _, h.2.1, h.2.2.1, h.2.2.2.filter _⟩)

theorem setDesc_keeps {s : State} {id : Nat} {x2 : Desc} (k0 : Keeps d s0 s) : Keeps d s0 (setDesc s id x2) := by
  unfold setDesc
  with_reducible apply Keeps.fields
  with_reducible assumption

theorem fenceJobs_keeps {s : State} {c : Nat} (k0 : Keeps d s0 s) : Keeps d s0 (fenceJobs s c) := by
  unfold fenceJobs
  with_reducible apply Keeps.fields
  with_reducible assumption

theorem closeStreams_keeps {s : State} {p : Lane → Bool} (k0 : Keeps d s0 s) : Keeps d s0 (closeStreams s p) := by
  unfold closeStreams
  with_reducible apply Keeps.fields
  with_reducible assumption

theorem countJob_keeps {s : State} {x1 : Desc} (k0 : Keeps d s0 s) : Keeps d s0 (countJob s x1) := by
  unfold countJob
  apply Keeps.ite
  intro _
  apply setCtx_keeps
  with_reducible assumption
  intro _
  with_reducible assumption

theorem settleAll_keeps {s : State} (k0 : Keeps d s0 s) : Keeps d s0 (settleAll s) := by
  unfold settleAll
  with_reducible apply Keeps.fields
  with_reducible assumption

theorem noteFail_keeps {s : State} {id : Nat} {code : Nat} (k0 : Keeps d s0 s) : Keeps d s0 (noteFail s id code) := by
  unfold noteFail
  with_reducible apply Keeps.fields
  split
  apply Keeps.ite
  intro _
  apply setDesc_keeps
  with_reducible apply Keeps.fields
  with_reducible assumption
  intro _
  with_reducible apply Keeps.fields
  with_reducible assumption
  with_reducible apply Keeps.fields
  with_reducible assumption

theorem finishDesc_keeps {s : State} {id : Nat} {status : Nat} (k0 : Keeps d s0 s) : Keeps d s0 (finishDesc s id status) := by
  unfold finishDesc
  with_reducible apply Keeps.fields
  split
  with_reducible assumption
  apply Keeps.ite
  intro _
  with_reducible assumption
  intro _
  apply setDesc_keeps
  with_reducible assumption

theorem indDone_keeps {s : State} {id : Nat} {x2 : Desc} (k0 : Keeps d s0 s) : Keeps d s0 (indDone s id x2) := by
  unfold indDone
  apply setDesc_keeps
  with_reducible assumption

theorem setRing_keeps {s : State} {r : Nat} {x : Ring} (k0 : Keeps d s0 s) : Keeps d s0 (setRing s r x) := by
  unfold setRing
  with_reducible apply Keeps.fields
  with_reducible assumption

theorem execDescriptorStart_keeps {ring : Nat} {s : State} (k1 : Keeps d s0 s) : KeepsO d s0 (execDescriptorStart ring s) := by
  unfold execDescriptorStart
  apply KeepsO.next
  with_reducible apply Keeps.fields
  split
  with_reducible assumption
  apply Keeps.ite
  intro _
  apply setDesc_keeps
  with_reducible assumption
  intro _
  with_reducible assumption

theorem hostData_keeps {s : State} {v : Nat} (k0 : Keeps d s0 s) : Keeps d s0 (hostData s v) := by
  unfold hostData
  with_reducible apply Keeps.fields
  with_reducible assumption

theorem execReserve_keeps {ring : Nat} {s : State} (k1 : Keeps d s0 s) : KeepsO d s0 (execReserve ring s) := by
  unfold execReserve
  apply KeepsO.next
  apply Keeps.ite
  intro _
  with_reducible assumption
  intro _
  with_reducible apply Keeps.fields
  split
  apply hostData_keeps
  with_reducible assumption
  apply Keeps.ite
  intro _
  apply hostData_keeps
  with_reducible assumption
  intro _
  with_reducible apply Keeps.fields
  split
  apply hostData_keeps
  with_reducible assumption
  apply hostData_keeps
  apply setRing_keeps
  with_reducible assumption

theorem allocRun_keeps {s : State} {c : Nat} {first : Nat} {a : Nat} (k0 : Keeps d s0 s) : Keeps d s0 (allocRun s c first a) := by
  induction a generalizing s first with
  | zero =>
    unfold allocRun
    with_reducible assumption
  | succ n ih =>
    unfold allocRun
    apply ih
    apply setEv_keeps
    with_reducible assumption

theorem freeEv_keeps {s : State} {e : Nat} (k0 : Keeps d s0 s) : Keeps d s0 (freeEv s e) := by
  unfold freeEv
  with_reducible apply Keeps.fields
  apply setEv_keeps
  with_reducible assumption

theorem noteScrub_keeps {s : State} {target : Nat} {a : Nat} {double : Bool} (k0 : Keeps d s0 s) : Keeps d s0 (noteScrub s target a double) := by
  unfold noteScrub
  with_reducible apply Keeps.fields
  with_reducible assumption

theorem setJob_keeps {s : State} {j : Nat} {x : Job} (k0 : Keeps d s0 s) : Keeps d s0 (setJob s j x) := by
  unfold setJob
  with_reducible apply Keeps.fields
  with_reducible assumption

theorem setMbox_keeps {s : State} {m : Nat} {x : Mbox} (k0 : Keeps d s0 s) : Keeps d s0 (setMbox s m x) := by
  unfold setMbox
  with_reducible apply Keeps.fields
  with_reducible assumption

theorem execContextDrainEnd_keeps {ctx : Nat} {s : State} (k1 : Keeps d s0 s) : KeepsO d s0 (execContextDrainEnd ctx s) := by
  unfold execContextDrainEnd
  apply KeepsO.next
  apply Keeps.ite
  intro _
  with_reducible apply Keeps.fields
  apply setCtx_keeps
  with_reducible assumption
  intro _
  with_reducible assumption

theorem closePeriod_keeps {s : State} (k0 : Keeps d s0 s) : Keeps d s0 (closePeriod s) := by
  unfold closePeriod
  with_reducible apply Keeps.fields
  with_reducible assumption

theorem foldBanks_keeps {s : State} {c : Nat} (k0 : Keeps d s0 s) : Keeps d s0 (foldBanks s c) := by
  unfold foldBanks
  apply setCtx_keeps
  with_reducible apply Keeps.fields
  with_reducible assumption

theorem zeroGran_keeps {s : State} {g : Nat} (k0 : Keeps d s0 s) : Keeps d s0 (zeroGran s g) := by
  unfold zeroGran
  with_reducible apply Keeps.fields
  with_reducible assumption

theorem setGran_keeps {s : State} {g : Nat} {x : Gran} (k0 : Keeps d s0 s) : Keeps d s0 (setGran s g x) := by
  unfold setGran
  with_reducible apply Keeps.fields
  with_reducible assumption

theorem setModel_keeps {s : State} {i : Nat} {m : Model} (k0 : Keeps d s0 s) : Keeps d s0 (setModel s i m) := by
  unfold setModel
  with_reducible apply Keeps.fields
  with_reducible assumption

theorem markAdm_keeps {s : State} {i : Nat} {cause : Nat} (k0 : Keeps d s0 s) : Keeps d s0 (markAdm s i cause) := by
  unfold markAdm
  with_reducible apply Keeps.fields
  with_reducible assumption

theorem freeFrames_keeps {s : State} {i : Nat} (k0 : Keeps d s0 s) : Keeps d s0 (freeFrames s i) := by
  unfold freeFrames
  with_reducible apply Keeps.fields
  with_reducible assumption

theorem makeEligible_keeps {s : State} {ids : List Nat} (k0 : Keeps d s0 s) : Keeps d s0 (makeEligible s ids) := by
  unfold makeEligible
  apply Keeps.ite
  intro _
  with_reducible assumption
  intro _
  with_reducible apply Keeps.fields
  split
  apply Keeps.ite
  intro _
  apply setCtx_keeps
  with_reducible apply Keeps.fields
  with_reducible apply Keeps.fields
  with_reducible assumption
  intro _
  with_reducible apply Keeps.fields
  with_reducible assumption
  with_reducible apply Keeps.fields
  with_reducible assumption

theorem setFrame_keeps {s : State} {f : Nat} {x : Frame} (k0 : Keeps d s0 s) : Keeps d s0 (setFrame s f x) := by
  unfold setFrame
  with_reducible apply Keeps.fields
  with_reducible assumption

theorem startFill_keeps {s : State} {i : Nat} {m : Model} (k0 : Keeps d s0 s) : Keeps d s0 (startFill s i m) := by
  unfold startFill
  apply setModel_keeps
  with_reducible apply Keeps.fields
  with_reducible assumption

theorem requestModel_keeps {s : State} {i : Nat} (k0 : Keeps d s0 s) : Keeps d s0 (requestModel s i) := by
  unfold requestModel
  with_reducible apply Keeps.fields
  split
  with_reducible assumption
  apply Keeps.ite
  intro _
  with_reducible assumption
  intro _
  with_reducible apply Keeps.fields
  with_reducible assumption

theorem setDfJob_keeps {s : State} {x1 : Nat} {j : DfJob} (k0 : Keeps d s0 s) : Keeps d s0 (setDfJob s x1 j) := by
  unfold setDfJob
  with_reducible apply Keeps.fields
  with_reducible assumption

theorem execStreamOpenWaitEnd_keeps {s : State} (k0 : Keeps d s0 s) : KeepsO d s0 (execStreamOpenWaitEnd s) := by
  unfold execStreamOpenWaitEnd
  apply KeepsO.next
  with_reducible apply Keeps.fields
  split
  with_reducible assumption
  apply Keeps.ite
  intro _
  apply setDfJob_keeps
  with_reducible assumption
  intro _
  with_reducible assumption

theorem setLane_keeps {s : State} {l : Nat} {x : Lane} (k0 : Keeps d s0 s) : Keeps d s0 (setLane s l x) := by
  unfold setLane
  with_reducible apply Keeps.fields
  with_reducible assumption

theorem setWg_keeps {s : State} {w : Nat} {x : Wg} (k0 : Keeps d s0 s) : Keeps d s0 (setWg s w x) := by
  unfold setWg
  with_reducible apply Keeps.fields
  with_reducible assumption

theorem setDisp_keeps {s : State} {x1 : Nat} {x : Disp} (k0 : Keeps d s0 s) : Keeps d s0 (setDisp s x1 x) := by
  unfold setDisp
  with_reducible apply Keeps.fields
  with_reducible assumption

theorem syncSteal_keeps {s : State} (k0 : Keeps d s0 s) : Keeps d s0 (syncSteal s) := by
  unfold syncSteal
  with_reducible apply Keeps.fields
  with_reducible assumption

theorem setPinion_keeps {s : State} {x1 : Nat} {p : Nat} {x : Pinion} (k0 : Keeps d s0 s) : Keeps d s0 (setPinion s x1 p x) := by
  unfold setPinion
  with_reducible apply Keeps.fields
  with_reducible assumption

theorem dropWg_keeps {s : State} {w : Nat} (k0 : Keeps d s0 s) : Keeps d s0 (dropWg s w) := by
  unfold dropWg
  with_reducible apply Keeps.fields
  with_reducible assumption

theorem countIssue_keeps {s : State} {w : Wg} (k0 : Keeps d s0 s) : Keeps d s0 (countIssue s w) := by
  unfold countIssue
  with_reducible apply Keeps.fields
  split
  apply Keeps.ite
  intro _
  apply setDisp_keeps
  apply tickFor_keeps
  apply addWide_keeps
  apply addWide_keeps
  with_reducible assumption
  intro _
  apply tickFor_keeps
  apply addWide_keeps
  apply addWide_keeps
  with_reducible assumption
  apply tickFor_keeps
  apply addWide_keeps
  apply addWide_keeps
  with_reducible assumption

theorem putBeat_keeps {s : State} {id : Nat} {bi : Nat} {b : Beat} (k0 : Keeps d s0 s) : Keeps d s0 (putBeat s id bi b) := by
  unfold putBeat
  with_reducible apply Keeps.fields
  split
  apply setWg_keeps
  with_reducible assumption
  with_reducible assumption

theorem retireTo_keeps {s : State} {h : Here} {b : Beat} {pc : Nat} (k0 : Keeps d s0 s) : Keeps d s0 (retireTo s h b pc) := by
  unfold retireTo
  apply countIssue_keeps
  apply dropArrived_keeps
  apply dropArrived_keeps
  apply putBeat_keeps
  with_reducible assumption

theorem dropBeatWaits_keeps {s : State} {wg : Nat} {beat : Nat} (k0 : Keeps d s0 s) : Keeps d s0 (dropBeatWaits s wg beat) := by
  unfold dropBeatWaits
  with_reducible apply Keeps.fields
  with_reducible assumption

theorem askAlloc_keeps {s : State} {h : Here} {isFree : Bool} {arg : Nat → Nat} {dst : Nat} (k0 : Keeps d s0 s) : Keeps d s0 (askAlloc s h isFree arg dst) := by
  unfold askAlloc
  apply putBeat_keeps
  with_reducible apply Keeps.fields
  with_reducible assumption

theorem setLocal_keeps {s : State} {id : Nat} {m : Tbl Byte} (k0 : Keeps d s0 s) : Keeps d s0 (setLocal s id m) := by
  unfold setLocal
  with_reducible apply Keeps.fields
  split
  apply setWg_keeps
  with_reducible assumption
  with_reducible assumption

theorem notePoison_keeps {s : State} {owner : Nat} {p : Nat} (k0 : Keeps d s0 s) : Keeps d s0 (notePoison s owner p) := by
  unfold notePoison
  apply Keeps.ite
  intro _
  apply noteFail_keeps
  with_reducible assumption
  intro _
  apply Keeps.ite
  intro _
  apply noteFail_keeps
  with_reducible assumption
  intro _
  with_reducible assumption

theorem l1Fill_keeps {s : State} {train : Nat} {la : Nat} {host : Bool} (k0 : Keeps d s0 s) : Keeps d s0 (l1Fill s train la host) := by
  unfold l1Fill
  with_reducible apply Keeps.fields
  split
  apply Keeps.ite
  intro _
  with_reducible assumption
  intro _
  with_reducible apply Keeps.fields
  with_reducible assumption
  with_reducible apply Keeps.fields
  with_reducible assumption

theorem endBeat_keeps {s : State} {h : Here} (k0 : Keeps d s0 s) : Keeps d s0 (endBeat s h) := by
  unfold endBeat
  with_reducible apply Keeps.fields
  split
  apply setWg_keeps
  apply putBeat_keeps
  with_reducible assumption
  apply putBeat_keeps
  with_reducible assumption

theorem serveBeat_keeps {s : State} {q : AllocReq} {va : Option Nat} {code : Nat} (k0 : Keeps d s0 s) : Keeps d s0 (serveBeat s q va code) := by
  unfold serveBeat
  with_reducible apply Keeps.fields
  split
  with_reducible assumption
  with_reducible apply Keeps.fields
  split
  with_reducible assumption
  apply Keeps.ite
  intro _
  apply putBeat_keeps
  apply Keeps.ite
  intro _
  with_reducible assumption
  intro _
  apply noteFail_keeps
  with_reducible assumption
  intro _
  apply countIssue_keeps
  apply putBeat_keeps
  apply Keeps.ite
  intro _
  with_reducible assumption
  intro _
  apply noteFail_keeps
  with_reducible assumption

theorem dropWaits_keeps {s : State} {kind : Nat} {id : Nat} (k0 : Keeps d s0 s) : Keeps d s0 (dropWaits s kind id) := by
  unfold dropWaits
  with_reducible apply Keeps.fields
  with_reducible assumption

theorem dropWgs_keeps {s : State} {l : List Nat} (k0 : Keeps d s0 s) : Keeps d s0 (dropWgs s l) := by
  unfold dropWgs
  apply Keeps.foldl
  with_reducible assumption
  intro _ _ _
  apply dropWg_keeps
  with_reducible assumption

theorem awaitEv_keeps {s : State} {kind : Nat} {id : Nat} {lane : Nat} {c : Nat} {ev : Nat} {target : Nat} (k0 : Keeps d s0 s) : Keeps d s0 (awaitEv s kind id lane c ev target).1 := by
  unfold awaitEv
  with_reducible apply Keeps.fields
  split
  extract_lets +onlyGivenNames x; unfold x
  with_reducible apply Keeps.fields
  split
  with_reducible apply Keeps.fields
  split
  with_reducible assumption
  with_reducible apply Keeps.fields
  with_reducible assumption
  with_reducible assumption
  extract_lets +onlyGivenNames x; unfold x
  with_reducible apply Keeps.fields
  split
  with_reducible apply Keeps.fields
  split
  with_reducible assumption
  with_reducible apply Keeps.fields
  with_reducible assumption
  extract_lets +onlyGivenNames x; unfold x
  with_reducible apply Keeps.fields
  split
  with_reducible apply Keeps.fields
  with_reducible assumption
  with_reducible assumption

theorem awaitEv_eq {s : State} {kind : Nat} {id : Nat} {lane : Nat} {c : Nat} {ev : Nat} {target : Nat} {y} {t : State} (e : awaitEv s kind id lane c ev target = (t, y)) (k0 : Keeps d s0 s) : Keeps d s0 t := by
  have h : Keeps d s0 (awaitEv s kind id lane c ev target).1 := awaitEv_keeps k0
  rw [e] at h
  exact h

theorem setBin_keeps {s : State} {id : Nat} {p : BinPass} (k0 : Keeps d s0 s) : Keeps d s0 (setBin s id p) := by
  unfold setBin
  with_reducible apply Keeps.fields
  with_reducible assumption

theorem setSegMap_keeps {s : State} {m : SegMap} (k0 : Keeps d s0 s) : Keeps d s0 (setSegMap s m) := by
  unfold setSegMap
  with_reducible apply Keeps.fields
  with_reducible assumption

theorem failReq_keeps {s : State} {q : RemReq} {cause : Nat} (k0 : Keeps d s0 s) : Keeps d s0 (failReq s q cause) := by
  unfold failReq
  have k1 : Keeps d s0 { s with nl := { s.nl with reqs := s.nl.reqs.filter (fun x => x.tag != q.tag) } } := k0.fields
  dsimp only
  generalize ({ s with nl := _ } : State) = u at k1 ⊢
  exact Keeps.ite (fun _ => Keeps.fields (failEntry_keeps k1)) (fun _ => failJoined_keeps k1)

theorem swapBanks_keeps {s : State} (k0 : Keeps d s0 s) : Keeps d s0 (swapBanks s) := by
  unfold swapBanks
  with_reducible apply Keeps.fields
  with_reducible assumption

theorem execRemoteResponse_keeps {s : State} (k0 : Keeps d s0 s) : KeepsO d s0 (execRemoteResponse s) := by
  unfold execRemoteResponse
  refine KeepsO.next ?_
  split
  · exact k0
  · have k1 : ∀ nl, Keeps d s0 { s with nl := nl } := fun _ => k0.fields
    dsimp only
    split
    · split
      · exact k1 _
      · refine Keeps.ite (fun _ => failReq_keeps (k1 _)) (fun _ => Keeps.ite (fun _ => ?_) (fun _ => ?_)) <;> exact k1 _
    · exact k1 _

theorem gotRoutes_keeps {s : State} {mgr : Nat} {table : List (Nat × Nat)} {members : Nat} {lost : Nat} {configured : Nat} {topo : List NLink} (k0 : Keeps d s0 s) : Keeps d s0 (gotRoutes s mgr table members lost configured topo) := by
  unfold gotRoutes
  with_reducible apply Keeps.fields
  with_reducible assumption

theorem gotProbeAnswer_keeps {s : State} {dev : Nat} {cand : Nat} (k0 : Keeps d s0 s) : Keeps d s0 (gotProbeAnswer s dev cand) := by
  unfold gotProbeAnswer
  apply Keeps.ite
  intro _
  with_reducible apply Keeps.fields
  with_reducible assumption
  intro _
  with_reducible assumption

theorem mcArrive_keeps {s : State} {words : List Word} (k0 : Keeps d s0 s) : Keeps d s0 (mcArrive s words) := by
  unfold mcArrive
  apply Keeps.ite
  intro _
  with_reducible assumption
  intro _
  apply setMbox_keeps
  with_reducible apply Keeps.fields
  with_reducible assumption

theorem invalidate_keeps {s : State} {hit : Nat → Bool} {base : Nat} {size : Nat} (k0 : Keeps d s0 s) : Keeps d s0 (invalidate s hit base size) := by
  unfold invalidate
  with_reducible apply Keeps.fields
  with_reducible assumption

theorem resizeRing_keeps {s : State} {c : Nat} {log2 : Nat} (k0 : Keeps d s0 s) : KeepsP d s0 id (resizeRing s c log2) := by
  unfold resizeRing
  split
  · exact KeepsP.none
  · refine KeepsP.map ⟨fun o _ => ?_⟩
    exact setCtx_keeps k0.fields

theorem resizeRing_eq {s : State} {c : Nat} {log2 : Nat} {t : State} (e : resizeRing s c log2 = some t) (k0 : Keeps d s0 s) : Keeps d s0 t := by
  have h : KeepsP d s0 id (resizeRing s c log2) := resizeRing_keeps k0
  rw [e] at h
  exact h.out _ rfl

theorem updMiss_keeps {s : State} {m : Miss} {f : Miss → Option Miss} (k0 : Keeps d s0 s) : Keeps d s0 (updMiss s m f) := by
  unfold updMiss
  with_reducible apply Keeps.fields
  with_reducible assumption

theorem serveMiss_keeps {s : State} {m : Miss} {hpa : Nat} {log2 : Nat} {r : Bool} {w : Bool} {n : Bool} {u : Bool} (k0 : Keeps d s0 s) : Keeps d s0 (serveMiss s m hpa log2 r w n u) := by
  unfold serveMiss
  apply Keeps.ite
  intro _
  with_reducible apply Keeps.fields
  apply updMiss_keeps
  with_reducible assumption
  intro _
  with_reducible apply Keeps.fields
  with_reducible apply Keeps.fields
  apply updMiss_keeps
  with_reducible assumption

theorem releaseFail_keeps {s : State} {c : Nat} {stream : Nat} (k0 : Keeps d s0 s) : Keeps d s0 (releaseFail s c stream) := by
  unfold releaseFail
  apply Keeps.ite
  intro _
  with_reducible assumption
  intro _
  with_reducible apply Keeps.fields
  split
  with_reducible assumption
  apply failJoined_keeps
  with_reducible apply Keeps.fields
  with_reducible assumption

theorem failMiss_keeps {s : State} {m : Miss} {cause : Nat} (k0 : Keeps d s0 s) : Keeps d s0 (failMiss s m cause) := by
  unfold failMiss
  apply failJoined_keeps
  apply updMiss_keeps
  with_reducible assumption

theorem stopWaiting_keeps {s : State} (k0 : Keeps d s0 s) : Keeps d s0 (stopWaiting s) := by
  unfold stopWaiting
  apply Keeps.foldl
  with_reducible assumption
  intro _ _ _
  apply failMiss_keeps
  with_reducible assumption

theorem execPageRequest_keeps {s : State} (k0 : Keeps d s0 s) : KeepsO d s0 (execPageRequest s) := by
  unfold execPageRequest
  apply KeepsO.next
  apply Keeps.ite
  intro _
  apply stopWaiting_keeps
  with_reducible assumption
  intro _
  with_reducible apply Keeps.fields
  split
  with_reducible assumption
  apply Keeps.ite
  intro _
  with_reducible assumption
  intro _
  with_reducible apply Keeps.fields
  apply updMiss_keeps
  with_reducible assumption

theorem defaultRing_keeps {s : State} {c : Nat} (k0 : Keeps d s0 s) : Keeps d s0 (defaultRing s c) := by
  unfold defaultRing
  split
  · exact k0
  · cases h : resizeRing s c 12 with
    | none => exact k0
    | some t => exact resizeRing_eq h k0

theorem setLine_keeps {s : State} {k : Nat} {l : Line} (k0 : Keeps d s0 s) : Keeps d s0 (setLine s k l) := by
  unfold setLine
  with_reducible apply Keeps.fields
  with_reducible assumption

theorem caStamp_keeps {s : State} (k0 : Keeps d s0 s) : Keeps d s0 (caStamp s).2 := by
  unfold caStamp
  with_reducible apply Keeps.fields
  with_reducible assumption

theorem caStamp_eq {s : State} {y} {t : State} (e : caStamp s = (y, t)) (k0 : Keeps d s0 s) : Keeps d s0 t := by
  have h : Keeps d s0 (caStamp s).2 := caStamp_keeps k0
  rw [e] at h
  exact h

theorem pairwise_lt_sort {l : List Nat} {x : Nat} (h : l.Pairwise (· < ·)) (hx : l.contains x = false) :
    ((x :: l).mergeSort).Pairwise (· < ·) := by
  have hs : ((x :: l).mergeSort).Pairwise (fun a b => decide (a ≤ b) = true) :=
    List.pairwise_mergeSort (fun a b c => by simp; omega) (fun a b => by simp; omega) _
  have hn : ((x :: l).mergeSort).Nodup := by
    refine (List.mergeSort_perm (x :: l) _).nodup_iff.2 (List.nodup_cons.2 ⟨by simpa using hx, ?_⟩)
    exact h.imp (fun {a b} e => by omega)
  refine (hs.and hn).imp (fun {a b} e => ?_)
  have h1 : a ≤ b := by simpa using e.1
  have h2 := e.2
  omega

theorem writeBack_keeps {s : State} {l : Line} (k0 : Keeps d s0 s) : Keeps d s0 (writeBack s l) := by
  have k1 : Keeps d s0 (memStore s l.host (l.addr * 128) l.data) := memStore_keeps k0
  unfold writeBack
  generalize memStore s l.host (l.addr * 128) l.data = u at k1
  dsimp only
  split
  · rename_i h
    refine k1.updMem rfl rfl rfl (fun m => ⟨m.1, m.2.1, m.2.2.1, pairwise_lt_sort m.2.2.2 ?_⟩)
    simpa using (by simpa using h : _ ∧ _).2
  · exact k1

theorem tellTrains_keeps {s : State} {k : Nat} {e : Dir} (k0 : Keeps d s0 s) : Keeps d s0 (tellTrains s k e) := by
  unfold tellTrains
  with_reducible apply Keeps.fields
  with_reducible assumption

theorem useLine_keeps {s : State} {k : Nat} {l : Line} {a : Nat} {write : Bool} {x5 : List Byte} (k0 : Keeps d s0 s) : Keeps d s0 (useLine s k l a write x5) := by
  unfold useLine
  apply Keeps.ite
  intro _
  with_reducible apply Keeps.fields
  split
  with_reducible apply Keeps.fields
  apply tellTrains_keeps
  apply setLine_keeps
  apply caStamp_keeps
  with_reducible assumption
  apply setLine_keeps
  apply setLine_keeps
  apply caStamp_keeps
  with_reducible assumption
  intro _
  apply setLine_keeps
  apply caStamp_keeps
  with_reducible assumption

theorem delVict_keeps {s : State} {k : Nat} (k0 : Keeps d s0 s) : Keeps d s0 (delVict s k) := by
  unfold delVict
  with_reducible apply Keeps.fields
  with_reducible assumption

theorem cleanLine_keeps {s : State} {l : Line} (k0 : Keeps d s0 s) : Keeps d s0 (cleanLine s l) := by
  unfold cleanLine
  apply Keeps.ite
  intro _
  apply writeBack_keeps
  with_reducible assumption
  intro _
  with_reducible assumption

theorem delLine_keeps {s : State} {k : Nat} (k0 : Keeps d s0 s) : Keeps d s0 (delLine s k) := by
  unfold delLine
  with_reducible apply Keeps.fields
  with_reducible assumption

theorem setVict_keeps {s : State} {k : Nat} {l : Line} (k0 : Keeps d s0 s) : Keeps d s0 (setVict s k l) := by
  unfold setVict
  with_reducible apply Keeps.fields
  with_reducible assumption

theorem countSource_keeps {s : State} {src : Nat} (k0 : Keeps d s0 s) : Keeps d s0 (countSource s src) := by
  unfold countSource
  apply putReg_keeps
  with_reducible apply Keeps.fields
  with_reducible assumption

theorem execD3hotEntry_keeps {s : State} (k0 : Keeps d s0 s) : KeepsO d s0 (execD3hotEntry s) := by
  unfold execD3hotEntry
  apply KeepsO.next
  apply Keeps.ite
  intro _
  with_reducible apply Keeps.fields
  with_reducible assumption
  intro _
  with_reducible assumption

theorem execHdmDecoderCommit_keeps {dec : Nat} {base : Nat} {size : Nat} {s : State} (k3 : Keeps d s0 s) : KeepsO d s0 (execHdmDecoderCommit dec base size s) := by
  unfold execHdmDecoderCommit
  apply KeepsO.next
  apply Keeps.ite
  intro _
  with_reducible assumption
  intro _
  apply Keeps.ite
  intro _
  with_reducible apply Keeps.fields
  with_reducible assumption
  intro _
  apply Keeps.ite
  intro _
  with_reducible apply Keeps.fields
  with_reducible assumption
  intro _
  with_reducible apply Keeps.fields
  with_reducible assumption

theorem sfRecord_keeps {s : State} {l : Nat} {modified : Bool} (k0 : Keeps d s0 s) : Keeps d s0 (sfRecord s l modified) := by
  unfold sfRecord
  apply Keeps.ite
  intro _
  with_reducible apply Keeps.fields
  with_reducible assumption
  intro _
  with_reducible apply Keeps.fields
  with_reducible assumption

theorem sendMsi_keeps {s : State} {v : Nat} (k0 : Keeps d s0 s) : Keeps d s0 (sendMsi s v) := by
  unfold sendMsi
  with_reducible apply Keeps.fields
  with_reducible assumption

theorem clearHlRegs_keeps {s : State} (k0 : Keeps d s0 s) : Keeps d s0 (clearHlRegs s) := by
  unfold clearHlRegs
  with_reducible apply Keeps.fields
  with_reducible assumption

theorem execBackInvalidation_keeps {line : Nat} {s : State} (k1 : Keeps d s0 s) : KeepsO d s0 (execBackInvalidation line s) := by
  unfold execBackInvalidation
  apply KeepsO.next
  apply Keeps.ite
  intro _
  apply sendSnoop_keeps
  with_reducible assumption
  intro _
  with_reducible assumption

theorem execD0Return_keeps {s : State} (k0 : Keeps d s0 s) : KeepsO d s0 (execD0Return s) := by
  unfold execD0Return
  apply KeepsO.next
  apply Keeps.ite
  intro _
  with_reducible apply Keeps.fields
  with_reducible assumption
  intro _
  with_reducible assumption

theorem setVec_keeps {s : State} {v : Nat} {x : Vec} (k0 : Keeps d s0 s) : Keeps d s0 (setVec s v x) := by
  unfold setVec
  with_reducible apply Keeps.fields
  with_reducible assumption

theorem tick_keeps {s : State} (k0 : Keeps d s0 s) : Keeps d s0 (tick s) := by
  unfold tick
  with_reducible apply Keeps.fields
  with_reducible assumption

theorem setGen_keeps {s : State} {k : Nat} {g : Gen} (k0 : Keeps d s0 s) : Keeps d s0 (setGen s k g) := by
  unfold setGen
  with_reducible apply Keeps.fields
  with_reducible assumption

theorem setRtc_keeps {s : State} {cal : Nat} (k0 : Keeps d s0 s) : Keeps d s0 (setRtc s cal) := by
  unfold setRtc
  with_reducible apply Keeps.fields
  with_reducible assumption

theorem aimGen_keeps {s : State} {k : Nat} {x2 : Nat} (k0 : Keeps d s0 s) : Keeps d s0 (aimGen s k x2) := by
  unfold aimGen
  apply setGen_keeps
  with_reducible assumption

theorem execRtcUpdate_keeps {s : State} (k0 : Keeps d s0 s) : KeepsO d s0 (execRtcUpdate s) := by
  unfold execRtcUpdate
  apply KeepsO.next
  apply Keeps.ite
  intro _
  apply setRtc_keeps
  apply markDone_keeps
  with_reducible assumption
  intro _
  with_reducible assumption

theorem setPass_keeps {s : State} {id : Nat} {p : RPass} (k0 : Keeps d s0 s) : Keeps d s0 (setPass s id p) := by
  unfold setPass
  with_reducible apply Keeps.fields
  with_reducible assumption

theorem execUnitHandout_keeps {te : Nat} {s : State} (k1 : Keeps d s0 s) : KeepsO d s0 (execUnitHandout te s) := by
  unfold execUnitHandout
  apply KeepsO.next
  apply Keeps.ite
  intro _
  with_reducible assumption
  intro _
  with_reducible apply Keeps.fields
  split
  with_reducible assumption
  with_reducible apply Keeps.fields
  apply setPass_keeps
  with_reducible assumption

theorem setSlot_keeps {s : State} {i : Nat} {x : CrSlot} (k0 : Keeps d s0 s) : Keeps d s0 (setSlot s i x) := by
  unfold setSlot
  with_reducible apply Keeps.fields
  with_reducible assumption

theorem latchSlots_keeps {s : State} {o : Nat} (k0 : Keeps d s0 s) : Keeps d s0 (latchSlots s o) := by
  unfold latchSlots
  apply Keeps.foldl
  with_reducible assumption
  intro _ _ _
  apply setSlot_keeps
  with_reducible assumption

theorem applyLayer_keeps {s : State} {c : Nat} {x : List Byte × List Byte} (k0 : Keeps d s0 s) : Keeps d s0 (applyLayer s c x) := by
  unfold applyLayer
  apply setSlot_keeps
  with_reducible assumption

theorem dropDying_keeps {s : State} {o : Nat} (k0 : Keeps d s0 s) : Keeps d s0 (dropDying s o) := by
  unfold dropDying
  apply Keeps.foldl
  with_reducible assumption
  intro _ _ _
  apply Keeps.ite
  intro _
  apply setSlot_keeps
  with_reducible assumption
  intro _
  with_reducible assumption

theorem setOut_keeps {s : State} {o : Nat} {x : CrOut} (k0 : Keeps d s0 s) : Keeps d s0 (setOut s o x) := by
  unfold setOut
  with_reducible apply Keeps.fields
  with_reducible assumption

theorem dropPasid_keeps {s : State} {pasid : Nat} (k0 : Keeps d s0 s) : Keeps d s0 (dropPasid s pasid) := by
  unfold dropPasid
  apply Keeps.ite
  intro _
  with_reducible assumption
  intro _
  with_reducible apply Keeps.fields
  with_reducible assumption

theorem dropFaults_keeps {s : State} {c : Nat} (k0 : Keeps d s0 s) : Keeps d s0 (dropFaults s c) := by
  unfold dropFaults
  with_reducible apply Keeps.fields
  with_reducible assumption

theorem destroyAt_keeps {s : State} {c : Nat} {done : Nat} {final : Option Nat} (k0 : Keeps d s0 s) : Keeps d s0 (destroyAt s c done final) := by
  unfold destroyAt
  apply Keeps.foldl
  with_reducible assumption
  intro _ _ _
  apply setJob_keeps
  with_reducible assumption

theorem putBlock_keeps {s : State} {o : Nat} {b : Nat} {w : List Word} (k0 : Keeps d s0 s) : Keeps d s0 (putBlock s o b w) := by
  unfold putBlock
  apply Keeps.ite
  intro _
  apply tickFor_keeps
  apply addWide_keeps
  apply setOut_keeps
  with_reducible assumption
  intro _
  apply addWide_keeps
  apply setOut_keeps
  with_reducible assumption

theorem startOutput_keeps {s : State} {o : Nat} (k0 : Keeps d s0 s) : Keeps d s0 (startOutput s o) := by
  unfold startOutput
  apply setOut_keeps
  with_reducible apply Keeps.fields
  with_reducible assumption

theorem stopOutput_keeps {s : State} {o : Nat} (k0 : Keeps d s0 s) : Keeps d s0 (stopOutput s o) := by
  unfold stopOutput
  apply setOut_keeps
  with_reducible assumption

theorem wakeTemplates_keeps {s : State} (k0 : Keeps d s0 s) : Keeps d s0 (wakeTemplates s) := by
  unfold wakeTemplates
  apply makeEligible_keeps
  with_reducible assumption

theorem setGwOp_keeps {s : State} {id : Nat} {o : GwOp} (k0 : Keeps d s0 s) : Keeps d s0 (setGwOp s id o) := by
  unfold setGwOp
  with_reducible apply Keeps.fields
  with_reducible assumption

theorem addGwOp_keeps {s : State} {o : GwOp} (k0 : Keeps d s0 s) : Keeps d s0 (addGwOp s o) := by
  unfold addGwOp
  apply setGwOp_keeps
  with_reducible apply Keeps.fields
  with_reducible assumption

theorem execWheelOp_keeps {desc : Nat} {s : State} (k1 : Keeps d s0 s) : KeepsO d s0 (execWheelOp desc s) := by
  unfold execWheelOp
  apply KeepsO.next
  with_reducible apply Keeps.fields
  split
  with_reducible assumption
  apply Keeps.ite
  intro _
  with_reducible assumption
  intro _
  apply addGwOp_keeps
  with_reducible assumption

theorem dwrr_keeps {s : State} {a : Nat} (k0 : Keeps d s0 s) : KeepsP d s0 Prod.fst (dwrr s a) := by
  induction a generalizing s with
  | zero => exact KeepsP.none
  | succ n ih =>
    unfold dwrr
    extract_lets x c c2
    repeat' first
      | exact KeepsP.none
      | exact KeepsP.some (setCtx_keeps k0)
      | (extract_lets t; exact ih (Keeps.fields (setCtx_keeps (setCtx_keeps k0))))
      | exact ih (Keeps.fields (setCtx_keeps (setCtx_keeps k0)))
      | split

theorem dwrr_eq {s : State} {a : Nat} {y} {t : State} (e : dwrr s a = some (t, y)) (k0 : Keeps d s0 s) : Keeps d s0 t := by
  have h : KeepsP d s0 Prod.fst (dwrr s a) := dwrr_keeps k0
  rw [e] at h
  exact h.out _ rfl

theorem cleanRd_keeps {s : State} {m : PageMap} {va : Nat} {n : Nat} (k0 : Keeps d s0 s) : Keeps d s0 (cleanRd s m va n).1 := by
  unfold cleanRd
  extract_lets +onlyGivenNames x; unfold x
  with_reducible apply Keeps.fields
  split
  with_reducible assumption
  with_reducible apply Keeps.fields
  with_reducible assumption

theorem cleanRd_eq {s : State} {m : PageMap} {va : Nat} {n : Nat} {y} {t : State} (e : cleanRd s m va n = (t, y)) (k0 : Keeps d s0 s) : Keeps d s0 t := by
  have h : Keeps d s0 (cleanRd s m va n).1 := cleanRd_keeps k0
  rw [e] at h
  exact h

theorem endOnArray_keeps {s : State} {id : Nat} {o : GwOp} (k0 : Keeps d s0 s) : Keeps d s0 (endOnArray s id o) := by
  unfold endOnArray
  apply setGwOp_keeps
  with_reducible apply Keeps.fields
  with_reducible assumption

theorem startSel_keeps {s : State} (k0 : Keeps d s0 s) : Keeps d s0 (startSel s) := by
  unfold startSel
  with_reducible apply Keeps.fields
  split
  with_reducible apply Keeps.fields
  split
  with_reducible assumption
  apply Keeps.ite
  intro _
  apply setGwOp_keeps
  with_reducible apply Keeps.fields
  with_reducible assumption
  intro _
  apply Keeps.ite
  intro _
  with_reducible assumption
  intro _
  apply setGwOp_keeps
  with_reducible apply Keeps.fields
  with_reducible assumption
  with_reducible assumption

theorem countWave_keeps {s : State} {id : Nat} {o : GwOp} (k0 : Keeps d s0 s) : Keeps d s0 (countWave s id o) := by
  unfold countWave
  apply tickFor_keeps
  apply addWide_keeps
  with_reducible apply Keeps.fields
  apply setGwOp_keeps
  with_reducible assumption

theorem dropShadow_keeps {s : State} (k0 : Keeps d s0 s) : Keeps d s0 (dropShadow s) := by
  unfold dropShadow
  with_reducible apply Keeps.fields
  split
  with_reducible assumption
  with_reducible apply Keeps.fields
  split
  with_reducible assumption
  apply setGwOp_keeps
  with_reducible assumption

theorem testWaves_keeps {s : State} (k0 : Keeps d s0 s) : Keeps d s0 (testWaves s) := by
  unfold testWaves
  with_reducible apply Keeps.fields
  with_reducible assumption

theorem tSorted_filter {α : Type} {lo : Nat} {t : Tbl α} (p : Nat × α → Bool) (h : tSorted lo t = true) :
    tSorted lo (t.filter p) = true := by
  induction t generalizing lo with
  | nil => rfl
  | cons e t ih =>
    obtain ⟨k, v⟩ := e
    simp only [tSorted, Bool.and_eq_true, decide_eq_true_eq] at h
    simp only [List.filter_cons]
    split
    · simp only [tSorted, Bool.and_eq_true, decide_eq_true_eq]; exact ⟨h.1, ih h.2⟩
    · exact tSorted_mono (by omega) (ih h.2)

theorem tWf_filter {α : Type} [DecidableEq α] {x : α} {t : Tbl α} (p : Nat × α → Bool) (h : tWf x t = true) :
    tWf x (t.filter p) = true := by
  simp only [tWf, Bool.and_eq_true, List.all_eq_true] at *
  exact ⟨tSorted_filter p h.1, fun e he => h.2 e (List.mem_filter.1 he).1⟩

theorem zeroReserved_keeps {s : State} {keepCopy : Bool} (k0 : Keeps d s0 s) : Keeps d s0 (zeroReserved s keepCopy) := by
  unfold zeroReserved
  exact k0.updMem rfl rfl rfl (fun h => ⟨tWf_filter _ h.1, h.2.1, h.2.2.1, h.2.2.2.filter _⟩)

theorem startUp_keeps {s : State} (k0 : Keeps d s0 s) : Keeps d s0 (startUp s) := by
  unfold startUp
  apply Keeps.ite
  intro _
  with_reducible apply Keeps.fields
  with_reducible assumption
  intro _
  with_reducible assumption

theorem fenceFnJobs_keeps {s : State} {n : Nat} (k0 : Keeps d s0 s) : Keeps d s0 (fenceFnJobs s n) := by
  unfold fenceFnJobs
  with_reducible apply Keeps.fields
  with_reducible assumption

theorem emptyBarrel_keeps {s : State} (k0 : Keeps d s0 s) : Keeps d s0 (emptyBarrel s) := by
  unfold emptyBarrel
  with_reducible apply Keeps.fields
  with_reducible assumption

theorem clearFnStore_keeps {s : State} {n : Nat} (k0 : Keeps d s0 s) : Keeps d s0 (clearFnStore s n) := by
  unfold clearFnStore
  repeat' first | exact k0 | exact emptyBarrel_keeps k0 | exact k0.fields | exact k0.chFields | (refine Keeps.ite ?_ ?_ <;> intro _)

theorem clearFnRegs_keeps {s : State} {n : Nat} (k0 : Keeps d s0 s) : Keeps d s0 (clearFnRegs s n) := by
  unfold clearFnRegs
  with_reducible apply Keeps.fields
  with_reducible assumption

theorem loseNvm_keeps {s : State} (k0 : Keeps d s0 s) : Keeps d s0 (loseNvm s) := by
  unfold loseNvm
  split
  · exact k0
  · exact k0.updMem rfl rfl rfl (fun h => ⟨h.1, h.2.1, tWf_memWr h.2.2.1 _ _, h.2.2.2⟩)

theorem runImage_keeps {s : State} {img : List Byte} {copy : Bool} (k0 : Keeps d s0 s) : Keeps d s0 (runImage s img copy) := by
  unfold runImage
  apply putReg_keeps
  apply Keeps.ite
  intro _
  apply memStore_keeps
  with_reducible assumption
  intro _
  with_reducible assumption

theorem execRetainedBlockWrite_keeps {s : State} (k0 : Keeps d s0 s) : KeepsO d s0 (execRetainedBlockWrite s) := by
  unfold execRetainedBlockWrite
  apply KeepsO.next
  apply Keeps.ite
  intro _
  with_reducible assumption
  intro _
  with_reducible apply Keeps.fields
  with_reducible assumption

theorem execBringup_keeps {s : State} (k0 : Keeps d s0 s) : KeepsO d s0 (execBringup s) := by
  unfold execBringup
  apply KeepsO.next
  apply startUp_keeps
  with_reducible assumption

theorem buAt_keeps {s : State} {p : BuAt} (k0 : Keeps d s0 s) : Keeps d s0 (buAt s p) := by
  unfold buAt
  with_reducible apply Keeps.fields
  with_reducible assumption

theorem noteStart_keeps {s : State} (k0 : Keeps d s0 s) : Keeps d s0 (noteStart s).1 := by
  unfold noteStart
  with_reducible apply Keeps.fields
  with_reducible assumption

theorem noteStart_eq {s : State} {y} {t : State} (e : noteStart s = (t, y)) (k0 : Keeps d s0 s) : Keeps d s0 t := by
  have h : Keeps d s0 (noteStart s).1 := noteStart_keeps k0
  rw [e] at h
  exact h

theorem execPermanentProgram_keeps {s : State} (k0 : Keeps d s0 s) : KeepsO d s0 (execPermanentProgram s) := by
  unfold execPermanentProgram
  refine KeepsO.next ?_
  split
  · rename_i h
    simp only [Bool.and_eq_true, Option.isNone_iff_eq_none, decide_eq_true_eq] at h
    refine k0.updCh rfl rfl rfl (fun c => ⟨⟨c.1, c.2.1, c.2.2.1, h.2, fun e => ?_⟩, fun _ => ⟨Nat.le_succ _, rfl⟩⟩)
    simp [h.1] at e
  · exact k0

theorem rowReleased_keeps {s : State} {i : Ingest} {r : Nat} (k0 : Keeps d s0 s) : Keeps d s0 (rowReleased s i r).1 := by
  unfold rowReleased
  extract_lets +onlyGivenNames x; unfold x
  extract_lets +onlyGivenNames x; unfold x
  with_reducible apply Keeps.fields
  split
  with_reducible assumption
  apply awaitEv_keeps
  with_reducible assumption

theorem rowReleased_eq {s : State} {i : Ingest} {r : Nat} {y} {t : State} (e : rowReleased s i r = (t, y)) (k0 : Keeps d s0 s) : Keeps d s0 t := by
  have h : Keeps d s0 (rowReleased s i r).1 := rowReleased_keeps k0
  rw [e] at h
  exact h

theorem setMp_keeps {s : State} {p : Nat} {x : MpPort} (k0 : Keeps d s0 s) : Keeps d s0 (setMp s p x) := by
  unfold setMp
  with_reducible apply Keeps.fields
  with_reducible assumption

theorem rowsReleased_keeps {s : State} {i : Ingest} {a : List Nat} (k0 : Keeps d s0 s) : Keeps d s0 (rowsReleased s i a).1 := by
  induction a generalizing s with
  | nil =>
    unfold rowsReleased
    with_reducible assumption
  | cons b l ih =>
    unfold rowsReleased
    extract_lets +onlyGivenNames x; have hx : Keeps d s0 x.1; (on_goal 2 => clear_value x); unfold x
    apply rowReleased_keeps
    with_reducible assumption
    with_reducible apply Keeps.fields
    split
    apply ih
    with_reducible assumption
    extract_lets +onlyGivenNames x; unfold x
    with_reducible apply Keeps.fields
    split
    apply ih
    with_reducible assumption
    with_reducible assumption
    apply ih
    with_reducible assumption
    with_reducible assumption

theorem rowsReleased_eq {s : State} {i : Ingest} {a : List Nat} {y} {t : State} (e : rowsReleased s i a = (t, y)) (k0 : Keeps d s0 s) : Keeps d s0 t := by
  have h : Keeps d s0 (rowsReleased s i a).1 := rowsReleased_keeps k0
  rw [e] at h
  exact h

theorem vbakWatch_keeps {s : State} (k0 : Keeps d s0 s) : Keeps d s0 (vbakWatch s) := by
  unfold vbakWatch
  apply Keeps.ite
  intro _
  with_reducible apply Keeps.fields
  with_reducible assumption
  intro _
  with_reducible assumption

theorem checkBar_keeps {s : State} {wg : Nat} (k0 : Keeps d s0 s) : Keeps d s0 (checkBar s wg) := by
  unfold checkBar
  with_reducible apply Keeps.fields
  split
  apply setWg_keeps
  with_reducible assumption
  with_reducible assumption

theorem readEffects_keeps {s : State} {r : RegRow} {off : Nat} (k0 : Keeps d s0 s) : Keeps d s0 (readEffects s r off) := by
  unfold readEffects
  apply Keeps.ite
  intro _
  apply setCtx_keeps
  apply Keeps.ite
  intro _
  apply putReg_keeps
  apply Keeps.ite
  intro _
  apply putReg_keeps
  with_reducible assumption
  intro _
  with_reducible assumption
  intro _
  apply Keeps.ite
  intro _
  apply putReg_keeps
  with_reducible assumption
  intro _
  with_reducible assumption
  intro _
  apply Keeps.ite
  intro _
  apply Keeps.ite
  intro _
  apply putReg_keeps
  apply Keeps.ite
  intro _
  apply putReg_keeps
  with_reducible assumption
  intro _
  with_reducible assumption
  intro _
  apply Keeps.ite
  intro _
  apply putReg_keeps
  with_reducible assumption
  intro _
  with_reducible assumption
  intro _
  apply putReg_keeps
  apply Keeps.ite
  intro _
  apply putReg_keeps
  apply Keeps.ite
  intro _
  apply putReg_keeps
  with_reducible assumption
  intro _
  with_reducible assumption
  intro _
  apply Keeps.ite
  intro _
  apply putReg_keeps
  with_reducible assumption
  intro _
  with_reducible assumption

theorem plainWrite_keeps {s : State} {off : Nat} {val : Word} (k0 : Keeps d s0 s) : Keeps d s0 (plainWrite s off val) := by
  unfold plainWrite
  with_reducible apply Keeps.fields
  split
  with_reducible assumption
  apply Keeps.ite
  intro _
  apply retainedDirty_keeps
  apply putReg_keeps
  with_reducible assumption
  intro _
  apply putReg_keeps
  with_reducible assumption

theorem eventWrite_keeps {s : State} {off : Nat} {val : Word} (k0 : Keeps d s0 s) : Keeps d s0 (eventWrite s off val) := by
  unfold eventWrite
  apply Keeps.ite
  intro _
  with_reducible assumption
  intro _
  apply Keeps.ite
  intro _
  apply setEv_keeps
  with_reducible assumption
  intro _
  apply setEv_keeps
  with_reducible assumption

theorem after_keeps {s : State} {f : State → Out} (k0 : Keeps d s0 s) (k1 : ∀ a0, Keeps d s0 a0 → KeepsO d s0 (f a0)) :
    Keeps d s0 (after s f) := by
  unfold after
  split
  · rename_i h; exact (k1 s k0).out _ h
  · exact k0

theorem setUnit_keeps {s : State} {e : Nat} {u : TUnit} (k0 : Keeps d s0 s) : Keeps d s0 (setUnit s e u) := by
  unfold setUnit
  with_reducible apply Keeps.fields
  with_reducible assumption

theorem checkTile_keeps {s : State} {g : Eng} {k : Nat} (k0 : Keeps d s0 s) : Keeps d s0 (checkTile s g k) := by
  unfold checkTile
  apply Keeps.ite
  intro _
  with_reducible assumption
  intro _
  apply noteFail_keeps
  with_reducible assumption

theorem Eng.put_keeps {g : Eng} {s : State} {u : TUnit} (k1 : Keeps d s0 s) : Keeps d s0 (Eng.put g s u) := by
  unfold Eng.put
  apply setUnit_keeps
  with_reducible assumption

theorem onPass_keeps {s : State} {id : Nat} {f : RPass → RPass} (k0 : Keeps d s0 s) : Keeps d s0 (onPass s id f) := by
  unfold onPass
  with_reducible apply Keeps.fields
  split
  apply setPass_keeps
  with_reducible assumption
  with_reducible assumption

theorem setFld_keeps {s : State} {off : Nat} {lo : Nat} {len : Nat} {v : Nat} (k0 : Keeps d s0 s) : Keeps d s0 (setFld s off lo len v) := by
  unfold setFld
  apply putReg_keeps
  with_reducible assumption

theorem sendOut_keeps {s : State} {p : Nat} (k0 : Keeps d s0 s) : Keeps d s0 (sendOut s p) := by
  unfold sendOut
  apply Keeps.ite
  intro _
  with_reducible assumption
  intro _
  apply Keeps.foldl
  apply setPort_keeps
  with_reducible assumption
  intro _ _ _
  apply addWide_keeps
  with_reducible apply Keeps.fields
  with_reducible assumption

theorem countReg_keeps {s : State} {off : Nat} {len : Nat} {n : Nat} (k0 : Keeps d s0 s) : Keeps d s0 (countReg s off len n) := by
  unfold countReg
  apply setFld_keeps
  with_reducible assumption

theorem openMiss_keeps {s : State} {w : Who} {page : Nat} {va : Nat} {kind : Nat} (k0 : Keeps d s0 s) : Keeps d s0 (openMiss s w page va kind) := by
  unfold openMiss
  apply Keeps.ite
  intro _
  with_reducible apply Keeps.fields
  with_reducible assumption
  intro _
  apply countReg_keeps
  with_reducible apply Keeps.fields
  with_reducible assumption

theorem tWf_foldl_put {α : Type} {t : Tbl Byte} (l : List α) (c : α → Bool) (i : α → Nat) (v : α → Byte) (h : tWf 0 t = true) :
    tWf 0 (l.foldl (fun t x => if c x then t else tput 0 t (i x) (v x)) t) = true := by
  induction l generalizing t with
  | nil => exact h
  | cons x l ih =>
    simp only [List.foldl_cons]
    split
    · exact ih h
    · exact ih (tWf_tput h _ _)

theorem physWr_keeps {s : State} {hc : Bool} {host : Bool} {a : Nat} {x4 : List Byte} (k0 : Keeps d s0 s) :
    Keeps d s0 (physWr s hc host a x4) := by
  have k1 : Keeps d s0 (dropDir s host a x4.length) := dropDir_keeps k0
  unfold physWr
  generalize dropDir s host a x4.length = u at k1
  dsimp only
  split
  · split
    · exact k1.updMem rfl rfl rfl (fun h => ⟨h.1, tWf_foldl_put _ _ _ _ h.2.1, h.2.2.1, h.2.2.2⟩)
    · exact k1.updMem rfl rfl rfl (fun h => ⟨tWf_foldl_put _ _ _ _ h.1, h.2.1, h.2.2.1, h.2.2.2⟩)
  · exact memStore_keeps k1

theorem evalWaits_keeps {s : State} {n : Nat} (k0 : Keeps d s0 s) : Keeps d s0 (evalWaits s n) := by
  unfold evalWaits
  apply settleAll_keeps
  with_reducible apply Keeps.fields
  with_reducible assumption

theorem notePub_keeps {s : State} {r : Nat} {x : Ring} (k0 : Keeps d s0 s) : Keeps d s0 (notePub s r x) := by
  unfold notePub
  apply setRing_keeps
  with_reducible apply Keeps.fields
  with_reducible assumption

theorem freeAllEvs_keeps {s : State} {c : Nat} (k0 : Keeps d s0 s) : Keeps d s0 (freeAllEvs s c) := by
  unfold freeAllEvs
  apply settleAll_keeps
  apply Keeps.foldl
  with_reducible assumption
  intro _ _ _
  apply freeEv_keeps
  with_reducible assumption

theorem freeRunOf_keeps {s : State} {first : Nat} {n : Nat} (k0 : Keeps d s0 s) : Keeps d s0 (freeRunOf s first n) := by
  unfold freeRunOf
  apply settleAll_keeps
  apply Keeps.foldl
  with_reducible assumption
  intro _ _ _
  apply freeEv_keeps
  with_reducible assumption

theorem mcDone_keeps {s : State} {words : List Word} (k0 : Keeps d s0 s) : Keeps d s0 (mcDone s words) := by
  unfold mcDone
  apply Keeps.ite
  intro _
  with_reducible assumption
  intro _
  with_reducible apply Keeps.fields
  apply setFld_keeps
  apply Keeps.foldl
  with_reducible assumption
  intro _ _ _
  apply putReg_keeps
  with_reducible assumption

theorem takeGran_keeps {s : State} {c : Nat} (k0 : Keeps d s0 s) : KeepsP d s0 Prod.snd (takeGran s c) := by
  unfold takeGran
  split
  apply KeepsP.none
  apply KeepsP.some
  apply setGran_keeps
  apply zeroGran_keeps
  with_reducible assumption

theorem takeGran_eq {s : State} {c : Nat} {y} {t : State} (e : takeGran s c = some (y, t)) (k0 : Keeps d s0 s) : Keeps d s0 t := by
  have h : KeepsP d s0 Prod.snd (takeGran s c) := takeGran_keeps k0
  rw [e] at h
  exact h.out _ rfl

theorem syncPlate_keeps {s : State} (k0 : Keeps d s0 s) : Keeps d s0 (syncPlate s) := by
  unfold syncPlate
  apply setFld_keeps
  apply setFld_keeps
  with_reducible assumption

theorem dropGran_keeps {s : State} {g : Nat} (k0 : Keeps d s0 s) : Keeps d s0 (dropGran s g) := by
  unfold dropGran
  apply setGran_keeps
  with_reducible assumption

theorem wakeOps_keeps {s : State} (k0 : Keeps d s0 s) : Keeps d s0 (wakeOps s) := by
  unfold wakeOps
  apply makeEligible_keeps
  with_reducible assumption

theorem evictModel_keeps {s : State} {i : Nat} (k0 : Keeps d s0 s) : Keeps d s0 (evictModel s i) := by
  unfold evictModel
  with_reducible apply Keeps.fields
  split
  with_reducible assumption
  apply setModel_keeps
  apply freeFrames_keeps
  with_reducible assumption

theorem releaseHeld_keeps {s : State} (k0 : Keeps d s0 s) : Keeps d s0 (releaseHeld s) := by
  unfold releaseHeld
  apply Keeps.foldl
  with_reducible apply Keeps.fields
  with_reducible assumption
  intro _ _ _
  apply evictModel_keeps
  with_reducible assumption

theorem freeOrLater_keeps {s : State} {i : Nat} (k0 : Keeps d s0 s) : Keeps d s0 (freeOrLater s i) := by
  unfold freeOrLater
  apply Keeps.ite
  intro _
  with_reducible apply Keeps.fields
  with_reducible assumption
  intro _
  apply evictModel_keeps
  with_reducible assumption

theorem execLaneGrant_keeps {s : State} (k0 : Keeps d s0 s) : KeepsO d s0 (execLaneGrant s) := by
  unfold execLaneGrant
  apply KeepsO.next
  with_reducible apply Keeps.fields
  split
  with_reducible assumption
  with_reducible apply Keeps.fields
  split
  with_reducible assumption
  apply setLane_keeps
  apply setDfJob_keeps
  with_reducible assumption

theorem leaveLane_keeps {s : State} {l : Nat} {x : Lane} {close : Bool} (k0 : Keeps d s0 s) : Keeps d s0 (leaveLane s l x close) := by
  unfold leaveLane
  apply setLane_keeps
  with_reducible assumption

theorem leaveWg_keeps {s : State} {id : Nat} {w : Wg} (k0 : Keeps d s0 s) : Keeps d s0 (leaveWg s id w) := by
  unfold leaveWg
  apply syncSteal_keeps
  apply Keeps.ite
  intro _
  with_reducible apply Keeps.fields
  split
  apply setDisp_keeps
  apply dropWg_keeps
  with_reducible apply Keeps.fields
  with_reducible assumption
  apply dropWg_keeps
  with_reducible apply Keeps.fields
  with_reducible assumption
  intro _
  apply setWg_keeps
  with_reducible apply Keeps.fields
  with_reducible assumption

theorem placeWg_keeps {s : State} {id : Nat} {w : Wg} {x3 : Nat} {p : Nat} (k0 : Keeps d s0 s) :
    Keeps d s0 (placeWg s id w x3 p) := by
  have k1 : Keeps d s0 { s with pn := { s.pn with admClock := s.pn.admClock + 1 } } := k0.fields
  have k2 := setWg_keeps (w := id) (x := { w with phase := .resident, train := x3, pos := p, admitted := s.pn.admClock + 1 }) k1
  unfold placeWg
  refine syncSteal_keeps ?_
  dsimp only
  generalize setWg _ _ _ = u at k2 ⊢
  split
  · exact k2
  · have k3 := countReg_keeps (off := Reg.PN_STEALS) (len := 32) (n := 1) k2
    generalize countReg u _ _ _ = v at k3 ⊢
    repeat' first | exact k3 | exact setDisp_keeps k3 | split

theorem execWorkgroupAdmission_keeps {train : Nat} {pos : Nat} {s : State} (k2 : Keeps d s0 s) :
    KeepsO d s0 (execWorkgroupAdmission train pos s) := by
  unfold execWorkgroupAdmission
  refine KeepsO.next ?_
  repeat' first | exact k2 | exact placeWg_keeps k2 | split

theorem retire_keeps {s : State} {h : Here} {b : Beat} (k0 : Keeps d s0 s) : Keeps d s0 (retire s h b) := by
  unfold retire
  apply retireTo_keeps
  with_reducible assumption

theorem allocHeld_keeps {s : State} {h : Here} (k0 : Keeps d s0 s) : Keeps d s0 (allocHeld s h) := by
  unfold allocHeld
  apply Keeps.ite
  intro _
  apply endBeat_keeps
  with_reducible apply Keeps.fields
  with_reducible assumption
  intro _
  with_reducible assumption

theorem l1Fills_keeps {s : State} {train : Nat} {m : PageMap} {a : Acc} (k0 : Keeps d s0 s) : Keeps d s0 (l1Fills s train m a) := by
  unfold l1Fills
  apply Keeps.foldl
  with_reducible assumption
  intro _ _ _
  with_reducible apply Keeps.fields
  split
  with_reducible assumption
  with_reducible apply Keeps.fields
  split
  apply Keeps.ite
  intro _
  apply Keeps.foldl
  with_reducible assumption
  intro _ _ _
  apply l1Fill_keeps
  with_reducible assumption
  intro _
  with_reducible assumption
  apply Keeps.ite
  intro _
  apply Keeps.foldl
  with_reducible assumption
  intro _ _ _
  apply l1Fill_keeps
  with_reducible assumption
  intro _
  with_reducible assumption
  with_reducible assumption

theorem evwaitDone_keeps {s : State} {h : Here} {ws : List XWait} (k0 : Keeps d s0 s) : Keeps d s0 (evwaitDone s h ws) := by
  unfold evwaitDone
  apply retire_keeps
  apply Keeps.ite
  intro _
  apply noteFail_keeps
  with_reducible assumption
  intro _
  with_reducible assumption

theorem execManagementCommandArrival_keeps {words : List Word} {s : State} (k1 : Keeps d s0 s) : KeepsO d s0 (execManagementCommandArrival words s) := by
  unfold execManagementCommandArrival
  apply KeepsO.next
  apply Keeps.ite
  intro _
  apply mcArrive_keeps
  with_reducible assumption
  intro _
  with_reducible assumption

theorem execCreditReturn_keeps {port : Nat} {vc : Nat} {n : Nat} {s : State} (k3 : Keeps d s0 s) : KeepsO d s0 (execCreditReturn port vc n s) := by
  unfold execCreditReturn
  apply KeepsO.next
  apply Keeps.ite
  intro _
  with_reducible assumption
  intro _
  apply sendOut_keeps
  apply setPort_keeps
  with_reducible assumption

theorem execProbeAnswer_keeps {dev : Nat} {cand : Nat} {s : State} (k2 : Keeps d s0 s) : KeepsO d s0 (execProbeAnswer dev cand s) := by
  unfold execProbeAnswer
  apply KeepsO.next
  apply gotProbeAnswer_keeps
  with_reducible assumption

theorem execMcResponse_keeps {words : List Word} {s : State} (k1 : Keeps d s0 s) : KeepsO d s0 (execMcResponse words s) := by
  unfold execMcResponse
  apply KeepsO.next
  apply mcDone_keeps
  with_reducible assumption

theorem execTranslationMiss_keeps {stream : Nat} {ctx : Nat} {va : Nat} {write : Bool} {atomic : Bool} {s : State} (k5 : Keeps d s0 s) : KeepsO d s0 (execTranslationMiss stream ctx va write atomic s) := by
  unfold execTranslationMiss
  apply KeepsO.next
  apply Keeps.ite
  intro _
  with_reducible assumption
  intro _
  with_reducible apply Keeps.fields
  split
  apply openMiss_keeps
  with_reducible assumption
  apply Keeps.ite
  intro _
  apply openMiss_keeps
  with_reducible assumption
  intro _
  with_reducible assumption
  apply takeFault_keeps
  with_reducible assumption
  with_reducible assumption

theorem execPageRequestResponse_keeps {stream : Nat} {pasid : Nat} {page : Nat} {code : Nat} {s : State} (k4 : Keeps d s0 s) : KeepsO d s0 (execPageRequestResponse stream pasid page code s) := by
  unfold execPageRequestResponse
  apply KeepsO.next
  with_reducible apply Keeps.fields
  split
  with_reducible assumption
  apply Keeps.ite
  intro _
  with_reducible assumption
  intro _
  apply Keeps.ite
  intro _
  with_reducible apply Keeps.fields
  apply updMiss_keeps
  with_reducible assumption
  intro _
  apply Keeps.ite
  intro _
  apply failMiss_keeps
  with_reducible assumption
  intro _
  apply stopWaiting_keeps
  with_reducible apply Keeps.fields
  apply failMiss_keeps
  with_reducible assumption

theorem execInvalidateRequest_keeps {hasPasid : Bool} {pasid : Nat} {base : Nat} {size : Nat} {s : State} (k4 : Keeps d s0 s) : KeepsO d s0 (execInvalidateRequest hasPasid pasid base size s) := by
  unfold execInvalidateRequest
  apply KeepsO.next
  apply countReg_keeps
  with_reducible apply Keeps.fields
  apply invalidate_keeps
  with_reducible assumption

theorem freeHeld_keeps {s : State} {la : Nat} {host : Bool} (k0 : Keeps d s0 s) : Keeps d s0 (freeHeld s la host) := by
  unfold freeHeld
  apply Keeps.ite
  intro _
  with_reducible assumption
  intro _
  apply Keeps.foldl
  with_reducible apply Keeps.fields
  with_reducible assumption
  intro _ _ _
  apply physWr_keeps
  with_reducible assumption

theorem placeLine_keeps {s : State} {la : Nat} {l : Line} (k0 : Keeps d s0 s) : KeepsP d s0 Prod.snd (placeLine s la l) := by
  refine ⟨fun x e => ?_⟩
  unfold placeLine at e
  cases h : pickWay s la l.hc with
  | none => simp [h] at e
  | some w =>
    simp only [h, Option.bind_some] at e
    split at e
    · injection e with e
      exact e ▸ setLine_keeps k0
    · cases h2 : freeVict s (lineSlice la) with
      | none => simp [h2] at e
      | some v =>
        simp only [h2, Option.map_some, Option.some.injEq] at e
        subst e
        exact setLine_keeps (setVict_keeps (caStamp_keeps k0))

theorem placeLine_eq {s : State} {la : Nat} {l : Line} {y} {t : State} (e : placeLine s la l = some (y, t)) (k0 : Keeps d s0 s) : Keeps d s0 t := by
  have h : KeepsP d s0 Prod.snd (placeLine s la l) := placeLine_keeps k0
  rw [e] at h
  exact h.out _ rfl

theorem execVictimEviction_keeps {slice : Nat} {s : State} (k1 : Keeps d s0 s) : KeepsO d s0 (execVictimEviction slice s) := by
  unfold execVictimEviction
  apply KeepsO.next
  apply Keeps.ite
  intro _
  with_reducible assumption
  intro _
  with_reducible apply Keeps.fields
  split
  with_reducible assumption
  apply Keeps.ite
  intro _
  apply setVict_keeps
  with_reducible assumption
  intro _
  apply delVict_keeps
  apply Keeps.ite
  intro _
  apply writeBack_keeps
  with_reducible assumption
  intro _
  with_reducible assumption

theorem maintain_keeps {s : State} {op : Nat} {p : Nat → Line → Bool} {v : Nat → Line → Bool} (k0 : Keeps d s0 s) : Keeps d s0 (maintain s op p v) := by
  unfold maintain
  with_reducible apply Keeps.fields
  apply Keeps.foldl
  with_reducible assumption
  intro _ _ _
  apply cleanLine_keeps
  with_reducible assumption

theorem snoopData_keeps {s : State} {l : Line} (k0 : Keeps d s0 s) : Keeps d s0 (snoopData s l) := by
  unfold snoopData
  apply Keeps.ite
  intro _
  apply memStore_keeps
  with_reducible apply Keeps.fields
  apply countReg_keeps
  with_reducible assumption
  intro _
  with_reducible apply Keeps.fields
  apply countReg_keeps
  with_reducible assumption

theorem lineWrite_keeps {s : State} {host : Bool} {a : Nat} {x3 : List Byte} (k0 : Keeps d s0 s) : Keeps d s0 (lineWrite s host a x3) := by
  unfold lineWrite
  with_reducible apply Keeps.fields
  split
  with_reducible apply Keeps.fields
  apply tellTrains_keeps
  with_reducible assumption
  apply physWr_keeps
  with_reducible assumption

theorem execCacheAccess_keeps {addr : Nat} {host : Bool} {hc : Bool} {write : Bool} {data : List Byte} {s : State} (k5 : Keeps d s0 s) : KeepsO d s0 (execCacheAccess addr host hc write data s) := by
  unfold execCacheAccess
  apply KeepsO.next
  apply Keeps.ite
  intro _
  apply Keeps.ite
  intro _
  apply lineWrite_keeps
  with_reducible assumption
  intro _
  with_reducible assumption
  intro _
  with_reducible apply Keeps.fields
  split
  apply useLine_keeps
  apply countReg_keeps
  with_reducible assumption
  with_reducible apply Keeps.fields
  split
  apply Keeps.ite
  intro _
  with_reducible assumption
  intro _
  with_reducible apply Keeps.fields
  split
  with_reducible assumption
  apply useLine_keeps
  apply countReg_keeps
  refine placeLine_eq (by assumption) ?_
  apply delVict_keeps
  with_reducible assumption
  with_reducible apply Keeps.fields
  split
  apply useLine_keeps
  apply countReg_keeps
  refine placeLine_eq (by assumption) ?_
  with_reducible assumption
  with_reducible assumption

theorem execHostSnoop_keeps {addr : Nat} {invalidate : Bool} {s : State} (k2 : Keeps d s0 s) : KeepsO d s0 (execHostSnoop addr invalidate s) := by
  unfold execHostSnoop
  apply KeepsO.next
  with_reducible apply Keeps.fields
  split
  apply tellTrains_keeps
  with_reducible assumption
  with_reducible apply Keeps.fields
  split
  with_reducible apply Keeps.fields
  split
  apply setLine_keeps
  apply snoopData_keeps
  with_reducible assumption
  apply delLine_keeps
  apply snoopData_keeps
  with_reducible assumption
  with_reducible apply Keeps.fields
  split
  with_reducible apply Keeps.fields
  split
  apply setVict_keeps
  apply snoopData_keeps
  with_reducible assumption
  apply delVict_keeps
  apply snoopData_keeps
  with_reducible assumption
  apply countReg_keeps
  with_reducible assumption

theorem dropL1s_keeps {s : State} (k0 : Keeps d s0 s) : Keeps d s0 (dropL1s s) := by
  unfold dropL1s
  apply Keeps.foldl
  with_reducible apply Keeps.fields
  with_reducible assumption
  intro _ _ _
  apply physWr_keeps
  with_reducible assumption

end Sys2Proof.Machine
end

