-- ==== Sys2Proof/Laws/KeepsB.lean ====
section
/-! SUPPORT. Every operation of the part keeps the relation `Keeps` (operations in the order in which they use
one another): one lemma for each, used by the next. -/

namespace Sys2Proof.Machine

variable {d : Prop} {s0 : State}

theorem devWr_keeps {s : State} {a : Nat} {x2 : List Byte} (k0 : Keeps d s0 s) : Keeps d s0 (devWr s a x2) := by
  unfold devWr
  apply Keeps.foldl
  with_reducible assumption
  intro _ _ _
  apply physWr_keeps
  with_reducible assumption

theorem freeSnooped_keeps {s : State} {w : Nat × List Byte} (k0 : Keeps d s0 s) : Keeps d s0 (freeSnooped s w) := by
  unfold freeSnooped
  with_reducible apply Keeps.fields
  split
  apply devWr_keeps
  with_reducible assumption
  with_reducible apply Keeps.fields
  apply sendSnoop_keeps
  with_reducible assumption

theorem noteSource_keeps {s : State} {off : Nat} (k0 : Keeps d s0 s) : Keeps d s0 (noteSource s off) := by
  unfold noteSource
  with_reducible apply Keeps.fields
  split
  with_reducible assumption
  apply setVec_keeps
  with_reducible assumption

theorem unmask_keeps {s : State} {v : Nat} (k0 : Keeps d s0 s) : Keeps d s0 (unmask s v) := by
  unfold unmask
  apply Keeps.ite
  intro _
  apply Keeps.ite
  intro _
  apply sendMsi_keeps
  apply setVec_keeps
  with_reducible assumption
  intro _
  apply setVec_keeps
  with_reducible assumption
  intro _
  apply setVec_keeps
  with_reducible assumption

theorem execMsiXMessage_keeps {vec : Nat} {s : State} (k1 : Keeps d s0 s) : KeepsO d s0 (execMsiXMessage vec s) := by
  unfold execMsiXMessage
  apply KeepsO.next
  apply Keeps.ite
  intro _
  with_reducible assumption
  intro _
  apply Keeps.ite
  intro _
  apply setVec_keeps
  with_reducible assumption
  intro _
  apply Keeps.ite
  intro _
  with_reducible assumption
  intro _
  apply Keeps.ite
  intro _
  apply setVec_keeps
  with_reducible assumption
  intro _
  apply Keeps.ite
  intro _
  with_reducible assumption
  intro _
  apply sendMsi_keeps
  apply setVec_keeps
  with_reducible assumption

theorem snoopEnded_keeps {s : State} {l : Nat} (k0 : Keeps d s0 s) : Keeps d s0 (snoopEnded s l) := by
  unfold snoopEnded
  apply Keeps.foldl
  with_reducible apply Keeps.fields
  with_reducible assumption
  intro _ _ _
  with_reducible apply Keeps.fields
  split
  apply freeSnooped_keeps
  with_reducible assumption
  with_reducible assumption

theorem execCxlMemAccess_keeps {hpa : Nat} {write : Bool} {modified : Bool} {data : List Byte} {s : State} (k4 : Keeps d s0 s) : KeepsO d s0 (execCxlMemAccess hpa write modified data s) := by
  unfold execCxlMemAccess
  apply KeepsO.next
  with_reducible apply Keeps.fields
  split
  with_reducible assumption
  apply Keeps.ite
  intro _
  with_reducible assumption
  intro _
  apply Keeps.ite
  intro _
  with_reducible apply Keeps.fields
  apply devWr_keeps
  with_reducible assumption
  intro _
  apply Keeps.ite
  intro _
  with_reducible assumption
  intro _
  apply Keeps.ite
  intro _
  with_reducible apply Keeps.fields
  split
  apply sendSnoop_keeps
  with_reducible assumption
  with_reducible assumption
  intro _
  with_reducible apply Keeps.fields
  apply sfRecord_keeps
  with_reducible assumption

theorem stepGens_keeps {s : State} {old : Nat} {new : Nat} (k0 : Keeps d s0 s) : Keeps d s0 (stepGens s old new) := by
  unfold stepGens
  with_reducible apply Keeps.fields
  apply Keeps.foldl
  with_reducible assumption
  intro _ _ _
  apply Keeps.ite
  intro _
  apply aimGen_keeps
  with_reducible assumption
  intro _
  with_reducible assumption

theorem dropPass_keeps {s : State} {id : Nat} (k0 : Keeps d s0 s) : Keeps d s0 (dropPass s id) := by
  unfold dropPass
  apply releaseHeld_keeps
  with_reducible apply Keeps.fields
  apply dropWaits_keeps
  apply dropWgs_keeps
  with_reducible assumption

theorem freeCtx_keeps {s : State} {c : Nat} (k0 : Keeps d s0 s) : Keeps d s0 (freeCtx s c) := by
  unfold freeCtx
  apply dropPasid_keeps
  apply syncPlate_keeps
  apply setCtx_keeps
  apply Keeps.foldl
  with_reducible assumption
  intro _ _ _
  apply dropGran_keeps
  apply zeroGran_keeps
  with_reducible assumption

theorem awaitBlocks_keeps {s : State} {id : Nat} {o : GwOp} (k0 : Keeps d s0 s) : Keeps d s0 (awaitBlocks s id o) := by
  unfold awaitBlocks
  with_reducible apply Keeps.fields
  split
  apply setGwOp_keeps
  with_reducible assumption
  apply Keeps.ite
  intro _
  apply setGwOp_keeps
  with_reducible assumption
  intro _
  apply Keeps.ite
  intro _
  apply setGwOp_keeps
  with_reducible assumption
  intro _
  apply wakeOps_keeps
  apply requestModel_keeps
  apply setGwOp_keeps
  with_reducible assumption

theorem execNetworkPassIssue_keeps {pass : Nat} {s : State} (k1 : Keeps d s0 s) : KeepsO d s0 (execNetworkPassIssue pass s) := by
  unfold execNetworkPassIssue
  apply KeepsO.next
  with_reducible apply Keeps.fields
  split
  with_reducible assumption
  apply Keeps.ite
  intro _
  with_reducible assumption
  intro _
  apply addGwOp_keeps
  apply setPass_keeps
  with_reducible assumption

theorem execGwSelect_keeps {s : State} (k0 : Keeps d s0 s) : KeepsO d s0 (execGwSelect s) := by
  unfold execGwSelect
  apply KeepsO.next
  apply Keeps.ite
  intro _
  apply wakeTemplates_keeps
  with_reducible assumption
  intro _
  with_reducible apply Keeps.fields
  split
  apply wakeTemplates_keeps
  with_reducible assumption
  apply Keeps.ite
  intro _
  apply setGwOp_keeps
  with_reducible apply Keeps.fields
  split
  apply setModel_keeps
  with_reducible apply Keeps.fields
  refine dwrr_eq (by assumption) ?_
  apply wakeTemplates_keeps
  with_reducible assumption
  refine dwrr_eq (by assumption) ?_
  apply wakeTemplates_keeps
  with_reducible assumption
  intro _
  apply setGwOp_keeps
  with_reducible apply Keeps.fields
  split
  apply setModel_keeps
  with_reducible apply Keeps.fields
  refine dwrr_eq (by assumption) ?_
  apply wakeTemplates_keeps
  with_reducible assumption
  refine dwrr_eq (by assumption) ?_
  apply wakeTemplates_keeps
  with_reducible assumption

theorem stallOn_keeps {s : State} {id : Nat} {k : Nat} (k0 : Keeps d s0 s) : Keeps d s0 (stallOn s id k) := by
  unfold stallOn
  with_reducible apply Keeps.fields
  split
  apply countReg_keeps
  with_reducible apply Keeps.fields
  with_reducible assumption
  apply setGwOp_keeps
  apply countReg_keeps
  with_reducible apply Keeps.fields
  with_reducible assumption

theorem dropOp_keeps {s : State} {id : Nat} (k0 : Keeps d s0 s) : Keeps d s0 (dropOp s id) := by
  unfold dropOp
  apply releaseHeld_keeps
  with_reducible apply Keeps.fields
  with_reducible assumption

theorem setPhys_keeps {s : State} {l : Nat} {p : Nat} (k0 : Keeps d s0 s) : Keeps d s0 (setPhys s l p) := by
  unfold setPhys
  apply setFld_keeps
  with_reducible assumption

theorem syncSpares_keeps {s : State} (k0 : Keeps d s0 s) : Keeps d s0 (syncSpares s) := by
  unfold syncSpares
  apply setFld_keeps
  with_reducible assumption

theorem execGwRateSample_keeps {stepNs : Nat} {s : State} (k1 : Keeps d s0 s) : KeepsO d s0 (execGwRateSample stepNs s) := by
  unfold execGwRateSample
  apply KeepsO.next
  apply Keeps.ite
  intro _
  apply markDone_keeps
  with_reducible apply Keeps.fields
  apply setFld_keeps
  with_reducible assumption
  intro _
  with_reducible assumption

theorem clearFn_keeps {s : State} {n : Nat} (k0 : Keeps d s0 s) : Keeps d s0 (clearFn s n) := by
  unfold clearFn
  apply clearFnStore_keeps
  apply clearFnRegs_keeps
  with_reducible assumption

theorem layGroups_keeps {s : State} {m : Nat} (k0 : Keeps d s0 s) : Keeps d s0 (layGroups s m) := by
  unfold layGroups
  apply putReg_keeps
  apply Keeps.foldl
  apply putReg_keeps
  with_reducible assumption
  intro _ _ _
  apply setPhys_keeps
  with_reducible assumption

theorem quotaEvict_keeps {s : State} {j : Nat} {a : Nat} (k0 : Keeps d s0 s) : Keeps d s0 (quotaEvict s j a) := by
  induction a generalizing s with
  | zero =>
    unfold quotaEvict
    with_reducible assumption
  | succ n ih =>
    unfold quotaEvict
    apply Keeps.ite
    intro _
    apply setJob_keeps
    with_reducible assumption
    intro _
    with_reducible apply Keeps.fields
    split
    with_reducible assumption
    apply ih
    apply setJob_keeps
    apply evictModel_keeps
    with_reducible assumption

theorem setIngest_keeps {s : State} {p : Nat} {i : Ingest} (k0 : Keeps d s0 s) : Keeps d s0 (setIngest s p i) := by
  unfold setIngest
  apply setMp_keeps
  with_reducible assumption

theorem execMediaLinkUp_keeps {port : Nat} {s : State} (k1 : Keeps d s0 s) : KeepsO d s0 (execMediaLinkUp port s) := by
  unfold execMediaLinkUp
  apply KeepsO.next
  apply Keeps.ite
  intro _
  with_reducible assumption
  intro _
  apply setFld_keeps
  with_reducible assumption

theorem execMediaLinkDown_keeps {port : Nat} {s : State} (k1 : Keeps d s0 s) : KeepsO d s0 (execMediaLinkDown port s) := by
  unfold execMediaLinkDown
  apply KeepsO.next
  apply Keeps.ite
  intro _
  with_reducible assumption
  intro _
  with_reducible apply Keeps.fields
  split
  apply Keeps.ite
  intro _
  apply setIngest_keeps
  apply setFld_keeps
  with_reducible assumption
  intro _
  apply setFld_keeps
  with_reducible assumption
  apply setFld_keeps
  with_reducible assumption

theorem afterRaster_keeps {s : State} {g : Eng} (k0 : Keeps d s0 s) : Keeps d s0 (afterRaster s g) := by
  unfold afterRaster
  apply Keeps.ite
  intro _
  apply Eng.put_keeps
  with_reducible assumption
  intro _
  apply Eng.put_keeps
  apply onPass_keeps
  with_reducible assumption

theorem stageNetwork_keeps {s : State} {g : Eng} (k0 : Keeps d s0 s) : Keeps d s0 (stageNetwork s g) := by
  unfold stageNetwork
  apply Keeps.ite
  intro _
  apply Eng.put_keeps
  apply onPass_keeps
  with_reducible assumption
  intro _
  apply Keeps.ite
  intro _
  apply Eng.put_keeps
  with_reducible assumption
  intro _
  with_reducible assumption

theorem afterStore_keeps {s : State} {g : Eng} (k0 : Keeps d s0 s) : Keeps d s0 (afterStore s g) := by
  unfold afterStore
  apply Keeps.ite
  intro _
  apply Eng.put_keeps
  apply tickFor_keeps
  apply addWide_keeps
  with_reducible assumption
  intro _
  with_reducible apply Keeps.fields
  apply onPass_keeps
  apply tickFor_keeps
  apply addWide_keeps
  with_reducible assumption

theorem setFlag_keeps {s : State} {off : Nat} {i : Nat} {b : Bool} (k0 : Keeps d s0 s) : Keeps d s0 (setFlag s off i b) := by
  unfold setFlag
  apply setFld_keeps
  with_reducible assumption

theorem releaseReady_keeps {s : State} (k0 : Keeps d s0 s) : Keeps d s0 (releaseReady s) := by
  unfold releaseReady
  apply setFlag_keeps
  with_reducible assumption

theorem queueOut_keeps {s : State} {p : Nat} {k : Packet} (k0 : Keeps d s0 s) : Keeps d s0 (queueOut s p k) := by
  unfold queueOut
  apply sendOut_keeps
  apply setPort_keeps
  with_reducible assumption

theorem storeRec_keeps {s : State} {r : Rec} (k0 : Keeps d s0 s) : Keeps d s0 (storeRec s r) := by
  have main : Keeps d s0 { s with ch := { s.ch with
      circ := if (s.ch.circ ++ [{ r with seq := s.ch.nextSeq, perm := decide (s.ch.perm.length < 4096) }]).length > 16384 then
          (s.ch.circ ++ [{ r with seq := s.ch.nextSeq, perm := decide (s.ch.perm.length < 4096) }]).drop 1
        else s.ch.circ ++ [{ r with seq := s.ch.nextSeq, perm := decide (s.ch.perm.length < 4096) }]
      nextSeq := s.ch.nextSeq + 1
      perm := if decide (s.ch.perm.length < 4096) then s.ch.perm ++ [{ r with seq := s.ch.nextSeq, perm := decide (s.ch.perm.length < 4096) }]
        else s.ch.perm } } := by
    refine k0.updCh rfl rfl rfl (fun c => ⟨⟨?_, ?_, c.2.2.1, ?_, c.2.2.2.2⟩, fun _ => ⟨Nat.le_refl _, ?_⟩⟩)
    · have := c.1; dsimp only; split <;> simp_all
    · have := c.2.1; dsimp only; split <;> simp_all
    · have := c.2.2.2.1; dsimp only; split <;> simp_all; omega
    · have := c.2.2.2.1
      dsimp only
      split
      · rw [List.take_append_of_le_length this]
      · rfl
  unfold storeRec
  dsimp only
  generalize ({ s with ch := _ } : State) = u at main ⊢
  split <;> split <;> first | exact main | exact setFlag_keeps main | exact setFlag_keeps (setFlag_keeps main)

theorem sendPkt_keeps {s : State} {vc : Nat} {dst : Nat} {body : Pkt} (k0 : Keeps d s0 s) : Keeps d s0 (sendPkt s vc dst body) := by
  unfold sendPkt
  with_reducible apply Keeps.fields
  split
  apply Keeps.ite
  intro _
  with_reducible apply Keeps.fields
  split
  apply queueOut_keeps
  with_reducible assumption
  with_reducible apply Keeps.fields
  split
  apply Keeps.ite
  intro _
  apply queueOut_keeps
  with_reducible assumption
  intro _
  with_reducible assumption
  with_reducible assumption
  intro _
  apply Keeps.ite
  intro _
  with_reducible apply Keeps.fields
  with_reducible assumption
  intro _
  with_reducible apply Keeps.fields
  split
  apply queueOut_keeps
  with_reducible assumption
  with_reducible apply Keeps.fields
  split
  apply Keeps.ite
  intro _
  apply queueOut_keeps
  with_reducible assumption
  intro _
  with_reducible assumption
  with_reducible assumption
  with_reducible apply Keeps.fields
  split
  apply queueOut_keeps
  with_reducible assumption
  with_reducible apply Keeps.fields
  split
  apply Keeps.ite
  intro _
  apply queueOut_keeps
  with_reducible assumption
  intro _
  with_reducible assumption
  with_reducible assumption

theorem driveAlarm_keeps {s : State} (k0 : Keeps d s0 s) : Keeps d s0 (driveAlarm s) := by
  unfold driveAlarm
  apply setFlag_keeps
  with_reducible assumption

theorem markFault_keeps {s : State} {off : Nat} {bs : List Nat} (k0 : Keeps d s0 s) : Keeps d s0 (markFault s off bs) := by
  unfold markFault
  apply Keeps.ite
  intro _
  with_reducible assumption
  intro _
  apply countReg_keeps
  apply Keeps.foldl
  apply Keeps.ite
  intro _
  apply putReg_keeps
  with_reducible assumption
  intro _
  with_reducible assumption
  intro _ _ _
  apply setFlag_keeps
  with_reducible assumption

theorem vaWr_keeps {s : State} {hc : Bool} {w : Who} {m : PageMap} {va : Nat} {x5 : List Byte} (k0 : Keeps d s0 s) : Keeps d s0 (vaWr s hc w m va x5) := by
  unfold vaWr
  apply Keeps.foldl
  with_reducible assumption
  intro _ _ _
  with_reducible apply Keeps.fields
  split
  with_reducible assumption
  with_reducible apply Keeps.fields
  split
  apply physWr_keeps
  with_reducible assumption
  apply physWr_keeps
  with_reducible assumption
  apply Keeps.foldl
  with_reducible assumption
  intro _ _ _
  apply sendPkt_keeps
  with_reducible apply Keeps.fields
  with_reducible assumption
  with_reducible assumption

theorem askRemote_keeps {s : State} {w : Who} {x2 : Nat} {off : Nat} {len : Nat} {page : Nat} (k0 : Keeps d s0 s) : Keeps d s0 (askRemote s w x2 off len page).1 := by
  unfold askRemote
  apply Keeps.foldlFst
  with_reducible assumption
  intro _ _ _
  extract_lets +onlyGivenNames x; have hx : Keeps d s0 x; (on_goal 2 => clear_value x); unfold x
  with_reducible assumption
  with_reducible apply Keeps.fields
  split
  with_reducible assumption
  with_reducible apply Keeps.fields
  split
  with_reducible assumption
  apply sendPkt_keeps
  with_reducible apply Keeps.fields
  with_reducible assumption

theorem askRemote_eq {s : State} {w : Who} {x2 : Nat} {off : Nat} {len : Nat} {page : Nat} {y} {t : State} (e : askRemote s w x2 off len page = (t, y)) (k0 : Keeps d s0 s) : Keeps d s0 t := by
  have h : Keeps d s0 (askRemote s w x2 off len page).1 := askRemote_keeps k0
  rw [e] at h
  exact h

theorem dropRemote_keeps {s : State} (k0 : Keeps d s0 s) : Keeps d s0 (dropRemote s) := by
  unfold dropRemote
  apply setFlag_keeps
  apply countReg_keeps
  with_reducible assumption

theorem forward_keeps {s : State} {e : Ev} {k : RecKind} (k0 : Keeps d s0 s) : Keeps d s0 (forward s e k) := by
  unfold forward
  apply Keeps.ite
  intro _
  apply Keeps.ite
  intro _
  with_reducible apply Keeps.fields
  with_reducible assumption
  intro _
  apply Keeps.ite
  intro _
  apply dropRemote_keeps
  with_reducible assumption
  intro _
  apply sendPkt_keeps
  with_reducible assumption
  intro _
  with_reducible assumption

theorem recordEv_keeps {s : State} {n : Nat} {k : RecKind} (k0 : Keeps d s0 s) : Keeps d s0 (recordEv s n k) := by
  unfold recordEv
  apply Keeps.ite
  intro _
  with_reducible assumption
  intro _
  with_reducible apply Keeps.fields
  split
  apply forward_keeps
  apply evalWaits_keeps
  apply setEv_keeps
  with_reducible assumption
  with_reducible apply Keeps.fields
  split
  apply setFlag_keeps
  apply countReg_keeps
  with_reducible assumption
  apply countReg_keeps
  with_reducible assumption

theorem escErr_keeps {s : State} {b : Nat} {ring : Nat} (k0 : Keeps d s0 s) : Keeps d s0 (escErr s b ring) := by
  unfold escErr
  apply setFlag_keeps
  apply Keeps.ite
  intro _
  apply setFld_keeps
  with_reducible assumption
  intro _
  with_reducible assumption

theorem publishIn_keeps {s : State} {r : Nat} {x : Ring} {idx : Word} (k0 : Keeps d s0 s) : Keeps d s0 (publishIn s r x idx) := by
  unfold publishIn
  apply Keeps.ite
  intro _
  apply setRing_keeps
  with_reducible assumption
  intro _
  apply notePub_keeps
  with_reducible assumption

theorem execDoorbell_keeps {ring : Nat} {val : Word} {s : State} (k2 : Keeps d s0 s) : KeepsO d s0 (execDoorbell ring val s) := by
  unfold execDoorbell
  apply KeepsO.next
  apply Keeps.ite
  intro _
  with_reducible assumption
  intro _
  with_reducible apply Keeps.fields
  split
  with_reducible assumption
  apply Keeps.ite
  intro _
  apply Keeps.ite
  intro _
  apply escErr_keeps
  with_reducible assumption
  intro _
  apply Keeps.ite
  intro _
  with_reducible assumption
  intro _
  apply notePub_keeps
  with_reducible assumption
  intro _
  apply Keeps.ite
  intro _
  apply Keeps.ite
  intro _
  apply publishIn_keeps
  with_reducible assumption
  intro _
  apply escErr_keeps
  with_reducible assumption
  intro _
  apply escErr_keeps
  with_reducible assumption

theorem fetchGroup_keeps {s : State} {r : Nat} {x : Ring} {ents : List (List Byte)} (k0 : Keeps d s0 s) : Keeps d s0 (fetchGroup s r x ents) := by
  unfold fetchGroup
  apply setDesc_keeps
  with_reducible apply Keeps.fields
  apply Keeps.ite
  intro _
  apply escErr_keeps
  apply setRing_keeps
  with_reducible assumption
  intro _
  apply setRing_keeps
  with_reducible assumption

theorem arriveRec_keeps {s : State} {r : Fwd} (k0 : Keeps d s0 s) : Keeps d s0 (arriveRec s r) := by
  unfold arriveRec
  apply Keeps.ite
  intro _
  apply recordEv_keeps
  with_reducible assumption
  intro _
  apply dropRemote_keeps
  with_reducible assumption

theorem execLinkedRecordArrival_keeps {s : State} (k0 : Keeps d s0 s) : KeepsO d s0 (execLinkedRecordArrival s) := by
  unfold execLinkedRecordArrival
  apply KeepsO.next
  with_reducible apply Keeps.fields
  split
  apply arriveRec_keeps
  with_reducible apply Keeps.fields
  with_reducible assumption
  with_reducible apply Keeps.fields
  split
  apply arriveRec_keeps
  with_reducible apply Keeps.fields
  with_reducible assumption
  with_reducible assumption

theorem recordDone_keeps {s : State} {ev : Nat} {val : Nat} {status : Nat} (k0 : Keeps d s0 s) : Keeps d s0 (recordDone s ev val status) := by
  unfold recordDone
  apply recordEv_keeps
  with_reducible assumption

theorem plateViol_keeps {s : State} {c : Nat} {slot : Nat} {code : Nat} (k0 : Keeps d s0 s) : Keeps d s0 (plateViol s c slot code) := by
  unfold plateViol
  apply Keeps.ite
  intro _
  apply setFlag_keeps
  with_reducible assumption
  intro _
  apply Keeps.ite
  intro _
  apply setFlag_keeps
  with_reducible assumption
  intro _
  apply Keeps.ite
  intro _
  with_reducible assumption
  intro _
  apply setFlag_keeps
  apply countReg_keeps
  apply Keeps.ite
  intro _
  with_reducible assumption
  intro _
  apply setFld_keeps
  apply setFld_keeps
  with_reducible assumption

theorem execGranuleReplacement_keeps {ctx : Nat} {s : State} (k1 : Keeps d s0 s) : KeepsO d s0 (execGranuleReplacement ctx s) := by
  unfold execGranuleReplacement
  apply KeepsO.next
  with_reducible apply Keeps.fields
  split
  with_reducible assumption
  with_reducible apply Keeps.fields
  split
  apply syncPlate_keeps
  apply setCtx_keeps
  refine takeGran_eq (by assumption) ?_
  with_reducible apply Keeps.fields
  split
  apply dropGran_keeps
  with_reducible assumption
  with_reducible assumption
  apply syncPlate_keeps
  apply setCtx_keeps
  with_reducible apply Keeps.fields
  split
  apply dropGran_keeps
  with_reducible assumption
  with_reducible assumption

theorem growPart_keeps {s : State} {c : Nat} {a : Nat} (k0 : Keeps d s0 s) : Keeps d s0 (growPart s c a) := by
  induction a generalizing s with
  | zero =>
    unfold growPart
    with_reducible assumption
  | succ n ih =>
    unfold growPart
    with_reducible apply Keeps.fields
    split
    with_reducible assumption
    apply ih
    apply setCtx_keeps
    refine takeGran_eq (by assumption) ?_
    with_reducible assumption

theorem plateWr_keeps {s : State} {c : Nat} {slot : Nat} {off : Nat} {x4 : List Byte} (k0 : Keeps d s0 s) : Keeps d s0 (plateWr s c slot off x4) := by
  unfold plateWr
  with_reducible apply Keeps.fields
  split
  with_reducible apply Keeps.fields
  with_reducible assumption
  apply plateViol_keeps
  with_reducible assumption

theorem execGranuleRelease_keeps {ctx : Nat} {s : State} (k1 : Keeps d s0 s) : KeepsO d s0 (execGranuleRelease ctx s) := by
  unfold execGranuleRelease
  apply KeepsO.next
  with_reducible apply Keeps.fields
  split
  with_reducible assumption
  apply Keeps.ite
  intro _
  with_reducible assumption
  intro _
  apply setJob_keeps
  apply syncPlate_keeps
  apply setCtx_keeps
  with_reducible apply Keeps.fields
  split
  apply dropGran_keeps
  with_reducible assumption
  with_reducible assumption

theorem evictUntil_keeps {s : State} {c : Nat} {need : Nat} {a : List (Nat × Model)} (k0 : Keeps d s0 s) : Keeps d s0 (evictUntil s c need a) := by
  induction a generalizing s with
  | nil =>
    unfold evictUntil
    with_reducible assumption
  | cons b l ih =>
    unfold evictUntil
    apply Keeps.ite
    intro _
    with_reducible assumption
    intro _
    apply ih
    apply setCtx_keeps
    apply evictModel_keeps
    with_reducible assumption

theorem unloadModel_keeps {s : State} {i : Nat} (k0 : Keeps d s0 s) : Keeps d s0 (unloadModel s i) := by
  unfold unloadModel
  with_reducible apply Keeps.fields
  apply evictModel_keeps
  with_reducible apply Keeps.fields
  with_reducible assumption

theorem syncPinions_keeps {s : State} (k0 : Keeps d s0 s) : Keeps d s0 (syncPinions s) := by
  unfold syncPinions
  apply Keeps.foldl
  apply setFld_keeps
  apply setFld_keeps
  apply setFld_keeps
  with_reducible assumption
  intro _ _ _
  apply setFlag_keeps
  with_reducible assumption

theorem execWorkgroupSteal_keeps {train : Nat} {pos : Nat} {s : State} (k2 : Keeps d s0 s) : KeepsO d s0 (execWorkgroupSteal train pos s) := by
  unfold execWorkgroupSteal
  apply KeepsO.next
  apply Keeps.ite
  intro _
  with_reducible apply Keeps.fields
  split
  apply placeWg_keeps
  with_reducible assumption
  with_reducible assumption
  intro _
  with_reducible assumption

theorem execWorkgroupEnd_keeps {wg : Nat} {s : State} (k1 : Keeps d s0 s) : KeepsO d s0 (execWorkgroupEnd wg s) := by
  unfold execWorkgroupEnd
  apply KeepsO.next
  with_reducible apply Keeps.fields
  split
  with_reducible assumption
  apply Keeps.ite
  intro _
  apply leaveWg_keeps
  with_reducible assumption
  intro _
  with_reducible assumption

theorem abandonWg_keeps {s : State} {id : Nat} {code : Nat} (k0 : Keeps d s0 s) : Keeps d s0 (abandonWg s id code) := by
  unfold abandonWg
  with_reducible apply Keeps.fields
  split
  with_reducible assumption
  apply Keeps.ite
  intro _
  with_reducible assumption
  intro _
  apply leaveWg_keeps
  with_reducible apply Keeps.fields
  apply noteFail_keeps
  with_reducible assumption

theorem addWg_keeps {s : State} {w : Wg} (k0 : Keeps d s0 s) : Keeps d s0 (addWg s w) := by
  have k1 : Keeps d s0 { s with pn := { s.pn with nextWg := s.pn.nextWg + 1 }, free := s.free + w.beats.length } := k0.fields
  have k2 := setWg_keeps (w := s.pn.nextWg) (x := w) k1
  unfold addWg
  dsimp only
  generalize setWg _ _ _ = u at k2 ⊢
  split
  · exact abandonWg_keeps k2
  · exact syncSteal_keeps k2

theorem abandonAll_keeps {s : State} {code : Nat} {p : Wg → Bool} (k0 : Keeps d s0 s) : Keeps d s0 (abandonAll s code p) := by
  unfold abandonAll
  apply Keeps.foldl
  with_reducible assumption
  intro _ _ _
  apply abandonWg_keeps
  with_reducible assumption

theorem endWgErr_keeps {s : State} {id : Nat} {code : Nat} (k0 : Keeps d s0 s) : Keeps d s0 (endWgErr s id code) := by
  unfold endWgErr
  with_reducible apply Keeps.fields
  split
  with_reducible assumption
  apply setWg_keeps
  apply noteFail_keeps
  apply setFlag_keeps
  with_reducible assumption

theorem remoteAtom_keeps {s : State} {w : Who} {x2 : Nat} {off : Nat} {n : Nat} {op : Nat} {data : List Byte} {page : Nat} (k0 : Keeps d s0 s) : Keeps d s0 (remoteAtom s w x2 off n op data page).1 := by
  unfold remoteAtom
  with_reducible apply Keeps.fields
  split
  with_reducible assumption
  with_reducible apply Keeps.fields
  split
  with_reducible assumption
  apply sendPkt_keeps
  with_reducible apply Keeps.fields
  with_reducible assumption

theorem remoteAtom_eq {s : State} {w : Who} {x2 : Nat} {off : Nat} {n : Nat} {op : Nat} {data : List Byte} {page : Nat} {y} {t : State} (e : remoteAtom s w x2 off n op data page = (t, y)) (k0 : Keeps d s0 s) : Keeps d s0 t := by
  have h : Keeps d s0 (remoteAtom s w x2 off n op data page).1 := remoteAtom_keeps k0
  rw [e] at h
  exact h

theorem plateNote_keeps {s : State} {h : Here} {ls : List Nat} (k0 : Keeps d s0 s) : Keeps d s0 (plateNote s h ls) := by
  unfold plateNote
  apply Keeps.foldl
  with_reducible assumption
  intro _ _ _
  apply Keeps.ite
  intro _
  with_reducible assumption
  intro _
  apply noteFail_keeps
  apply plateViol_keeps
  with_reducible assumption

theorem writeMeta_keeps {s : State} {w : Who} {m : PageMap} {a : Acc} (k0 : Keeps d s0 s) : Keeps d s0 (writeMeta s w m a) := by
  unfold writeMeta
  apply vaWr_keeps
  with_reducible assumption

theorem tileWr_keeps {s : State} {c : Nat} {b : Img} {tile : Nat} {q : Nat} {x5 : List Byte} (k0 : Keeps d s0 s) : Keeps d s0 (tileWr s c b tile q x5) := by
  unfold tileWr
  apply Keeps.foldl
  with_reducible assumption
  intro _ _ _
  apply plateWr_keeps
  with_reducible assumption

theorem recordOwn_keeps {s : State} {c : Nat} {ev : Nat} {k : RecKind} (k0 : Keeps d s0 s) : Keeps d s0 (recordOwn s c ev k) := by
  unfold recordOwn
  apply Keeps.ite
  intro _
  apply recordEv_keeps
  with_reducible assumption
  intro _
  with_reducible assumption

theorem addVertWgs_keeps {s : State} {id : Nat} {p : BinPass} {code : Nat} {h : Prog} {const : Nat} {inst : Nat} {vs : List Nat} (k0 : Keeps d s0 s) : Keeps d s0 (addVertWgs s id p code h const inst vs) := by
  unfold addVertWgs
  apply Keeps.foldl
  with_reducible assumption
  intro _ _ _
  apply addWg_keeps
  with_reducible apply Keeps.fields
  with_reducible assumption

theorem flagLost_keeps {s : State} {x1 : Nat} (k0 : Keeps d s0 s) : Keeps d s0 (flagLost s x1) := by
  unfold flagLost
  apply Keeps.ite
  intro _
  with_reducible assumption
  intro _
  apply setFlag_keeps
  apply Keeps.foldl
  with_reducible assumption
  intro _ _ _
  apply recordEv_keeps
  with_reducible assumption

theorem sendMgmt_keeps {s : State} {x1 : Nat} {body : Pkt} (k0 : Keeps d s0 s) : Keeps d s0 (sendMgmt s x1 body) := by
  unfold sendMgmt
  with_reducible apply Keeps.fields
  split
  apply sendPkt_keeps
  with_reducible assumption
  with_reducible apply Keeps.fields
  split
  with_reducible apply Keeps.fields
  split
  apply queueOut_keeps
  with_reducible assumption
  with_reducible assumption
  apply sendPkt_keeps
  with_reducible assumption

theorem errorTo_keeps {s : State} {k : Packet} {cause : Nat} (k0 : Keeps d s0 s) : Keeps d s0 (errorTo s k cause) := by
  unfold errorTo
  with_reducible apply Keeps.fields
  split
  apply sendPkt_keeps
  with_reducible assumption
  apply sendPkt_keeps
  with_reducible assumption
  apply sendPkt_keeps
  with_reducible assumption
  with_reducible assumption

theorem completeSwitch_keeps {s : State} {job : Option Nat} (k0 : Keeps d s0 s) : Keeps d s0 (completeSwitch s job) := by
  unfold completeSwitch
  with_reducible apply Keeps.fields
  split
  apply Keeps.ite
  intro _
  apply setJob_keeps
  apply Keeps.foldl
  apply swapBanks_keeps
  with_reducible assumption
  intro _ _ _
  apply sendMgmt_keeps
  with_reducible assumption
  intro _
  apply Keeps.foldl
  apply swapBanks_keeps
  with_reducible assumption
  intro _ _ _
  apply sendMgmt_keeps
  with_reducible assumption
  apply Keeps.foldl
  apply swapBanks_keeps
  with_reducible assumption
  intro _ _ _
  apply sendMgmt_keeps
  with_reducible assumption

theorem nlErr_keeps {s : State} {b : Nat} (k0 : Keeps d s0 s) : Keeps d s0 (nlErr s b) := by
  unfold nlErr
  apply setFlag_keeps
  with_reducible assumption

theorem sendHop_keeps {s : State} {p : Nat} {body : Pkt} (k0 : Keeps d s0 s) : Keeps d s0 (sendHop s p body) := by
  unfold sendHop
  apply queueOut_keeps
  with_reducible assumption

theorem switchReported_keeps {s : State} {x1 : Nat} (k0 : Keeps d s0 s) : Keeps d s0 (switchReported s x1) := by
  unfold switchReported
  with_reducible apply Keeps.fields
  split
  with_reducible assumption
  apply Keeps.ite
  intro _
  with_reducible assumption
  intro _
  apply Keeps.ite
  intro _
  apply completeSwitch_keeps
  with_reducible apply Keeps.fields
  split
  apply Keeps.ite
  intro _
  apply setJob_keeps
  with_reducible apply Keeps.fields
  with_reducible assumption
  intro _
  with_reducible apply Keeps.fields
  with_reducible assumption
  with_reducible apply Keeps.fields
  with_reducible assumption
  intro _
  with_reducible apply Keeps.fields
  split
  apply Keeps.ite
  intro _
  apply setJob_keeps
  with_reducible apply Keeps.fields
  with_reducible assumption
  intro _
  with_reducible apply Keeps.fields
  with_reducible assumption
  with_reducible apply Keeps.fields
  with_reducible assumption

theorem execSwitchDoneReport_keeps {dev : Nat} {s : State} (k1 : Keeps d s0 s) : KeepsO d s0 (execSwitchDoneReport dev s) := by
  unfold execSwitchDoneReport
  apply KeepsO.next
  apply switchReported_keeps
  with_reducible assumption

theorem hopDrop_keeps {s : State} {k : Packet} (k0 : Keeps d s0 s) : Keeps d s0 (hopDrop s k) := by
  unfold hopDrop
  apply Keeps.ite
  intro _
  apply errorTo_keeps
  apply nlErr_keeps
  apply countReg_keeps
  with_reducible assumption
  intro _
  apply nlErr_keeps
  apply countReg_keeps
  with_reducible assumption

theorem serveReq_keeps {s : State} {k : Packet} {tag : Nat} {off : Nat} {n : Nat} (k0 : Keeps d s0 s) : Keeps d s0 (serveReq s k tag off n) := by
  unfold serveReq
  with_reducible apply Keeps.fields
  split
  apply sendPkt_keeps
  with_reducible assumption
  apply sendPkt_keeps
  apply physWr_keeps
  with_reducible assumption
  apply sendPkt_keeps
  apply physWr_keeps
  with_reducible assumption
  with_reducible assumption

theorem execDrainMarker_keeps {src : Nat} {vc : Nat} {s : State} (k2 : Keeps d s0 s) : KeepsO d s0 (execDrainMarker src vc s) := by
  unfold execDrainMarker
  apply KeepsO.next
  apply Keeps.ite
  intro _
  apply sendMgmt_keeps
  with_reducible assumption
  intro _
  with_reducible assumption

theorem execHeartbeat_keeps {port : Nat} {s : State} (k1 : Keeps d s0 s) : KeepsO d s0 (execHeartbeat port s) := by
  unfold execHeartbeat
  apply KeepsO.next
  apply Keeps.ite
  intro _
  apply sendHop_keeps
  apply setPort_keeps
  with_reducible assumption
  intro _
  with_reducible assumption

theorem execPacketForward_keeps {port : Nat} {s : State} (k1 : Keeps d s0 s) : KeepsO d s0 (execPacketForward port s) := by
  unfold execPacketForward
  apply KeepsO.next
  with_reducible apply Keeps.fields
  split
  with_reducible assumption
  apply Keeps.ite
  intro _
  apply hopDrop_keeps
  with_reducible apply Keeps.fields
  with_reducible assumption
  intro _
  with_reducible apply Keeps.fields
  split
  apply Keeps.ite
  intro _
  apply queueOut_keeps
  with_reducible apply Keeps.fields
  with_reducible assumption
  intro _
  apply Keeps.ite
  intro _
  apply errorTo_keeps
  with_reducible apply Keeps.fields
  with_reducible assumption
  intro _
  with_reducible apply Keeps.fields
  with_reducible assumption
  with_reducible apply Keeps.fields
  split
  apply Keeps.ite
  intro _
  apply queueOut_keeps
  with_reducible apply Keeps.fields
  with_reducible assumption
  intro _
  apply Keeps.ite
  intro _
  apply errorTo_keeps
  with_reducible apply Keeps.fields
  with_reducible assumption
  intro _
  with_reducible apply Keeps.fields
  with_reducible assumption
  apply Keeps.ite
  intro _
  apply errorTo_keeps
  with_reducible apply Keeps.fields
  with_reducible assumption
  intro _
  with_reducible apply Keeps.fields
  with_reducible assumption

theorem sendEnum_keeps {s : State} {ports : List Nat} (k0 : Keeps d s0 s) : Keeps d s0 (sendEnum s ports) := by
  unfold sendEnum
  apply Keeps.foldl
  with_reducible assumption
  intro _ _ _
  apply sendHop_keeps
  with_reducible assumption

theorem gotProbe_keeps {s : State} {port : Nat} {cand : Nat} (k0 : Keeps d s0 s) : Keeps d s0 (gotProbe s port cand) := by
  unfold gotProbe
  refine Keeps.ite (fun _ => k0) (fun _ => ?_)
  have k1 : Keeps d s0 (if s.nl.probed.contains cand then s else
      ((upPorts s).filter (· != port)).foldl (fun s p => sendHop s p (.probe cand)) { s with nl := { s.nl with probed := cand :: s.nl.probed } }) :=
    Keeps.ite (fun _ => k0) (fun _ => Keeps.foldl k0.fields (fun x p hx => sendHop_keeps hx))
  dsimp only
  generalize (if s.nl.probed.contains cand then s else _ : State) = u at k1 ⊢
  refine Keeps.ite (fun _ => ?_) (fun _ => k1)
  have k2 : Keeps d s0 { u with nl := { u.nl with answeredCand := some cand } } := k1.fields
  generalize ({ u with nl := _ } : State) = v at k2 ⊢
  split
  · exact sendPkt_keeps k2
  · exact queueOut_keeps k2

theorem gotEnum_keeps {s : State} {port : Nat} {seq : Nat} {rejoin : Bool} {dev : Nat} {peerPort : Nat} (k0 : Keeps d s0 s) : Keeps d s0 (gotEnum s port seq rejoin dev peerPort) := by
  unfold gotEnum
  apply Keeps.ite
  intro _
  with_reducible assumption
  intro _
  apply sendHop_keeps
  with_reducible apply Keeps.fields
  with_reducible assumption

theorem execEnum_keeps {port : Nat} {seq : Nat} {rejoin : Bool} {dev : Nat} {peerPort : Nat} {s : State} (k5 : Keeps d s0 s) : KeepsO d s0 (execEnum port seq rejoin dev peerPort s) := by
  unfold execEnum
  apply KeepsO.next
  apply gotEnum_keeps
  with_reducible assumption

theorem writeRec_keeps {s : State} {r : FaultRec} (k0 : Keeps d s0 s) : Keeps d s0 (writeRec s r) := by
  unfold writeRec
  apply Keeps.ite
  intro _
  apply setFlag_keeps
  apply setFlag_keeps
  apply setCtx_keeps
  apply physWr_keeps
  with_reducible assumption
  intro _
  apply setCtx_keeps
  apply physWr_keeps
  with_reducible assumption

theorem execTranslationCompletion_keeps {stream : Nat} {pasid : Nat} {page : Nat} {ok : Bool} {hpa : Nat} {log2 : Nat} {r : Bool} {w : Bool} {n : Bool} {u : Bool} {s : State} (k10 : Keeps d s0 s) : KeepsO d s0 (execTranslationCompletion stream pasid page ok hpa log2 r w n u s) := by
  unfold execTranslationCompletion
  apply KeepsO.next
  with_reducible apply Keeps.fields
  split
  with_reducible assumption
  apply Keeps.ite
  intro _
  with_reducible assumption
  intro _
  apply Keeps.ite
  intro _
  apply failMiss_keeps
  apply setFlag_keeps
  with_reducible assumption
  intro _
  apply Keeps.ite
  intro _
  apply serveMiss_keeps
  with_reducible assumption
  intro _
  apply Keeps.ite
  intro _
  apply failMiss_keeps
  with_reducible assumption
  intro _
  apply Keeps.ite
  intro _
  apply failMiss_keeps
  with_reducible assumption
  intro _
  apply updMiss_keeps
  with_reducible assumption

theorem execFaultRecordWrite_keeps {ctx : Nat} {s : State} (k1 : Keeps d s0 s) : KeepsO d s0 (execFaultRecordWrite ctx s) := by
  unfold execFaultRecordWrite
  apply KeepsO.next
  with_reducible apply Keeps.fields
  split
  with_reducible assumption
  apply Keeps.ite
  intro _
  apply setCtx_keeps
  with_reducible apply Keeps.fields
  with_reducible apply Keeps.fields
  with_reducible assumption
  intro _
  apply releaseFail_keeps
  apply writeRec_keeps
  with_reducible apply Keeps.fields
  with_reducible assumption

theorem releaseParked_keeps {s : State} {c : Nat} {a : Nat} (k0 : Keeps d s0 s) : Keeps d s0 (releaseParked s c a) := by
  induction a generalizing s with
  | zero =>
    unfold releaseParked
    with_reducible assumption
  | succ n ih =>
    unfold releaseParked
    apply Keeps.ite
    intro _
    with_reducible assumption
    intro _
    with_reducible apply Keeps.fields
    split
    with_reducible assumption
    apply ih
    apply releaseFail_keeps
    apply writeRec_keeps
    with_reducible apply Keeps.fields
    with_reducible assumption

theorem putDir_keeps {s : State} {k : Nat} {e : Dir} (k0 : Keeps d s0 s) : Keeps d s0 (putDir s k e) := by
  unfold putDir
  apply Keeps.ite
  intro _
  apply freeHeld_keeps
  with_reducible apply Keeps.fields
  with_reducible assumption
  intro _
  with_reducible apply Keeps.fields
  with_reducible assumption

theorem maintDone_keeps {s : State} {m : Maint} {c : Cover} {skipped : Nat} (k0 : Keeps d s0 s) : Keeps d s0 (maintDone s m c skipped) := by
  unfold maintDone
  apply Keeps.ite
  intro _
  with_reducible assumption
  intro _
  apply Keeps.ite
  intro _
  apply recordEv_keeps
  apply Keeps.ite
  intro _
  apply setFlag_keeps
  apply setFld_keeps
  apply setFlag_keeps
  with_reducible apply Keeps.fields
  apply maintain_keeps
  apply Keeps.ite
  intro _
  with_reducible assumption
  intro _
  with_reducible apply Keeps.fields
  with_reducible assumption
  intro _
  apply setFld_keeps
  apply setFlag_keeps
  with_reducible apply Keeps.fields
  apply maintain_keeps
  apply Keeps.ite
  intro _
  with_reducible assumption
  intro _
  with_reducible apply Keeps.fields
  with_reducible assumption
  intro _
  apply Keeps.ite
  intro _
  apply setFlag_keeps
  apply setFld_keeps
  apply setFlag_keeps
  with_reducible apply Keeps.fields
  apply maintain_keeps
  apply Keeps.ite
  intro _
  with_reducible assumption
  intro _
  with_reducible apply Keeps.fields
  with_reducible assumption
  intro _
  apply setFld_keeps
  apply setFlag_keeps
  with_reducible apply Keeps.fields
  apply maintain_keeps
  apply Keeps.ite
  intro _
  with_reducible assumption
  intro _
  with_reducible apply Keeps.fields
  with_reducible assumption

theorem execInvalidationAcknowledge_keeps {addr : Nat} {host : Bool} {train : Nat} {crossed : Bool} {s : State} (k4 : Keeps d s0 s) : KeepsO d s0 (execInvalidationAcknowledge addr host train crossed s) := by
  unfold execInvalidationAcknowledge
  apply KeepsO.next
  with_reducible apply Keeps.fields
  split
  with_reducible assumption
  apply Keeps.ite
  intro _
  with_reducible assumption
  intro _
  apply Keeps.ite
  intro _
  apply putDir_keeps
  with_reducible assumption
  intro _
  apply putDir_keeps
  with_reducible assumption

theorem finishHc_keeps {s : State} (k0 : Keeps d s0 s) : Keeps d s0 (finishHc s) := by
  unfold finishHc
  apply Keeps.ite
  intro _
  apply setFlag_keeps
  apply setFlag_keeps
  apply setFlag_keeps
  with_reducible assumption
  intro _
  with_reducible assumption

theorem maintGo_keeps {s : State} {op : Nat} (k0 : Keeps d s0 s) : Keeps d s0 (maintGo s op) := by
  unfold maintGo
  apply Keeps.ite
  intro _
  apply setFlag_keeps
  with_reducible assumption
  intro _
  apply Keeps.ite
  intro _
  apply setFlag_keeps
  with_reducible assumption
  intro _
  apply setFld_keeps
  with_reducible apply Keeps.fields
  with_reducible assumption

theorem clearConfig_keeps {s : State} (k0 : Keeps d s0 s) : Keeps d s0 (clearConfig s) := by
  unfold clearConfig
  apply releaseReady_keeps
  apply setFn_keeps
  apply clearHlRegs_keeps
  with_reducible apply Keeps.fields
  with_reducible assumption

theorem cacheOff_keeps {s : State} (k0 : Keeps d s0 s) : Keeps d s0 (cacheOff s) := by
  unfold cacheOff
  apply finishHc_keeps
  apply maintain_keeps
  with_reducible assumption

theorem execConfigurationWrite_keeps {field : Nat} {val : Nat} {s : State} (k2 : Keeps d s0 s) :
    KeepsO d s0 (execConfigurationWrite field val s) := by
  unfold execConfigurationWrite
  refine KeepsO.next ?_
  dsimp only
  repeat' first
    | exact k2
    | exact k2.fields
    | exact (cacheOff_keeps k2).fields
    | (refine Keeps.ite ?_ ?_ <;> intro _)

theorem execBackInvalidationResponse_keeps {line : Nat} {s : State} (k1 : Keeps d s0 s) : KeepsO d s0 (execBackInvalidationResponse line s) := by
  unfold execBackInvalidationResponse
  apply KeepsO.next
  apply Keeps.ite
  intro _
  apply snoopEnded_keeps
  with_reducible assumption
  intro _
  with_reducible assumption

theorem hlErr_keeps {s : State} {b : Nat} (k0 : Keeps d s0 s) : Keeps d s0 (hlErr s b) := by
  unfold hlErr
  apply setFlag_keeps
  with_reducible assumption

theorem endSnoops_keeps {s : State} (k0 : Keeps d s0 s) : Keeps d s0 (endSnoops s) := by
  unfold endSnoops
  apply Keeps.foldl
  with_reducible apply Keeps.fields
  with_reducible assumption
  intro _ _ _
  apply devWr_keeps
  with_reducible assumption

theorem endHostWork_keeps {s : State} (k0 : Keeps d s0 s) : Keeps d s0 (endHostWork s) := by
  unfold endHostWork
  apply setFld_keeps
  apply endSnoops_keeps
  apply finishHc_keeps
  with_reducible apply Keeps.fields
  apply Keeps.foldl
  with_reducible assumption
  intro _ _ _
  apply failMiss_keeps
  with_reducible assumption

theorem genRateWrite_keeps {s : State} {k : Nat} {off : Nat} {val : Word} (k0 : Keeps d s0 s) : Keeps d s0 (genRateWrite s k off val) := by
  unfold genRateWrite
  apply Keeps.ite
  intro _
  apply setFlag_keeps
  with_reducible assumption
  intro _
  apply Keeps.ite
  intro _
  apply aimGen_keeps
  apply putReg_keeps
  with_reducible assumption
  intro _
  apply putReg_keeps
  with_reducible assumption

theorem releaseRows_keeps {s : State} {p : RPass} (k0 : Keeps d s0 s) : Keeps d s0 (releaseRows s p) := by
  unfold releaseRows
  apply Keeps.foldl
  with_reducible assumption
  intro _ _ _
  apply recordOwn_keeps
  with_reducible assumption

theorem releaseRow_keeps {s : State} {id : Nat} {p : RPass} {k : Nat} {r : Nat} (k0 : Keeps d s0 s) : Keeps d s0 (releaseRow s id p k r) := by
  unfold releaseRow
  apply recordOwn_keeps
  apply setPass_keeps
  with_reducible assumption

theorem releaseSeg_keeps {s : State} {id : Nat} {p : RPass} {next : RPhase} (k0 : Keeps d s0 s) : Keeps d s0 (releaseSeg s id p next) := by
  unfold releaseSeg
  apply setPass_keeps
  apply recordOwn_keeps
  with_reducible assumption

theorem crDestroy_keeps {s : State} {c : Nat} (k0 : Keeps d s0 s) : Keeps d s0 (crDestroy s c) := by
  unfold crDestroy
  apply Keeps.foldl
  apply Keeps.foldl
  with_reducible assumption
  intro _ _ _
  apply Keeps.ite
  intro _
  apply setSlot_keeps
  with_reducible assumption
  intro _
  with_reducible assumption
  intro _ _ _
  apply Keeps.ite
  intro _
  apply setFlag_keeps
  with_reducible assumption
  intro _
  with_reducible assumption

theorem crRelease_keeps {s : State} {c : Nat} (k0 : Keeps d s0 s) : Keeps d s0 (crRelease s c) := by
  unfold crRelease
  apply Keeps.foldl
  with_reducible assumption
  intro _ _ _
  apply Keeps.ite
  intro _
  apply setFlag_keeps
  with_reducible assumption
  intro _
  with_reducible assumption

theorem execDestroyPartitionZeroed_keeps {ctx : Nat} {s : State} (k1 : Keeps d s0 s) : KeepsO d s0 (execDestroyPartitionZeroed ctx s) := by
  unfold execDestroyPartitionZeroed
  apply KeepsO.next
  apply Keeps.ite
  intro _
  with_reducible assumption
  intro _
  apply freeCtx_keeps
  apply destroyAt_keeps
  with_reducible assumption

theorem releaseShares_keeps {s : State} {c : Nat} (k0 : Keeps d s0 s) : Keeps d s0 (releaseShares s c) := by
  unfold releaseShares
  apply crDestroy_keeps
  apply setCtx_keeps
  with_reducible apply Keeps.fields
  apply foldBanks_keeps
  apply freeAllEvs_keeps
  with_reducible apply Keeps.fields
  apply Keeps.foldl
  with_reducible assumption
  intro _ _ _
  apply unloadModel_keeps
  with_reducible assumption

theorem tileOut_keeps {s : State} {o : GwOp} {p : RPass} {m : Nat} {n0 : Nat} {es : List Nat} (k0 : Keeps d s0 s) : Keeps d s0 (tileOut s o p m n0 es) := by
  unfold tileOut
  apply Keeps.foldl
  with_reducible assumption
  intro _ _ _
  apply tileWr_keeps
  with_reducible assumption

theorem writeRow_keeps {s : State} {o : GwOp} {m : PageMap} {va : Nat} {x4 : List Byte} (k0 : Keeps d s0 s) : Keeps d s0 (writeRow s o m va x4) := by
  unfold writeRow
  apply Keeps.ite
  intro _
  apply vaWr_keeps
  with_reducible assumption
  intro _
  apply Keeps.foldl
  with_reducible assumption
  intro _ _ _
  apply Keeps.ite
  intro _
  with_reducible assumption
  intro _
  apply vaWr_keeps
  with_reducible assumption

theorem spoilTiles_keeps {s : State} {o : GwOp} {p : RPass} (k0 : Keeps d s0 s) : Keeps d s0 (spoilTiles s o p) := by
  unfold spoilTiles
  apply Keeps.foldl
  with_reducible assumption
  intro _ _ _
  apply Keeps.foldl
  with_reducible assumption
  intro _ _ _
  apply tileOut_keeps
  with_reducible apply Keeps.fields
  with_reducible assumption

theorem gwFault_keeps {s : State} {id : Nat} {fault : Nat} {group : Nat} (k0 : Keeps d s0 s) : Keeps d s0 (gwFault s id fault group) := by
  unfold gwFault
  apply Keeps.ite
  intro _
  apply countReg_keeps
  with_reducible assumption
  intro _
  apply Keeps.ite
  intro _
  with_reducible apply Keeps.fields
  split
  with_reducible assumption
  apply Keeps.ite
  intro _
  with_reducible assumption
  intro _
  apply setGwOp_keeps
  with_reducible apply Keeps.fields
  apply setFlag_keeps
  with_reducible assumption
  intro _
  with_reducible assumption

theorem retireGroup_keeps {s : State} {p : Nat} (k0 : Keeps d s0 s) : Keeps d s0 (retireGroup s p) := by
  unfold retireGroup
  apply retainedDirty_keeps
  apply setFld_keeps
  apply setFlag_keeps
  with_reducible assumption

theorem execSpareTestFailure_keeps {phys : Nat} {s : State} (k1 : Keeps d s0 s) : KeepsO d s0 (execSpareTestFailure phys s) := by
  unfold execSpareTestFailure
  apply KeepsO.next
  apply Keeps.ite
  intro _
  apply setFlag_keeps
  apply syncSpares_keeps
  apply retireGroup_keeps
  with_reducible assumption
  intro _
  with_reducible assumption

theorem forgetGw_keeps {s : State} (k0 : Keeps d s0 s) : Keeps d s0 (forgetGw s) := by
  unfold forgetGw
  apply Keeps.ite
  intro _
  apply retainedDirty_keeps
  with_reducible apply Keeps.fields
  apply setFld_keeps
  with_reducible assumption
  intro _
  apply setFlag_keeps
  with_reducible assumption

theorem execPatternTest_keeps {pass : Bool} {s : State} (k1 : Keeps d s0 s) : KeepsO d s0 (execPatternTest pass s) := by
  unfold execPatternTest
  apply KeepsO.next
  apply Keeps.ite
  intro _
  with_reducible assumption
  intro _
  apply Keeps.ite
  intro _
  with_reducible apply Keeps.fields
  apply markDone_keeps
  apply testWaves_keeps
  with_reducible assumption
  intro _
  apply setFlag_keeps
  with_reducible apply Keeps.fields
  with_reducible apply Keeps.fields
  apply markDone_keeps
  apply testWaves_keeps
  with_reducible assumption

theorem drainFn_keeps {s : State} {n : Nat} (k0 : Keeps d s0 s) : Keeps d s0 (drainFn s n) := by
  unfold drainFn
  apply Keeps.ite
  intro _
  with_reducible assumption
  intro _
  apply Keeps.ite
  intro _
  apply setFn_keeps
  apply clearFn_keeps
  apply Keeps.ite
  intro _
  apply setFn_keeps
  with_reducible assumption
  intro _
  with_reducible assumption
  intro _
  apply Keeps.ite
  intro _
  apply setFn_keeps
  with_reducible assumption
  intro _
  with_reducible assumption

theorem clearDevice_keeps {s : State} {src : Nat} (k0 : Keeps d s0 s) : Keeps d s0 (clearDevice s src) := by
  have k1 : Keeps d s0 (loseNvm s) := loseNvm_keeps k0
  unfold clearDevice
  generalize loseNvm s = u at k1
  dsimp only
  have kt : ∀ t : State, t.fuse = u.fuse → t.pending = u.pending →
      t.mem = (if (src == 1 || src == 6) then { u.mem with dev := [], poison := [] } else u.mem) →
      t.ch = (if src = 1 then { perm := u.ch.perm.take u.ch.durable, durable := u.ch.durable }
        else { circ := u.ch.circ, nextSeq := u.ch.nextSeq, perm := u.ch.perm, durable := u.ch.durable, erasing := u.ch.erasing, eraseMask := u.ch.eraseMask }) →
      Keeps d s0 t := by
    intro t hf hp hm hc
    refine k1.upd hf hp (fun h => ?_) (fun c => ?_)
    · rw [hm]; split
      · exact ⟨rfl, h.2.1, h.2.2.1, List.Pairwise.nil⟩
      · exact h
    · rw [hc]; split
      · refine ⟨⟨?_, Nat.zero_le _, Nat.zero_le _, ?_, fun e => nomatch e⟩, fun _ => ⟨Nat.le_refl _, ?_⟩⟩
        · have := c.1; simp only [List.length_take]; omega
        · have := c.2.2.2.1; simp only [List.length_take]; omega
        · simp [List.take_take]
      · exact ⟨⟨c.1, c.2.1, Nat.zero_le _, c.2.2.2.1, c.2.2.2.2⟩, fun _ => ⟨Nat.le_refl _, rfl⟩⟩
  refine driveAlarm_keeps ?_
  refine Keeps.ite (fun _ => setFlag_keeps (setFld_keeps (putReg_keeps ?_))) (fun _ => putReg_keeps ?_) <;>
    refine Keeps.ite (fun _ => setFlag_keeps (setFld_keeps (putReg_keeps ?_))) (fun _ => putReg_keeps ?_) <;>
    exact kt _ rfl rfl rfl rfl

theorem execFunctionDrainEnd_keeps {fn : Nat} {s : State} (k1 : Keeps d s0 s) : KeepsO d s0 (execFunctionDrainEnd fn s) := by
  unfold execFunctionDrainEnd
  apply KeepsO.next
  apply drainFn_keeps
  with_reducible assumption

theorem execNpwrOkAssert_keeps {s : State} (k0 : Keeps d s0 s) : KeepsO d s0 (execNpwrOkAssert s) := by
  unfold execNpwrOkAssert
  apply KeepsO.next
  apply startUp_keeps
  apply setFlag_keeps
  with_reducible assumption

theorem clearFlr_keeps {s : State} (k0 : Keeps d s0 s) : Keeps d s0 (clearFlr s) := by
  unfold clearFlr
  apply driveAlarm_keeps
  apply syncPlate_keeps
  apply putReg_keeps
  with_reducible apply Keeps.fields
  apply setFld_keeps
  apply putReg_keeps
  with_reducible apply Keeps.fields
  apply Keeps.foldl
  apply zeroReserved_keeps
  with_reducible apply Keeps.fields
  apply maintain_keeps
  with_reducible assumption
  intro _ _ _
  apply clearFn_keeps
  with_reducible assumption

theorem execNresetRelease_keeps {s : State} (k0 : Keeps d s0 s) : KeepsO d s0 (execNresetRelease s) := by
  unfold execNresetRelease
  apply KeepsO.next
  apply startUp_keeps
  apply setFlag_keeps
  with_reducible assumption

theorem restoreSettings_keeps {s : State} (k0 : Keeps d s0 s) : Keeps d s0 (restoreSettings s) := by
  unfold restoreSettings
  apply setFlag_keeps
  with_reducible apply Keeps.fields
  apply Keeps.foldl
  with_reducible assumption
  intro _ _ _
  apply putReg_keeps
  with_reducible assumption

theorem execNvmWriteComplete_keeps {s : State} (k0 : Keeps d s0 s) : KeepsO d s0 (execNvmWriteComplete s) := by
  unfold execNvmWriteComplete
  refine KeepsO.next ?_
  split
  · exact k0
  · refine setFlag_keeps (setFlag_keeps (k0.updMem rfl rfl rfl (fun h => ⟨h.1, h.2.1, ?_, h.2.2.2⟩)))
    dsimp only
    split
    · exact tWf_filter _ h.2.2.1
    · exact tWf_memWr h.2.2.1 _ _

theorem nvmStart_keeps {s : State} {op : Bool × Nat × List Byte} (k0 : Keeps d s0 s) : Keeps d s0 (nvmStart s op) := by
  unfold nvmStart
  apply Keeps.ite
  intro _
  apply setFlag_keeps
  with_reducible assumption
  intro _
  apply setFlag_keeps
  with_reducible apply Keeps.fields
  with_reducible assumption

theorem checkBackup_keeps {s : State} (k0 : Keeps d s0 s) : Keeps d s0 (checkBackup s) := by
  unfold checkBackup
  apply Keeps.ite
  intro _
  apply setFlag_keeps
  apply putReg_keeps
  with_reducible apply Keeps.fields
  with_reducible apply Keeps.fields
  with_reducible assumption
  intro _
  apply Keeps.ite
  intro _
  apply countSource_keeps
  with_reducible apply Keeps.fields
  with_reducible assumption
  intro _
  with_reducible assumption

theorem loadOptions_keeps {s : State} (k0 : Keeps d s0 s) : Keeps d s0 (loadOptions s) := by
  unfold loadOptions
  with_reducible apply Keeps.fields
  apply setFlag_keeps
  apply setFlag_keeps
  apply Keeps.foldl
  with_reducible assumption
  intro _ _ _
  apply putReg_keeps
  with_reducible assumption

theorem applyRecords_keeps {s : State} {n : Nat} (k0 : Keeps d s0 s) : Keeps d s0 (applyRecords s n) := by
  unfold applyRecords
  apply Keeps.ite
  intro _
  with_reducible assumption
  intro _
  apply Keeps.ite
  intro _
  apply Keeps.foldl
  with_reducible assumption
  intro _ _ _
  apply putReg_keeps
  with_reducible assumption
  intro _
  apply Keeps.ite
  intro _
  apply setFld_keeps
  with_reducible apply Keeps.fields
  with_reducible assumption
  intro _
  apply Keeps.ite
  intro _
  apply syncPlate_keeps
  with_reducible apply Keeps.fields
  with_reducible assumption
  intro _
  apply Keeps.ite
  intro _
  apply layGroups_keeps
  with_reducible assumption
  intro _
  apply Keeps.ite
  intro _
  apply syncPinions_keeps
  with_reducible apply Keeps.fields
  apply Keeps.foldl
  with_reducible assumption
  intro _ _ _
  apply setFlag_keeps
  with_reducible assumption
  intro _
  apply Keeps.ite
  intro _
  with_reducible apply Keeps.fields
  with_reducible assumption
  intro _
  with_reducible assumption

theorem takeRetained_keeps {s : State} (k0 : Keeps d s0 s) : Keeps d s0 (takeRetained s) := by
  unfold takeRetained
  with_reducible apply Keeps.fields
  split
  apply retainedDirty_keeps
  apply setFlag_keeps
  with_reducible assumption
  apply Keeps.ite
  intro _
  with_reducible apply Keeps.fields
  with_reducible assumption
  intro _
  apply restoreSettings_keeps
  with_reducible apply Keeps.fields
  with_reducible assumption

theorem forgetUnit_keeps {s : State} {u : Nat} (k0 : Keeps d s0 s) : Keeps d s0 (forgetUnit s u) := by
  unfold forgetUnit
  apply Keeps.ite
  intro _
  apply forgetGw_keeps
  with_reducible assumption
  intro _
  apply Keeps.ite
  intro _
  with_reducible assumption
  intro _
  apply retainedDirty_keeps
  with_reducible apply Keeps.fields
  with_reducible assumption

theorem completeRows_keeps {s : State} {p : Nat} {i : Ingest} {a : Nat} (k0 : Keeps d s0 s) : Keeps d s0 (completeRows s p i a).1 := by
  induction a generalizing s i with
  | zero =>
    unfold completeRows
    with_reducible assumption
  | succ n ih =>
    unfold completeRows
    with_reducible apply Keeps.fields
    split
    apply ih
    apply recordOwn_keeps
    with_reducible assumption
    with_reducible assumption

theorem completeRows_eq {s : State} {p : Nat} {i : Ingest} {a : Nat} {y} {t : State} (e : completeRows s p i a = (t, y)) (k0 : Keeps d s0 s) : Keeps d s0 t := by
  have h : Keeps d s0 (completeRows s p i a).1 := completeRows_keeps k0
  rw [e] at h
  exact h

theorem execPowerMeasure_keeps {core : Nat} {sram : Nat} {eighths : Nat} {s : State} (k3 : Keeps d s0 s) : KeepsO d s0 (execPowerMeasure core sram eighths s) := by
  unfold execPowerMeasure
  apply KeepsO.next
  apply Keeps.ite
  intro _
  with_reducible assumption
  intro _
  apply setFlag_keeps
  apply setFld_keeps
  apply setFld_keeps
  apply setFld_keeps
  apply markDone_keeps
  with_reducible apply Keeps.fields
  with_reducible assumption

theorem execTripEnd_keeps {s : State} (k0 : Keeps d s0 s) : KeepsO d s0 (execTripEnd s) := by
  unfold execTripEnd
  apply KeepsO.next
  apply Keeps.ite
  intro _
  apply startUp_keeps
  with_reducible apply Keeps.fields
  apply setFlag_keeps
  apply setFld_keeps
  with_reducible assumption
  intro _
  with_reducible assumption

theorem execNvmWpChange_keeps {level : Bool} {s : State} (k1 : Keeps d s0 s) : KeepsO d s0 (execNvmWpChange level s) := by
  unfold execNvmWpChange
  apply KeepsO.next
  apply setFlag_keeps
  with_reducible assumption

theorem showPace_keeps {s : State} (k0 : Keeps d s0 s) : Keeps d s0 (showPace s) := by
  unfold showPace
  apply setFlag_keeps
  apply setFlag_keeps
  apply setFld_keeps
  with_reducible assumption

theorem execNwake_keeps {level : Bool} {s : State} (k1 : Keeps d s0 s) : KeepsO d s0 (execNwake level s) := by
  unfold execNwake
  apply KeepsO.next
  apply Keeps.ite
  intro _
  apply setFlag_keeps
  with_reducible assumption
  intro _
  with_reducible apply Keeps.fields
  apply setFlag_keeps
  apply setFlag_keeps
  with_reducible assumption

theorem jumpTo_keeps {s : State} {h : Here} {b : Beat} {pc : Int} (k0 : Keeps d s0 s) : Keeps d s0 (jumpTo s h b pc) := by
  unfold jumpTo
  apply Keeps.ite
  intro _
  apply retireTo_keeps
  with_reducible assumption
  intro _
  apply endWgErr_keeps
  with_reducible assumption

theorem hostRead_keeps {s : State} {off : Nat} (k0 : Keeps d s0 s) : Keeps d s0 (hostRead s off) := by
  unfold hostRead
  apply Keeps.ite
  intro _
  with_reducible assumption
  intro _
  with_reducible apply Keeps.fields
  split
  apply Keeps.ite
  intro _
  apply hostData_keeps
  with_reducible assumption
  intro _
  apply hostData_keeps
  apply readEffects_keeps
  with_reducible assumption
  apply hostData_keeps
  apply markFault_keeps
  with_reducible assumption

theorem maintWrite_keeps {s : State} {val : Word} (k0 : Keeps d s0 s) : Keeps d s0 (maintWrite s val) := by
  unfold maintWrite
  apply Keeps.ite
  intro _
  apply maintGo_keeps
  apply plainWrite_keeps
  with_reducible assumption
  intro _
  apply plainWrite_keeps
  with_reducible assumption

theorem resolveInto_keeps {s : State} {g : Eng} {b : List Byte} (k0 : Keeps d s0 s) : Keeps d s0 (resolveInto s g b) := by
  unfold resolveInto
  apply Keeps.foldl
  with_reducible assumption
  intro _ _ _
  apply Keeps.foldl
  with_reducible assumption
  intro _ _ _
  apply Keeps.foldl
  with_reducible assumption
  intro _ _ _
  apply tileWr_keeps
  with_reducible assumption

theorem putRuns_keeps {s : State} {g : Eng} {k : Nat} {zero : Bool} {runs : List (Nat × Nat × Nat)} {bs : List (List Byte)} (k0 : Keeps d s0 s) : Keeps d s0 (putRuns s g k zero runs bs) := by
  unfold putRuns
  apply Keeps.foldl
  apply Keeps.ite
  intro _
  apply tileWr_keeps
  with_reducible assumption
  intro _
  with_reducible assumption
  intro _ _ _
  apply tileWr_keeps
  with_reducible assumption

theorem testHere_keeps {s : State} {g : Eng} {q : PInfo} {x : Nat} {x4 : Nat} {j : Nat} {new : Nat} (k0 : Keeps d s0 s) : Keeps d s0 (testHere s g q x x4 j new).1 := by
  unfold testHere
  with_reducible apply Keeps.fields
  split
  with_reducible assumption
  apply Keeps.ite
  intro _
  apply Keeps.ite
  intro _
  with_reducible assumption
  intro _
  apply tileWr_keeps
  with_reducible assumption
  intro _
  apply tileWr_keeps
  apply Keeps.ite
  intro _
  with_reducible assumption
  intro _
  apply tileWr_keeps
  with_reducible assumption

theorem testHere_eq {s : State} {g : Eng} {q : PInfo} {x : Nat} {x4 : Nat} {j : Nat} {new : Nat} {y} {t : State} (e : testHere s g q x x4 j new = (t, y)) (k0 : Keeps d s0 s) : Keeps d s0 t := by
  have h : Keeps d s0 (testHere s g q x x4 j new).1 := testHere_keeps k0
  rw [e] at h
  exact h

theorem sendFrags_keeps {s : State} {g : Eng} {q : PInfo} {hdr : List Byte} {ws : List PixelWork} {rest : List Nat} (k0 : Keeps d s0 s) : Keeps d s0 (sendFrags s g q hdr ws rest) := by
  unfold sendFrags
  apply Eng.put_keeps
  apply onPass_keeps
  apply Keeps.foldl
  with_reducible assumption
  intro _ _ _
  apply addWg_keeps
  with_reducible assumption

theorem loaded_keeps {s : State} {g : Eng} {prims : List Nat} (k0 : Keeps d s0 s) : Keeps d s0 (loaded s g prims) := by
  unfold loaded
  apply Eng.put_keeps
  apply Keeps.ite
  intro _
  apply Keeps.ite
  intro _
  apply Keeps.foldl
  with_reducible assumption
  intro _ _ _
  apply checkTile_keeps
  with_reducible assumption
  intro _
  apply Keeps.foldl
  apply Keeps.foldl
  with_reducible assumption
  intro _ _ _
  apply checkTile_keeps
  with_reducible assumption
  intro _ _ _
  apply Keeps.foldl
  with_reducible assumption
  intro _ _ _
  apply tileWr_keeps
  with_reducible assumption
  intro _
  apply countReg_keeps
  apply Keeps.ite
  intro _
  apply Keeps.foldl
  with_reducible assumption
  intro _ _ _
  apply checkTile_keeps
  with_reducible assumption
  intro _
  apply Keeps.foldl
  apply Keeps.foldl
  with_reducible assumption
  intro _ _ _
  apply checkTile_keeps
  with_reducible assumption
  intro _ _ _
  apply Keeps.foldl
  with_reducible assumption
  intro _ _ _
  apply tileWr_keeps
  with_reducible assumption

theorem stageResolve_keeps {s : State} {g : Eng} (k0 : Keeps d s0 s) : Keeps d s0 (stageResolve s g) := by
  unfold stageResolve
  apply afterRaster_keeps
  apply Keeps.ite
  intro _
  apply Keeps.foldl
  with_reducible assumption
  intro _ _ _
  apply resolveInto_keeps
  with_reducible assumption
  intro _
  with_reducible assumption

theorem driveReady_keeps {s : State} (k0 : Keeps d s0 s) : Keeps d s0 (driveReady s) := by
  unfold driveReady
  apply Keeps.ite
  intro _
  apply setFlag_keeps
  with_reducible assumption
  intro _
  with_reducible assumption

theorem acceptRec_keeps {s : State} {r : Rec} (k0 : Keeps d s0 s) : Keeps d s0 (acceptRec s r) := by
  unfold acceptRec
  apply Keeps.ite
  intro _
  apply storeRec_keeps
  with_reducible assumption
  intro _
  apply Keeps.ite
  intro _
  apply storeRec_keeps
  with_reducible apply Keeps.chFields
  apply Keeps.ite
  intro _
  with_reducible assumption
  intro _
  apply storeRec_keeps
  with_reducible assumption
  intro _
  apply setFlag_keeps
  apply countReg_keeps
  with_reducible apply Keeps.chFields
  with_reducible assumption

theorem chrono_keeps {s : State} {code : Nat} {ctx : Option Nat} {fn arg0 arg1 : Nat} (k0 : Keeps d s0 s) :
    Keeps d s0 (chrono s code ctx fn arg0 arg1) := by
  unfold chrono
  dsimp only
  split
  · exact acceptRec_keeps k0
  · split
    · rename_i h
      refine k0.updCh rfl rfl rfl (fun c => ⟨⟨c.1, c.2.1, ?_, c.2.2.2.1, c.2.2.2.2⟩, fun _ => ⟨Nat.le_refl _, rfl⟩⟩)
      simp only [List.length_append, List.length_singleton]; omega
    · exact countReg_keeps k0.chFields

theorem raiseCause_keeps {s : State} {b : Nat} (k0 : Keeps d s0 s) : Keeps d s0 (raiseCause s b) := by
  unfold raiseCause
  apply driveAlarm_keeps
  apply chrono_keeps
  apply setFlag_keeps
  apply setFlag_keeps
  with_reducible assumption

theorem hostWr_keeps {s : State} {off : Nat} {f : State → State} (k0 : Keeps d s0 s)
    (k2 : ∀ a0, Keeps d s0 a0 → Keeps d s0 (f a0)) : Keeps d s0 (hostWr s off f) := by
  unfold hostWr
  repeat' first | exact k0 | exact markFault_keeps k0 | exact k2 _ k0 | split

theorem prepare_keeps {s : State} {w : Who} {accs : List Acc} (k0 : Keeps d s0 s) : Keeps d s0 (prepare s w accs).st := by
  unfold prepare
  dsimp only
  split
  · exact takeFault_keeps k0
  · split
    · refine Keeps.foldl k0 (fun x r hx => ?_)
      repeat' first | exact hx | exact openMiss_keeps hx | split
    · split
      · exact Keeps.fields (countReg_keeps k0)
      · refine Keeps.foldlFst (Keeps.foldlFst k0 (fun x a hx => ?_)) (fun x a hx => askSnoops_keeps hx)
        split
        · exact hx
        · refine Keeps.foldlFst hx (fun y p hy => ?_)
          repeat' first | exact hy | exact askRemote_keeps hy | split

theorem prepare_ok {s : State} {w : Who} {accs : List Acc} {m} {t : State} (e : prepare s w accs = .ok t m) (k0 : Keeps d s0 s) : Keeps d s0 t := by
  have h : Keeps d s0 (prepare s w accs).st := prepare_keeps k0
  rw [e] at h
  exact h

theorem prepare_wait {s : State} {w : Who} {accs : List Acc} {t : State} (e : prepare s w accs = .wait t) (k0 : Keeps d s0 s) : Keeps d s0 t := by
  have h : Keeps d s0 (prepare s w accs).st := prepare_keeps k0
  rw [e] at h
  exact h

theorem prepare_fault {s : State} {w : Who} {accs : List Acc} {c} {t : State} (e : prepare s w accs = .fault t c) (k0 : Keeps d s0 s) : Keeps d s0 t := by
  have h : Keeps d s0 (prepare s w accs).st := prepare_keeps k0
  rw [e] at h
  exact h

theorem dropConts_keeps {s : State} {ring : Nat} (k0 : Keeps d s0 s) : Keeps d s0 (dropConts s ring) := by
  unfold dropConts
  apply escErr_keeps
  with_reducible assumption

theorem completeRest_keeps {s : State} {id : Nat} {x2 : Desc} {recFault : Bool} (k0 : Keeps d s0 s) : Keeps d s0 (completeRest s id x2 recFault) := by
  unfold completeRest
  with_reducible apply Keeps.fields
  apply addWide_keeps
  apply Keeps.ite
  intro _
  apply Keeps.ite
  intro _
  apply setFlag_keeps
  apply Keeps.ite
  intro _
  apply recordEv_keeps
  apply countJob_keeps
  with_reducible assumption
  intro _
  apply countJob_keeps
  with_reducible assumption
  intro _
  apply Keeps.ite
  intro _
  apply recordEv_keeps
  apply countJob_keeps
  with_reducible assumption
  intro _
  apply countJob_keeps
  with_reducible assumption
  intro _
  apply Keeps.ite
  intro _
  with_reducible apply Keeps.fields
  apply Keeps.ite
  intro _
  apply setFlag_keeps
  apply Keeps.ite
  intro _
  apply recordEv_keeps
  apply countJob_keeps
  with_reducible assumption
  intro _
  apply countJob_keeps
  with_reducible assumption
  intro _
  apply Keeps.ite
  intro _
  apply recordEv_keeps
  apply countJob_keeps
  with_reducible assumption
  intro _
  apply countJob_keeps
  with_reducible assumption
  intro _
  apply dropConts_keeps
  apply Keeps.ite
  intro _
  apply setFlag_keeps
  apply Keeps.ite
  intro _
  apply recordEv_keeps
  apply countJob_keeps
  with_reducible assumption
  intro _
  apply countJob_keeps
  with_reducible assumption
  intro _
  apply Keeps.ite
  intro _
  apply recordEv_keeps
  apply countJob_keeps
  with_reducible assumption
  intro _
  apply countJob_keeps
  with_reducible assumption

theorem fenceFn_keeps {s : State} {n : Nat} {source : Nat} (k0 : Keeps d s0 s) : Keeps d s0 (fenceFn s n source) := by
  unfold fenceFn
  refine Keeps.ite (fun _ => ?_) (fun _ => k0)
  have k1 : Keeps d s0 { s with rg := { s.rg with fenceClock := s.rg.fenceClock + 1 } } := k0.fields
  have k2 := setFn_keeps (n := n) (f := { st := .fencing, ready := false, source := source, fencedAt := s.rg.fenceClock + 1 }) k1
  dsimp only
  generalize setFn _ n _ = u at k2 ⊢
  have k3 : Keeps d s0 (chrono (setFlag { u with er := { u.er with fnFences := u.er.fnFences + 1 } } Reg.ER_IRQ 0 true)
      Chr.FN_FENCE none n source (St.FN_FENCED n)) := chrono_keeps (setFlag_keeps k2.fields)
  generalize chrono _ _ _ _ _ _ = v at k3 ⊢
  exact Keeps.fields (Keeps.ite (fun _ => closeStreams_keeps k3) (fun _ => k3))

theorem execEvRecordLo_keeps {val : Word} {s : State} (k1 : Keeps d s0 s) : KeepsO d s0 (execEvRecordLo val s) := by
  unfold execEvRecordLo
  apply KeepsO.next
  apply hostWr_keeps
  with_reducible assumption
  intro _ _
  apply recordEv_keeps
  with_reducible assumption

theorem execEvAdvance_keeps {val : Word} {s : State} (k1 : Keeps d s0 s) : KeepsO d s0 (execEvAdvance val s) := by
  unfold execEvAdvance
  apply KeepsO.next
  apply hostWr_keeps
  with_reducible assumption
  intro _ _
  apply Keeps.ite
  intro _
  apply recordEv_keeps
  with_reducible assumption
  intro _
  with_reducible assumption

theorem execEvRecordHi_keeps {val : Word} {s : State} (k1 : Keeps d s0 s) : KeepsO d s0 (execEvRecordHi val s) := by
  unfold execEvRecordHi
  apply KeepsO.next
  apply hostWr_keeps
  with_reducible assumption
  intro _ _
  with_reducible apply Keeps.fields
  with_reducible assumption

theorem execAck_keeps {mb : Nat} {s : State} (k1 : Keeps d s0 s) : KeepsO d s0 (execAck mb s) := by
  unfold execAck
  apply KeepsO.next
  apply hostWr_keeps
  with_reducible assumption
  intro _ _
  apply Keeps.ite
  intro _
  with_reducible assumption
  intro _
  apply Keeps.ite
  intro _
  apply setMbox_keeps
  with_reducible assumption
  intro _
  apply setMbox_keeps
  with_reducible assumption

theorem endJob_keeps {s : State} {j : Nat} {status : Nat} (k0 : Keeps d s0 s) : Keeps d s0 (endJob s j status) := by
  unfold endJob
  apply Keeps.ite
  intro _
  apply recordDone_keeps
  apply setFlag_keeps
  apply setJob_keeps
  with_reducible assumption
  intro _
  apply setFlag_keeps
  apply setJob_keeps
  with_reducible assumption

theorem respond_keeps {s : State} {m : Nat} {status : Nat} {job : Nat} {result : List Nat} (k0 : Keeps d s0 s) : Keeps d s0 (respond s m status job result) := by
  unfold respond
  apply Keeps.ite
  intro _
  apply Keeps.ite
  intro _
  apply mcDone_keeps
  apply setMbox_keeps
  with_reducible assumption
  intro _
  apply sendPkt_keeps
  apply setMbox_keeps
  with_reducible assumption
  intro _
  apply Keeps.ite
  intro _
  apply recordDone_keeps
  apply setFlag_keeps
  apply setMbox_keeps
  with_reducible assumption
  intro _
  apply setFlag_keeps
  apply setMbox_keeps
  with_reducible assumption

theorem execRelease_keeps {job : Nat} {s : State} (k1 : Keeps d s0 s) : KeepsO d s0 (execRelease job s) := by
  unfold execRelease
  apply KeepsO.next
  apply hostWr_keeps
  with_reducible assumption
  intro _ _
  apply Keeps.ite
  intro _
  apply setJob_keeps
  with_reducible assumption
  intro _
  with_reducible assumption

theorem answer_keeps {s : State} {m : Nat} {status : Nat} {result : List Nat} (k0 : Keeps d s0 s) : Keeps d s0 (answer s m status result) := by
  unfold answer
  apply respond_keeps
  with_reducible assumption

end Sys2Proof.Machine
end

