-- ==== Sys2Proof/Laws/KeepsC.lean ====
section
/-! SUPPORT. Every operation of the part keeps the relation `Keeps` (operations in the order in which they use
one another): one lemma for each, used by the next. -/

namespace Sys2Proof.Machine

variable {d : Prop} {s0 : State}

theorem stepCal_keeps {s : State} {new : Nat} (k0 : Keeps d s0 s) : Keeps d s0 (stepCal s new) := by
  unfold stepCal
  apply Keeps.ite
  intro _
  apply chrono_keeps
  with_reducible apply Keeps.fields
  with_reducible assumption
  intro _
  with_reducible apply Keeps.fields
  with_reducible assumption

theorem execPeriodClose_keeps {s : State} (k0 : Keeps d s0 s) : KeepsO d s0 (execPeriodClose s) := by
  unfold execPeriodClose
  apply KeepsO.next
  apply Keeps.ite
  intro _
  with_reducible assumption
  intro _
  apply Keeps.ite
  intro _
  apply closePeriod_keeps
  with_reducible assumption
  intro _
  apply chrono_keeps
  apply closePeriod_keeps
  with_reducible assumption

theorem stepRec_keeps {s : State} {k : Nat} {taken : Bool} {short : Nat} (k0 : Keeps d s0 s) : Keeps d s0 (stepRec s k taken short) := by
  unfold stepRec
  apply chrono_keeps
  with_reducible assumption

theorem execPlateAccess_keeps {ctx : Nat} {slot : Nat} {off : Nat} {write : Bool} {data : List Byte} {s : State} (k5 : Keeps d s0 s) : KeepsO d s0 (execPlateAccess ctx slot off write data s) := by
  unfold execPlateAccess
  apply KeepsO.next
  with_reducible apply Keeps.fields
  apply Keeps.ite
  intro _
  apply plateWr_keeps
  with_reducible assumption
  intro _
  with_reducible apply Keeps.fields
  apply Keeps.ite
  intro _
  with_reducible assumption
  intro _
  apply plateViol_keeps
  with_reducible assumption

theorem retireGran_keeps {s : State} {g : Nat} (k0 : Keeps d s0 s) : Keeps d s0 (retireGran s g) := by
  unfold retireGran
  apply chrono_keeps
  apply retainedDirty_keeps
  apply setFlag_keeps
  apply syncPlate_keeps
  apply setGran_keeps
  with_reducible assumption

theorem retireFrame_keeps {s : State} {f : Nat} {c : Option Nat} (k0 : Keeps d s0 s) : Keeps d s0 (retireFrame s f c) := by
  unfold retireFrame
  apply chrono_keeps
  apply retainedDirty_keeps
  apply setFlag_keeps
  with_reducible apply Keeps.fields
  split
  apply setCtx_keeps
  apply setFld_keeps
  apply setFrame_keeps
  with_reducible assumption
  apply setFld_keeps
  apply setFrame_keeps
  with_reducible assumption

theorem piecesWait_keeps {s : State} {w : Who} {a : List (Nat × List Byte)} (k0 : Keeps d s0 s) : KeepsP d s0 id (piecesWait s w a) := by
  induction a generalizing s with
  | nil =>
    unfold piecesWait
    apply KeepsP.none
  | cons b l ih =>
    unfold piecesWait
    split
    apply KeepsP.some
    refine prepare_wait (by assumption) ?_
    with_reducible assumption
    apply ih
    with_reducible assumption

theorem piecesWait_eq {s : State} {w : Who} {a : List (Nat × List Byte)} {t : State} (e : piecesWait s w a = some t) (k0 : Keeps d s0 s) : Keeps d s0 t := by
  have h : KeepsP d s0 id (piecesWait s w a) := piecesWait_keeps k0
  rw [e] at h
  exact h.out _ rfl

theorem execLaneEccError_keeps {lane : Nat} {double : Bool} {pass : Bool} {s : State} (k3 : Keeps d s0 s) : KeepsO d s0 (execLaneEccError lane double pass s) := by
  unfold execLaneEccError
  apply KeepsO.next
  apply Keeps.ite
  intro _
  apply countReg_keeps
  with_reducible assumption
  intro _
  apply Keeps.ite
  intro _
  apply Keeps.ite
  intro _
  apply fenceFn_keeps
  apply chrono_keeps
  apply retainedDirty_keeps
  apply setFlag_keeps
  apply setLane_keeps
  with_reducible apply Keeps.fields
  split
  apply noteFail_keeps
  apply setFlag_keeps
  with_reducible assumption
  apply setFlag_keeps
  with_reducible assumption
  intro _
  apply chrono_keeps
  apply retainedDirty_keeps
  apply setFlag_keeps
  apply setLane_keeps
  with_reducible apply Keeps.fields
  split
  apply noteFail_keeps
  apply setFlag_keeps
  with_reducible assumption
  apply setFlag_keeps
  with_reducible assumption
  intro _
  apply setLane_keeps
  with_reducible apply Keeps.fields
  split
  apply noteFail_keeps
  apply setFlag_keeps
  with_reducible assumption
  apply setFlag_keeps
  with_reducible assumption

theorem layOut_keeps {s : State} {w : Who} {listAddr : Nat} {a : Nat} {x4 : Nat} {x5 : List Byte} {x6 : List (Nat × List Byte)}
    (k0 : Keeps d s0 s) : Keeps d s0 ((layOut s w listAddr a x4 x5 x6).stOr s0) := by
  induction a generalizing x4 x5 x6 with
  | zero => exact Keeps.refl _
  | succ n ih =>
    unfold layOut
    split
    · exact Keeps.refl _
    · split
      · rename_i h; exact prepare_wait h k0
      · rename_i h; exact prepare_fault h k0
      · dsimp only
        split
        · exact Keeps.refl _
        · exact ih

theorem layOut_wait {s : State} {w : Who} {listAddr : Nat} {a : Nat} {x4 : Nat} {x5 : List Byte} {x6 : List (Nat × List Byte)} {t : State} (e : layOut s w listAddr a x4 x5 x6 = .wait t) (k0 : Keeps d s0 s) : Keeps d s0 t := by
  have h : Keeps d s0 ((layOut s w listAddr a x4 x5 x6).stOr s0) := layOut_keeps k0
  rw [e] at h
  exact h

theorem layOut_fault {s : State} {w : Who} {listAddr : Nat} {a : Nat} {x4 : Nat} {x5 : List Byte} {x6 : List (Nat × List Byte)} {c p} {t : State} (e : layOut s w listAddr a x4 x5 x6 = .fault c p t) (k0 : Keeps d s0 s) : Keeps d s0 t := by
  have h : Keeps d s0 ((layOut s w listAddr a x4 x5 x6).stOr s0) := layOut_keeps k0
  rw [e] at h
  exact h

theorem writePieces_keeps {s : State} {w : Who} {a : List (Nat × List Byte)} {x3 : Nat} (k0 : Keeps d s0 s) : Keeps d s0 (writePieces s w a x3).1 := by
  induction a generalizing s x3 with
  | nil =>
    unfold writePieces
    with_reducible assumption
  | cons b l ih =>
    unfold writePieces
    with_reducible apply Keeps.fields
    split
    apply ih
    apply vaWr_keeps
    refine prepare_ok (by assumption) ?_
    with_reducible assumption
    refine prepare_fault (by assumption) ?_
    with_reducible assumption
    refine prepare_wait (by assumption) ?_
    with_reducible assumption

theorem writePieces_eq {s : State} {w : Who} {a : List (Nat × List Byte)} {x3 : Nat} {y} {t : State} (e : writePieces s w a x3 = (t, y)) (k0 : Keeps d s0 s) : Keeps d s0 t := by
  have h : Keeps d s0 (writePieces s w a x3).1 := writePieces_keeps k0
  rw [e] at h
  exact h

theorem expandTo_keeps {s : State} {id : Nat} {x2 : Disp} {x3 : Nat} (k0 : Keeps d s0 s) : Keeps d s0 (expandTo s id x2 x3) := by
  unfold expandTo
  with_reducible apply Keeps.fields
  split
  with_reducible assumption
  apply Keeps.ite
  intro _
  with_reducible assumption
  intro _
  apply setDisp_keeps
  apply addWg_keeps
  with_reducible assumption

theorem retirePinion_keeps {s : State} {x1 : Nat} {p : Nat} (k0 : Keeps d s0 s) : Keeps d s0 (retirePinion s x1 p) := by
  unfold retirePinion
  apply chrono_keeps
  apply retainedDirty_keeps
  apply setFlag_keeps
  apply syncPinions_keeps
  apply setPinion_keeps
  with_reducible assumption

theorem fenceTrain_keeps {s : State} {x1 : Nat} (k0 : Keeps d s0 s) : Keeps d s0 (fenceTrain s x1) := by
  unfold fenceTrain
  with_reducible apply Keeps.fields
  apply abandonAll_keeps
  apply setFlag_keeps
  apply setFlag_keeps
  with_reducible assumption

theorem execPinionEccError_keeps {train : Nat} {pos : Nat} {double : Bool} {pass : Bool} {s : State} (k4 : Keeps d s0 s) : KeepsO d s0 (execPinionEccError train pos double pass s) := by
  unfold execPinionEccError
  apply KeepsO.next
  apply Keeps.ite
  intro _
  apply countReg_keeps
  with_reducible assumption
  intro _
  apply Keeps.ite
  intro _
  apply retirePinion_keeps
  apply setPinion_keeps
  apply abandonAll_keeps
  apply setFlag_keeps
  with_reducible assumption
  intro _
  apply setPinion_keeps
  apply abandonAll_keeps
  apply setFlag_keeps
  with_reducible assumption

theorem codeWord_keeps {s : State} {w : Wg} {b : Beat} (k0 : Keeps d s0 s) : Keeps d s0 (codeWord s w b).1.st := by
  unfold codeWord
  apply prepare_keeps
  with_reducible assumption

theorem fetchIns_keeps {s : State} {id : Nat} {bi : Nat} {op : Nat} (k0 : Keeps d s0 s) :
    Keeps d s0 (fetchIns s id bi op).st := by
  unfold fetchIns
  split
  · exact k0
  · rename_i w hw
    split
    · exact k0
    · rename_i b hb
      split
      · exact k0
      · split
        · exact endWgErr_keeps k0
        · extract_lets take c
          have ht : ∀ x y v, Keeps d s0 x → Keeps d s0 y → Keeps d s0 (take x y v).st := by
            intro x y v hx hy
            simp only [take]
            split
            · exact endWgErr_keeps hy
            · split
              · exact hx
              · exact hy
          have hp : Keeps d s0 c.1.st := prepare_keeps k0
          clear_value take
          split
          · rename_i h; rw [h] at hp; exact hp
          · rename_i h; rw [h] at hp; exact ht _ _ _ k0 (noteFail_keeps hp)
          · rename_i h; rw [h] at hp; exact ht _ _ _ k0 hp

theorem fetchIns_no {s : State} {id : Nat} {bi : Nat} {op : Nat} {t : State} (e : fetchIns s id bi op = .no t) (k0 : Keeps d s0 s) : Keeps d s0 t := by
  have h : Keeps d s0 (fetchIns s id bi op).st := fetchIns_keeps k0
  rw [e] at h
  exact h

theorem fetchIns_here_keeps {s : State} {id : Nat} {bi : Nat} {op : Nat} {h0} {t : State} (e : fetchIns s id bi op = .here t h0) (k0 : Keeps d s0 s) : Keeps d s0 t := by
  have h : Keeps d s0 (fetchIns s id bi op).st := fetchIns_keeps k0
  rw [e] at h
  exact h

theorem aluPred_keeps {op : Nat} {rs : Ins → List Nat} {f : Here → Nat → Bool} {id : Nat} {bi : Nat} {s : State} (k5 : Keeps d s0 s) : Keeps d s0 (aluPred op rs f id bi s) := by
  unfold aluPred
  with_reducible apply Keeps.fields
  split
  refine fetchIns_no (by assumption) ?_
  with_reducible assumption
  apply Keeps.ite
  intro _
  apply retire_keeps
  refine fetchIns_here_keeps (by assumption) ?_
  with_reducible assumption
  intro _
  apply endWgErr_keeps
  refine fetchIns_here_keeps (by assumption) ?_
  with_reducible assumption

theorem aluReg_keeps {op : Nat} {rs : Ins → List Nat} {f : Here → Nat → Word} {id : Nat} {bi : Nat} {s : State} (k5 : Keeps d s0 s) : Keeps d s0 (aluReg op rs f id bi s) := by
  unfold aluReg
  with_reducible apply Keeps.fields
  split
  refine fetchIns_no (by assumption) ?_
  with_reducible assumption
  apply Keeps.ite
  intro _
  apply retire_keeps
  refine fetchIns_here_keeps (by assumption) ?_
  with_reducible assumption
  intro _
  apply endWgErr_keeps
  refine fetchIns_here_keeps (by assumption) ?_
  with_reducible assumption

theorem execMfree_keeps {wg : Nat} {beat : Nat} {s : State} (k2 : Keeps d s0 s) : KeepsO d s0 (execMfree wg beat s) := by
  unfold execMfree
  apply KeepsO.next
  with_reducible apply Keeps.fields
  split
  refine fetchIns_no (by assumption) ?_
  with_reducible assumption
  apply Keeps.ite
  intro _
  apply endWgErr_keeps
  refine fetchIns_here_keeps (by assumption) ?_
  with_reducible assumption
  intro _
  apply Keeps.ite
  intro _
  apply allocHeld_keeps
  refine fetchIns_here_keeps (by assumption) ?_
  with_reducible assumption
  intro _
  apply Keeps.ite
  intro _
  apply retire_keeps
  refine fetchIns_here_keeps (by assumption) ?_
  with_reducible assumption
  intro _
  apply askAlloc_keeps
  refine fetchIns_here_keeps (by assumption) ?_
  with_reducible assumption

theorem execPst_keeps {wg : Nat} {beat : Nat} {s : State} (k2 : Keeps d s0 s) : KeepsO d s0 (execPst wg beat s) := by
  unfold execPst
  apply KeepsO.next
  with_reducible apply Keeps.fields
  split
  refine fetchIns_no (by assumption) ?_
  with_reducible assumption
  apply Keeps.ite
  intro _
  apply retire_keeps
  apply plateNote_keeps
  apply Keeps.foldl
  refine fetchIns_here_keeps (by assumption) ?_
  with_reducible assumption
  intro _ _ _
  with_reducible apply Keeps.fields
  split
  apply Keeps.ite
  intro _
  apply plateWr_keeps
  with_reducible assumption
  intro _
  with_reducible assumption
  with_reducible assumption
  intro _
  apply endWgErr_keeps
  refine fetchIns_here_keeps (by assumption) ?_
  with_reducible assumption

theorem execEvrec_keeps {wg : Nat} {beat : Nat} {s : State} (k2 : Keeps d s0 s) : KeepsO d s0 (execEvrec wg beat s) := by
  unfold execEvrec
  apply KeepsO.next
  with_reducible apply Keeps.fields
  split
  refine fetchIns_no (by assumption) ?_
  with_reducible assumption
  apply Keeps.ite
  intro _
  apply endWgErr_keeps
  refine fetchIns_here_keeps (by assumption) ?_
  with_reducible assumption
  intro _
  apply Keeps.ite
  intro _
  with_reducible assumption
  intro _
  apply retire_keeps
  apply Keeps.ite
  intro _
  apply noteFail_keeps
  apply Keeps.foldl
  refine fetchIns_here_keeps (by assumption) ?_
  with_reducible assumption
  intro _ _ _
  apply Keeps.ite
  intro _
  apply recordEv_keeps
  with_reducible assumption
  intro _
  with_reducible assumption
  intro _
  apply Keeps.foldl
  refine fetchIns_here_keeps (by assumption) ?_
  with_reducible assumption
  intro _ _ _
  apply Keeps.ite
  intro _
  apply recordEv_keeps
  with_reducible assumption
  intro _
  with_reducible assumption

theorem execEvwait_keeps {wg : Nat} {beat : Nat} {s : State} (k2 : Keeps d s0 s) : KeepsO d s0 (execEvwait wg beat s) := by
  unfold execEvwait
  apply KeepsO.next
  with_reducible apply Keeps.fields
  split
  refine fetchIns_no (by assumption) ?_
  with_reducible assumption
  apply Keeps.ite
  intro _
  apply endWgErr_keeps
  refine fetchIns_here_keeps (by assumption) ?_
  with_reducible assumption
  intro _
  apply Keeps.ite
  intro _
  apply Keeps.ite
  intro _
  apply Keeps.ite
  intro _
  apply endBeat_keeps
  apply dropBeatWaits_keeps
  refine fetchIns_here_keeps (by assumption) ?_
  with_reducible assumption
  intro _
  refine fetchIns_here_keeps (by assumption) ?_
  with_reducible assumption
  intro _
  apply evwaitDone_keeps
  apply dropBeatWaits_keeps
  refine fetchIns_here_keeps (by assumption) ?_
  with_reducible assumption
  intro _
  apply Keeps.ite
  intro _
  apply putBeat_keeps
  with_reducible apply Keeps.fields
  refine fetchIns_here_keeps (by assumption) ?_
  with_reducible assumption
  intro _
  apply evwaitDone_keeps
  refine fetchIns_here_keeps (by assumption) ?_
  with_reducible assumption

theorem execFence_keeps {wg : Nat} {beat : Nat} {s : State} (k2 : Keeps d s0 s) : KeepsO d s0 (execFence wg beat s) := by
  unfold execFence
  apply KeepsO.next
  with_reducible apply Keeps.fields
  split
  refine fetchIns_no (by assumption) ?_
  with_reducible assumption
  apply Keeps.ite
  intro _
  with_reducible assumption
  intro _
  apply retire_keeps
  refine fetchIns_here_keeps (by assumption) ?_
  with_reducible assumption

theorem execPld_keeps {wg : Nat} {beat : Nat} {s : State} (k2 : Keeps d s0 s) : KeepsO d s0 (execPld wg beat s) := by
  unfold execPld
  apply KeepsO.next
  with_reducible apply Keeps.fields
  split
  refine fetchIns_no (by assumption) ?_
  with_reducible assumption
  apply Keeps.ite
  intro _
  apply retire_keeps
  apply plateNote_keeps
  refine fetchIns_here_keeps (by assumption) ?_
  with_reducible assumption
  intro _
  apply endWgErr_keeps
  refine fetchIns_here_keeps (by assumption) ?_
  with_reducible assumption

theorem execMalloc_keeps {wg : Nat} {beat : Nat} {s : State} (k2 : Keeps d s0 s) : KeepsO d s0 (execMalloc wg beat s) := by
  unfold execMalloc
  apply KeepsO.next
  with_reducible apply Keeps.fields
  split
  refine fetchIns_no (by assumption) ?_
  with_reducible assumption
  apply Keeps.ite
  intro _
  apply endWgErr_keeps
  refine fetchIns_here_keeps (by assumption) ?_
  with_reducible assumption
  intro _
  apply Keeps.ite
  intro _
  apply allocHeld_keeps
  refine fetchIns_here_keeps (by assumption) ?_
  with_reducible assumption
  intro _
  apply Keeps.ite
  intro _
  apply retire_keeps
  refine fetchIns_here_keeps (by assumption) ?_
  with_reducible assumption
  intro _
  apply Keeps.ite
  intro _
  apply retire_keeps
  refine fetchIns_here_keeps (by assumption) ?_
  with_reducible assumption
  intro _
  apply askAlloc_keeps
  refine fetchIns_here_keeps (by assumption) ?_
  with_reducible assumption

theorem execAtoms_keeps {wg : Nat} {beat : Nat} {s : State} (k2 : Keeps d s0 s) : KeepsO d s0 (execAtoms wg beat s) := by
  unfold execAtoms
  apply KeepsO.next
  with_reducible apply Keeps.fields
  split
  refine fetchIns_no (by assumption) ?_
  with_reducible assumption
  apply Keeps.ite
  intro _
  apply endWgErr_keeps
  refine fetchIns_here_keeps (by assumption) ?_
  with_reducible assumption
  intro _
  apply retire_keeps
  apply Keeps.ite
  intro _
  apply noteFail_keeps
  apply Keeps.ite
  intro _
  apply noteFail_keeps
  apply setLocal_keeps
  refine fetchIns_here_keeps (by assumption) ?_
  with_reducible assumption
  intro _
  apply setLocal_keeps
  refine fetchIns_here_keeps (by assumption) ?_
  with_reducible assumption
  intro _
  apply Keeps.ite
  intro _
  apply noteFail_keeps
  apply setLocal_keeps
  refine fetchIns_here_keeps (by assumption) ?_
  with_reducible assumption
  intro _
  apply setLocal_keeps
  refine fetchIns_here_keeps (by assumption) ?_
  with_reducible assumption

theorem execSts_keeps {wg : Nat} {beat : Nat} {s : State} (k2 : Keeps d s0 s) : KeepsO d s0 (execSts wg beat s) := by
  unfold execSts
  apply KeepsO.next
  with_reducible apply Keeps.fields
  split
  refine fetchIns_no (by assumption) ?_
  with_reducible assumption
  apply Keeps.ite
  intro _
  apply retire_keeps
  apply Keeps.ite
  intro _
  apply noteFail_keeps
  apply setLocal_keeps
  refine fetchIns_here_keeps (by assumption) ?_
  with_reducible assumption
  intro _
  apply setLocal_keeps
  refine fetchIns_here_keeps (by assumption) ?_
  with_reducible assumption
  intro _
  apply endWgErr_keeps
  refine fetchIns_here_keeps (by assumption) ?_
  with_reducible assumption

theorem execEvrd_keeps {wg : Nat} {beat : Nat} {s : State} (k2 : Keeps d s0 s) : KeepsO d s0 (execEvrd wg beat s) := by
  unfold execEvrd
  apply KeepsO.next
  with_reducible apply Keeps.fields
  split
  refine fetchIns_no (by assumption) ?_
  with_reducible assumption
  apply Keeps.ite
  intro _
  apply endWgErr_keeps
  refine fetchIns_here_keeps (by assumption) ?_
  with_reducible assumption
  intro _
  apply retire_keeps
  apply Keeps.ite
  intro _
  apply noteFail_keeps
  refine fetchIns_here_keeps (by assumption) ?_
  with_reducible assumption
  intro _
  refine fetchIns_here_keeps (by assumption) ?_
  with_reducible assumption

theorem execLds_keeps {wg : Nat} {beat : Nat} {s : State} (k2 : Keeps d s0 s) : KeepsO d s0 (execLds wg beat s) := by
  unfold execLds
  apply KeepsO.next
  with_reducible apply Keeps.fields
  split
  refine fetchIns_no (by assumption) ?_
  with_reducible assumption
  apply Keeps.ite
  intro _
  apply retire_keeps
  apply Keeps.ite
  intro _
  apply noteFail_keeps
  refine fetchIns_here_keeps (by assumption) ?_
  with_reducible assumption
  intro _
  refine fetchIns_here_keeps (by assumption) ?_
  with_reducible assumption
  intro _
  apply endWgErr_keeps
  refine fetchIns_here_keeps (by assumption) ?_
  with_reducible assumption

theorem startVote_keeps {s : State} (k0 : Keeps d s0 s) : Keeps d s0 (startVote s) := by
  unfold startVote
  apply Keeps.foldl
  with_reducible apply Keeps.fields
  with_reducible assumption
  intro _ _ _
  apply sendHop_keeps
  with_reducible assumption

theorem checkSwitch_keeps {s : State} (k0 : Keeps d s0 s) : Keeps d s0 (checkSwitch s) := by
  unfold checkSwitch
  with_reducible apply Keeps.fields
  split
  with_reducible assumption
  apply Keeps.ite
  intro _
  with_reducible assumption
  intro _
  apply Keeps.ite
  intro _
  apply switchReported_keeps
  with_reducible apply Keeps.fields
  with_reducible assumption
  intro _
  apply sendPkt_keeps
  with_reducible apply Keeps.fields
  with_reducible assumption

theorem flowEchoed_keeps {s : State} {dst : Nat} {vc : Nat} (k0 : Keeps d s0 s) : Keeps d s0 (flowEchoed s dst vc) := by
  unfold flowEchoed
  with_reducible apply Keeps.fields
  split
  with_reducible assumption
  apply Keeps.ite
  intro _
  with_reducible assumption
  intro _
  apply checkSwitch_keeps
  apply Keeps.foldl
  with_reducible apply Keeps.fields
  with_reducible assumption
  intro _ _ _
  apply sendPkt_keeps
  with_reducible assumption

theorem dropLost_keeps {s : State} {x1 : Nat} (k0 : Keeps d s0 s) : Keeps d s0 (dropLost s x1) := by
  unfold dropLost
  apply Keeps.ite
  intro _
  apply mcDone_keeps
  apply switchReported_keeps
  apply Keeps.foldl
  apply Keeps.foldl
  with_reducible apply Keeps.fields
  apply Keeps.foldl
  apply flagLost_keeps
  with_reducible assumption
  intro _ _ _
  apply Keeps.ite
  intro _
  apply failReq_keeps
  with_reducible assumption
  intro _
  with_reducible apply Keeps.fields
  with_reducible assumption
  intro _ _ _
  apply dropRemote_keeps
  with_reducible assumption
  intro _ _ _
  apply flowEchoed_keeps
  with_reducible assumption
  intro _
  apply switchReported_keeps
  apply Keeps.foldl
  apply Keeps.foldl
  with_reducible apply Keeps.fields
  apply Keeps.foldl
  apply flagLost_keeps
  with_reducible assumption
  intro _ _ _
  apply Keeps.ite
  intro _
  apply failReq_keeps
  with_reducible assumption
  intro _
  with_reducible apply Keeps.fields
  with_reducible assumption
  intro _ _ _
  apply dropRemote_keeps
  with_reducible assumption
  intro _ _ _
  apply flowEchoed_keeps
  with_reducible assumption

theorem declareLost_keeps {s : State} {mask : Nat} {notice : Nat} {ports : List Nat} (k0 : Keeps d s0 s) : Keeps d s0 (declareLost s mask notice ports) := by
  unfold declareLost
  apply Keeps.ite
  intro _
  with_reducible assumption
  intro _
  apply Keeps.ite
  intro _
  apply startVote_keeps
  apply Keeps.ite
  intro _
  with_reducible apply Keeps.fields
  apply Keeps.foldl
  apply Keeps.foldl
  apply chrono_keeps
  apply nlErr_keeps
  with_reducible apply Keeps.fields
  with_reducible assumption
  intro _ _ _
  apply sendHop_keeps
  with_reducible assumption
  intro _ _ _
  apply dropLost_keeps
  with_reducible assumption
  intro _
  apply Keeps.foldl
  apply Keeps.foldl
  apply chrono_keeps
  apply nlErr_keeps
  with_reducible apply Keeps.fields
  with_reducible assumption
  intro _ _ _
  apply sendHop_keeps
  with_reducible assumption
  intro _ _ _
  apply dropLost_keeps
  with_reducible assumption
  intro _
  apply Keeps.ite
  intro _
  with_reducible apply Keeps.fields
  apply Keeps.foldl
  apply Keeps.foldl
  apply chrono_keeps
  apply nlErr_keeps
  with_reducible apply Keeps.fields
  with_reducible assumption
  intro _ _ _
  apply sendHop_keeps
  with_reducible assumption
  intro _ _ _
  apply dropLost_keeps
  with_reducible assumption
  intro _
  apply Keeps.foldl
  apply Keeps.foldl
  apply chrono_keeps
  apply nlErr_keeps
  with_reducible apply Keeps.fields
  with_reducible assumption
  intro _ _ _
  apply sendHop_keeps
  with_reducible assumption
  intro _ _ _
  apply dropLost_keeps
  with_reducible assumption

theorem execRemoteRequest_keeps {s : State} (k0 : Keeps d s0 s) : KeepsO d s0 (execRemoteRequest s) := by
  unfold execRemoteRequest
  apply KeepsO.next
  with_reducible apply Keeps.fields
  split
  with_reducible assumption
  with_reducible apply Keeps.fields
  split
  with_reducible apply Keeps.fields
  with_reducible assumption
  apply Keeps.ite
  intro _
  apply errorTo_keeps
  with_reducible apply Keeps.fields
  with_reducible assumption
  intro _
  apply Keeps.ite
  intro _
  apply errorTo_keeps
  with_reducible apply Keeps.fields
  with_reducible assumption
  intro _
  with_reducible apply Keeps.fields
  split
  apply serveReq_keeps
  with_reducible apply Keeps.fields
  with_reducible assumption
  apply Keeps.foldl
  with_reducible assumption
  intro _ _ _
  apply sendSnoop_keeps
  with_reducible assumption

theorem execFabricPortUp_keeps {port : Nat} {waves : Nat} {peer : Nat} {peerPort : Nat} {s : State} (k4 : Keeps d s0 s) : KeepsO d s0 (execFabricPortUp port waves peer peerPort s) := by
  unfold execFabricPortUp
  apply KeepsO.next
  apply Keeps.ite
  intro _
  with_reducible assumption
  intro _
  apply Keeps.ite
  intro _
  apply chrono_keeps
  apply setPort_keeps
  with_reducible assumption
  intro _
  apply setPort_keeps
  with_reducible assumption

theorem execProbe_keeps {port : Nat} {cand : Nat} {s : State} (k2 : Keeps d s0 s) : KeepsO d s0 (execProbe port cand s) := by
  unfold execProbe
  apply KeepsO.next
  apply gotProbe_keeps
  with_reducible assumption

theorem execMcGo_keeps {val : Word} {s : State} (k1 : Keeps d s0 s) : KeepsO d s0 (execMcGo val s) := by
  unfold execMcGo
  apply KeepsO.next
  apply hostWr_keeps
  with_reducible assumption
  intro _ _
  apply Keeps.ite
  intro _
  with_reducible assumption
  intro _
  apply Keeps.ite
  intro _
  apply nlErr_keeps
  with_reducible assumption
  intro _
  apply Keeps.ite
  intro _
  apply mcArrive_keeps
  apply setFld_keeps
  with_reducible apply Keeps.fields
  apply Keeps.foldl
  with_reducible assumption
  intro _ _ _
  apply putReg_keeps
  with_reducible assumption
  intro _
  apply Keeps.ite
  intro _
  apply mcDone_keeps
  apply setFld_keeps
  with_reducible apply Keeps.fields
  apply Keeps.foldl
  with_reducible assumption
  intro _ _ _
  apply putReg_keeps
  with_reducible assumption
  intro _
  apply sendPkt_keeps
  apply setFld_keeps
  with_reducible apply Keeps.fields
  apply Keeps.foldl
  with_reducible assumption
  intro _ _ _
  apply putReg_keeps
  with_reducible assumption

theorem gotNumber_keeps {s : State} {mgr : Nat} {dev : Nat} {role : Nat} {configured : Nat} (k0 : Keeps d s0 s) : Keeps d s0 (gotNumber s mgr dev role configured) := by
  unfold gotNumber
  apply sendEnum_keeps
  with_reducible apply Keeps.fields
  with_reducible assumption

theorem gotLoss_keeps {s : State} {port : Nat} {mask : Nat} (k0 : Keeps d s0 s) : Keeps d s0 (gotLoss s port mask) := by
  unfold gotLoss
  apply declareLost_keeps
  with_reducible assumption

theorem execLossNotice_keeps {port : Nat} {mask : Nat} {s : State} (k2 : Keeps d s0 s) : KeepsO d s0 (execLossNotice port mask s) := by
  unfold execLossNotice
  apply KeepsO.next
  apply gotLoss_keeps
  with_reducible assumption

theorem execDrainMarkerEcho_keeps {dst : Nat} {vc : Nat} {s : State} (k2 : Keeps d s0 s) : KeepsO d s0 (execDrainMarkerEcho dst vc s) := by
  unfold execDrainMarkerEcho
  apply KeepsO.next
  apply flowEchoed_keeps
  with_reducible assumption

theorem execFlushAll_keeps {s : State} (k0 : Keeps d s0 s) : KeepsO d s0 (execFlushAll s) := by
  unfold execFlushAll
  apply KeepsO.next
  apply hostWr_keeps
  with_reducible assumption
  intro _ _
  apply invalidate_keeps
  with_reducible assumption

theorem execFaultRingResize_keeps {val : Word} {s : State} (k1 : Keeps d s0 s) : KeepsO d s0 (execFaultRingResize val s) := by
  unfold execFaultRingResize
  apply KeepsO.next
  apply hostWr_keeps
  with_reducible assumption
  intro _ _
  apply Keeps.ite
  intro _
  apply setFlag_keeps
  apply setCtx_keeps
  with_reducible assumption
  intro _
  apply Keeps.ite
  intro _
  apply setFlag_keeps
  apply setCtx_keeps
  with_reducible assumption
  intro _
  apply Keeps.ite
  intro _
  apply setCtx_keeps
  with_reducible assumption
  intro _
  with_reducible apply Keeps.fields
  split
  refine resizeRing_eq (by assumption) ?_
  apply setCtx_keeps
  with_reducible assumption
  apply setFlag_keeps
  apply setCtx_keeps
  with_reducible assumption

theorem execFaultRingHeadWrite_keeps {val : Word} {s : State} (k1 : Keeps d s0 s) : KeepsO d s0 (execFaultRingHeadWrite val s) := by
  unfold execFaultRingHeadWrite
  apply KeepsO.next
  apply hostWr_keeps
  with_reducible assumption
  intro _ _
  apply Keeps.ite
  intro _
  apply setFlag_keeps
  with_reducible assumption
  intro _
  apply releaseParked_keeps
  apply setCtx_keeps
  with_reducible assumption

theorem execL1EvictionNotice_keeps {addr : Nat} {host : Bool} {train : Nat} {s : State} (k3 : Keeps d s0 s) : KeepsO d s0 (execL1EvictionNotice addr host train s) := by
  unfold execL1EvictionNotice
  apply KeepsO.next
  with_reducible apply Keeps.fields
  split
  with_reducible assumption
  apply Keeps.ite
  intro _
  with_reducible assumption
  intro _
  apply Keeps.ite
  intro _
  apply putDir_keeps
  with_reducible assumption
  intro _
  apply putDir_keeps
  with_reducible assumption

theorem execSdEnWrite_keeps {en : Bool} {s : State} (k1 : Keeps d s0 s) : KeepsO d s0 (execSdEnWrite en s) := by
  unfold execSdEnWrite
  apply KeepsO.next
  apply hostWr_keeps
  with_reducible assumption
  intro _ _
  apply Keeps.ite
  intro _
  apply dropL1s_keeps
  apply setFlag_keeps
  with_reducible assumption
  intro _
  apply setFlag_keeps
  with_reducible assumption

theorem dirtyLost_keeps {s : State} {q : Nat} {st : Nat} {w : Nat} (k0 : Keeps d s0 s) : Keeps d s0 (dirtyLost s q st w) := by
  unfold dirtyLost
  apply raiseCause_keeps
  apply chrono_keeps
  apply setFlag_keeps
  with_reducible assumption

theorem execClean_keeps {s : State} (k0 : Keeps d s0 s) : KeepsO d s0 (execClean s) := by
  unfold execClean
  apply KeepsO.next
  apply hostWr_keeps
  with_reducible assumption
  intro _ _
  apply maintGo_keeps
  apply setFld_keeps
  with_reducible assumption

theorem noteWay_keeps {s : State} {q : Nat} {w : Nat} (k0 : Keeps d s0 s) : Keeps d s0 (noteWay s q w) := by
  unfold noteWay
  apply Keeps.ite
  intro _
  with_reducible apply Keeps.fields
  with_reducible assumption
  intro _
  apply chrono_keeps
  apply retainedDirty_keeps
  apply setFlag_keeps
  apply setFlag_keeps
  with_reducible apply Keeps.fields
  with_reducible assumption

theorem execEvictionAcknowledge_keeps {slice : Nat} {slot : Nat} {s : State} (k2 : Keeps d s0 s) : KeepsO d s0 (execEvictionAcknowledge slice slot s) := by
  unfold execEvictionAcknowledge
  apply KeepsO.next
  with_reducible apply Keeps.fields
  split
  with_reducible assumption
  apply Keeps.ite
  intro _
  with_reducible assumption
  intro _
  apply finishHc_keeps
  apply delVict_keeps
  apply Keeps.ite
  intro _
  apply memStore_keeps
  with_reducible assumption
  intro _
  with_reducible assumption

theorem execCleanAndInvalidate_keeps {s : State} (k0 : Keeps d s0 s) : KeepsO d s0 (execCleanAndInvalidate s) := by
  unfold execCleanAndInvalidate
  apply KeepsO.next
  apply hostWr_keeps
  with_reducible assumption
  intro _ _
  apply maintGo_keeps
  apply setFld_keeps
  with_reducible assumption

theorem execCacheEccError_keeps {slice : Nat} {set : Nat} {way : Nat} {kind : Nat} {s : State} (k4 : Keeps d s0 s) : KeepsO d s0 (execCacheEccError slice set way kind s) := by
  unfold execCacheEccError
  apply KeepsO.next
  apply Keeps.ite
  intro _
  apply Keeps.ite
  intro _
  apply noteScrub_keeps
  with_reducible assumption
  intro _
  with_reducible assumption
  intro _
  apply Keeps.ite
  intro _
  apply countReg_keeps
  apply Keeps.ite
  intro _
  apply noteScrub_keeps
  with_reducible assumption
  intro _
  with_reducible assumption
  intro _
  apply Keeps.ite
  intro _
  apply noteWay_keeps
  with_reducible apply Keeps.fields
  split
  apply Keeps.ite
  intro _
  apply noteScrub_keeps
  with_reducible assumption
  intro _
  with_reducible assumption
  apply Keeps.ite
  intro _
  apply setFlag_keeps
  apply setLine_keeps
  apply writeBack_keeps
  apply Keeps.ite
  intro _
  apply noteScrub_keeps
  with_reducible assumption
  intro _
  with_reducible assumption
  intro _
  apply delLine_keeps
  apply countReg_keeps
  apply Keeps.ite
  intro _
  apply noteScrub_keeps
  with_reducible assumption
  intro _
  with_reducible assumption
  intro _
  apply noteWay_keeps
  apply Keeps.ite
  intro _
  apply dirtyLost_keeps
  apply countReg_keeps
  apply delLine_keeps
  apply Keeps.ite
  intro _
  apply noteScrub_keeps
  with_reducible assumption
  intro _
  with_reducible assumption
  intro _
  apply countReg_keeps
  apply delLine_keeps
  apply Keeps.ite
  intro _
  apply noteScrub_keeps
  with_reducible assumption
  intro _
  with_reducible assumption

theorem execHcEnWrite_keeps {en : Bool} {s : State} (k1 : Keeps d s0 s) : KeepsO d s0 (execHcEnWrite en s) := by
  unfold execHcEnWrite
  apply KeepsO.next
  apply hostWr_keeps
  with_reducible assumption
  intro _ _
  apply Keeps.ite
  intro _
  apply Keeps.ite
  intro _
  with_reducible assumption
  intro _
  apply Keeps.ite
  intro _
  apply setFlag_keeps
  with_reducible assumption
  intro _
  apply setFlag_keeps
  with_reducible assumption
  intro _
  apply Keeps.ite
  intro _
  apply finishHc_keeps
  apply setFlag_keeps
  apply maintain_keeps
  with_reducible assumption
  intro _
  with_reducible assumption

theorem execCaWaysWrite_keeps {val : Word} {s : State} (k1 : Keeps d s0 s) : KeepsO d s0 (execCaWaysWrite val s) := by
  unfold execCaWaysWrite
  apply KeepsO.next
  apply hostWr_keeps
  with_reducible assumption
  intro _ _
  apply Keeps.ite
  intro _
  apply setFlag_keeps
  with_reducible assumption
  intro _
  apply retainedDirty_keeps
  apply putReg_keeps
  with_reducible assumption

theorem execInvalidate_keeps {s : State} (k0 : Keeps d s0 s) : KeepsO d s0 (execInvalidate s) := by
  unfold execInvalidate
  apply KeepsO.next
  apply hostWr_keeps
  with_reducible assumption
  intro _ _
  apply maintGo_keeps
  apply setFld_keeps
  with_reducible assumption

theorem execHotReset_keeps {s : State} (k0 : Keeps d s0 s) : KeepsO d s0 (execHotReset s) := by
  unfold execHotReset
  apply KeepsO.next
  apply countSource_keeps
  apply clearConfig_keeps
  apply endHostWork_keeps
  with_reducible assumption

theorem execBar4Access_keeps {kind : Nat} {off : Nat} {len : Nat} {data : List Byte} {s : State} (k4 : Keeps d s0 s) : KeepsO d s0 (execBar4Access kind off len data s) := by
  unfold execBar4Access
  apply KeepsO.next
  apply Keeps.ite
  intro _
  with_reducible assumption
  intro _
  with_reducible apply Keeps.fields
  split
  apply Keeps.ite
  intro _
  apply Keeps.foldl
  apply freeSnooped_keeps
  apply Keeps.ite
  intro _
  apply hlErr_keeps
  with_reducible assumption
  intro _
  with_reducible assumption
  intro _ _ _
  apply sendSnoop_keeps
  with_reducible assumption
  intro _
  apply Keeps.foldl
  apply Keeps.ite
  intro _
  apply hlErr_keeps
  with_reducible assumption
  intro _
  with_reducible assumption
  intro _ _ _
  apply sendSnoop_keeps
  with_reducible assumption
  apply Keeps.ite
  intro _
  apply devWr_keeps
  apply Keeps.ite
  intro _
  apply hlErr_keeps
  with_reducible assumption
  intro _
  with_reducible assumption
  intro _
  apply Keeps.ite
  intro _
  with_reducible apply Keeps.fields
  apply Keeps.ite
  intro _
  apply hlErr_keeps
  with_reducible assumption
  intro _
  with_reducible assumption
  intro _
  apply devWr_keeps
  with_reducible apply Keeps.fields
  apply Keeps.ite
  intro _
  apply hlErr_keeps
  with_reducible assumption
  intro _
  with_reducible assumption

theorem execLinkDown_keeps {s : State} (k0 : Keeps d s0 s) : KeepsO d s0 (execLinkDown s) := by
  unfold execLinkDown
  apply KeepsO.next
  apply Keeps.ite
  intro _
  with_reducible assumption
  intro _
  apply chrono_keeps
  apply hlErr_keeps
  apply endHostWork_keeps
  with_reducible assumption

theorem execLaneFail_keeps {lane : Nat} {s : State} (k1 : Keeps d s0 s) : KeepsO d s0 (execLaneFail lane s) := by
  unfold execLaneFail
  apply KeepsO.next
  apply Keeps.ite
  intro _
  with_reducible assumption
  intro _
  apply chrono_keeps
  apply hlErr_keeps
  apply setFld_keeps
  apply setFlag_keeps
  with_reducible assumption

theorem execVectorUnmask_keeps {vec : Nat} {s : State} (k1 : Keeps d s0 s) : KeepsO d s0 (execVectorUnmask vec s) := by
  unfold execVectorUnmask
  apply KeepsO.next
  apply hostWr_keeps
  with_reducible assumption
  intro _ _
  apply Keeps.ite
  intro _
  apply unmask_keeps
  with_reducible assumption
  intro _
  with_reducible assumption

theorem execBar4SlideWrite_keeps {val : Word} {s : State} (k1 : Keeps d s0 s) : KeepsO d s0 (execBar4SlideWrite val s) := by
  unfold execBar4SlideWrite
  apply KeepsO.next
  apply hostWr_keeps
  with_reducible assumption
  intro _ _
  apply Keeps.ite
  intro _
  apply hlErr_keeps
  with_reducible assumption
  intro _
  apply setFld_keeps
  with_reducible assumption

theorem stepTime_keeps {s : State} {new : Nat} (k0 : Keeps d s0 s) : Keeps d s0 (stepTime s new) := by
  unfold stepTime
  apply chrono_keeps
  apply setFlag_keeps
  apply stepGens_keeps
  apply stepCal_keeps
  with_reducible assumption

theorem enterTm_keeps {s : State} {n : Nat} (k0 : Keeps d s0 s) : Keeps d s0 (enterTm s n) := by
  unfold enterTm
  apply chrono_keeps
  with_reducible apply Keeps.fields
  apply setFld_keeps
  with_reducible assumption

theorem execAnnounceTimeout_keeps {s : State} (k0 : Keeps d s0 s) : KeepsO d s0 (execAnnounceTimeout s) := by
  unfold execAnnounceTimeout
  apply KeepsO.next
  apply Keeps.ite
  intro _
  with_reducible apply Keeps.fields
  apply enterTm_keeps
  with_reducible assumption
  intro _
  with_reducible assumption

theorem tmAnnounce_keeps {s : State} {utc : Nat} (k0 : Keeps d s0 s) : Keeps d s0 (tmAnnounce s utc) := by
  unfold tmAnnounce
  apply Keeps.ite
  intro _
  apply enterTm_keeps
  with_reducible apply Keeps.fields
  apply setFld_keeps
  with_reducible assumption
  intro _
  with_reducible apply Keeps.fields
  apply setFld_keeps
  with_reducible assumption

theorem execGeneratorCtrlWrite_keeps {gen : Nat} {val : Word} {s : State} (k2 : Keeps d s0 s) : KeepsO d s0 (execGeneratorCtrlWrite gen val s) := by
  unfold execGeneratorCtrlWrite
  apply KeepsO.next
  apply hostWr_keeps
  with_reducible assumption
  intro _ _
  apply Keeps.ite
  intro _
  with_reducible assumption
  intro _
  apply Keeps.ite
  intro _
  apply setFlag_keeps
  with_reducible assumption
  intro _
  apply Keeps.ite
  intro _
  apply setFlag_keeps
  apply putReg_keeps
  with_reducible assumption
  intro _
  apply Keeps.ite
  intro _
  apply aimGen_keeps
  apply putReg_keeps
  with_reducible assumption
  intro _
  apply putReg_keeps
  with_reducible assumption

theorem execRowRelease_keeps {pass : Nat} {s : State} (k1 : Keeps d s0 s) : KeepsO d s0 (execRowRelease pass s) := by
  unfold execRowRelease
  apply KeepsO.next
  with_reducible apply Keeps.fields
  split
  with_reducible assumption
  apply Keeps.ite
  intro _
  with_reducible assumption
  intro _
  with_reducible apply Keeps.fields
  split
  with_reducible assumption
  apply releaseRow_keeps
  with_reducible assumption

theorem readChain_keeps {s : State} {w : Who} {a : List (List (List Byte) → List (Nat × Nat))} {x3 : List (Nat × Nat)} (k0 : Keeps d s0 s) : Keeps d s0 (readChain s w a x3).st := by
  induction a generalizing s x3 with
  | nil =>
    unfold readChain
    with_reducible apply Keeps.fields
    split
    refine prepare_wait (by assumption) ?_
    with_reducible assumption
    refine prepare_fault (by assumption) ?_
    with_reducible assumption
    dsimp only [id, Prep.st, LaneMem.st, Fetched.st, Placed.st, Chain.st, Laid.stOr]
    apply dropArrived_keeps
    refine prepare_ok (by assumption) ?_
    with_reducible assumption
  | cons b l ih =>
    unfold readChain
    with_reducible apply Keeps.fields
    split
    refine prepare_wait (by assumption) ?_
    with_reducible assumption
    refine prepare_fault (by assumption) ?_
    with_reducible assumption
    apply ih
    with_reducible assumption

theorem readChain_wait {s : State} {w : Who} {a : List (List (List Byte) → List (Nat × Nat))} {x3 : List (Nat × Nat)} {t : State} (e : readChain s w a x3 = .wait t) (k0 : Keeps d s0 s) : Keeps d s0 t := by
  have h : Keeps d s0 (readChain s w a x3).st := readChain_keeps k0
  rw [e] at h
  exact h

theorem readChain_fault {s : State} {w : Who} {a : List (List (List Byte) → List (Nat × Nat))} {x3 : List (Nat × Nat)} {t : State} (e : readChain s w a x3 = .fault t) (k0 : Keeps d s0 s) : Keeps d s0 t := by
  have h : Keeps d s0 (readChain s w a x3).st := readChain_keeps k0
  rw [e] at h
  exact h

theorem readChain_ok {s : State} {w : Who} {a : List (List (List Byte) → List (Nat × Nat))} {x3 : List (Nat × Nat)} {c} {t : State} (e : readChain s w a x3 = .ok t c) (k0 : Keeps d s0 s) : Keeps d s0 t := by
  have h : Keeps d s0 (readChain s w a x3).st := readChain_keeps k0
  rw [e] at h
  exact h

theorem enterDrain_keeps {s : State} {id : Nat} {code : Nat} (k0 : Keeps d s0 s) : Keeps d s0 (enterDrain s id code) := by
  unfold enterDrain
  with_reducible apply Keeps.fields
  split
  apply noteFail_keeps
  with_reducible assumption
  apply Keeps.ite
  intro _
  apply noteFail_keeps
  with_reducible assumption
  intro _
  apply Keeps.ite
  intro _
  apply setPass_keeps
  apply noteFail_keeps
  with_reducible assumption
  intro _
  apply Keeps.ite
  intro _
  apply releaseSeg_keeps
  apply noteFail_keeps
  with_reducible assumption
  intro _
  apply setPass_keeps
  apply noteFail_keeps
  with_reducible assumption

theorem execHeapDrain_keeps {pass : Nat} {s : State} (k1 : Keeps d s0 s) : KeepsO d s0 (execHeapDrain pass s) := by
  unfold execHeapDrain
  apply KeepsO.next
  with_reducible apply Keeps.fields
  split
  with_reducible assumption
  apply Keeps.ite
  intro _
  with_reducible assumption
  intro _
  with_reducible apply Keeps.fields
  split
  refine readChain_wait (by assumption) ?_
  with_reducible assumption
  apply setPass_keeps
  refine readChain_fault (by assumption) ?_
  with_reducible assumption
  with_reducible apply Keeps.fields
  split
  apply awaitEv_keeps
  refine readChain_ok (by assumption) ?_
  with_reducible assumption
  apply releaseSeg_keeps
  apply awaitEv_keeps
  refine readChain_ok (by assumption) ?_
  with_reducible assumption
  apply setPass_keeps
  apply awaitEv_keeps
  refine readChain_ok (by assumption) ?_
  with_reducible assumption
  apply Keeps.ite
  intro _
  apply releaseSeg_keeps
  apply awaitEv_keeps
  refine readChain_ok (by assumption) ?_
  with_reducible assumption
  intro _
  apply Keeps.ite
  intro _
  apply awaitEv_keeps
  refine readChain_ok (by assumption) ?_
  with_reducible assumption
  intro _
  apply setPass_keeps
  apply awaitEv_keeps
  refine readChain_ok (by assumption) ?_
  with_reducible assumption

theorem execCrSlotWrite_keeps {slot : Nat} {val : Word} {s : State} (k2 : Keeps d s0 s) : KeepsO d s0 (execCrSlotWrite slot val s) := by
  unfold execCrSlotWrite
  apply KeepsO.next
  apply hostWr_keeps
  with_reducible assumption
  intro _ _
  apply Keeps.ite
  intro _
  with_reducible assumption
  intro _
  apply Keeps.ite
  intro _
  apply setFlag_keeps
  with_reducible assumption
  intro _
  apply putReg_keeps
  with_reducible assumption

theorem execDestroyDrainEnd_keeps {ctx : Nat} {s : State} (k1 : Keeps d s0 s) : KeepsO d s0 (execDestroyDrainEnd ctx s) := by
  unfold execDestroyDrainEnd
  apply KeepsO.next
  apply Keeps.ite
  intro _
  with_reducible assumption
  intro _
  apply Keeps.ite
  intro _
  apply Keeps.ite
  intro _
  with_reducible assumption
  intro _
  apply Keeps.ite
  intro _
  apply destroyAt_keeps
  apply setCtx_keeps
  apply releaseShares_keeps
  apply dropFaults_keeps
  with_reducible assumption
  intro _
  apply destroyAt_keeps
  apply setCtx_keeps
  apply crRelease_keeps
  apply setCtx_keeps
  apply releaseShares_keeps
  apply dropFaults_keeps
  with_reducible assumption
  intro _
  apply Keeps.ite
  intro _
  apply Keeps.ite
  intro _
  apply destroyAt_keeps
  with_reducible assumption
  intro _
  apply destroyAt_keeps
  apply setCtx_keeps
  apply crRelease_keeps
  with_reducible assumption
  intro _
  with_reducible assumption

theorem underflow_keeps {s : State} {o : Nat} {b : Nat} (k0 : Keeps d s0 s) : Keeps d s0 (underflow s o b) := by
  unfold underflow
  apply putBlock_keeps
  apply setOut_keeps
  apply setFlag_keeps
  apply countReg_keeps
  apply Keeps.ite
  intro _
  apply chrono_keeps
  with_reducible assumption
  intro _
  with_reducible assumption

theorem execCrOutCfgWrite_keeps {output : Nat} {val : Word} {s : State} (k2 : Keeps d s0 s) : KeepsO d s0 (execCrOutCfgWrite output val s) := by
  unfold execCrOutCfgWrite
  apply KeepsO.next
  apply hostWr_keeps
  with_reducible assumption
  intro _ _
  apply Keeps.ite
  intro _
  with_reducible assumption
  intro _
  apply Keeps.ite
  intro _
  apply Keeps.ite
  intro _
  apply stopOutput_keeps
  apply putReg_keeps
  with_reducible assumption
  intro _
  apply Keeps.ite
  intro _
  apply putReg_keeps
  with_reducible assumption
  intro _
  apply setFlag_keeps
  with_reducible assumption
  intro _
  apply Keeps.ite
  intro _
  apply putReg_keeps
  with_reducible assumption
  intro _
  apply Keeps.ite
  intro _
  apply Keeps.ite
  intro _
  apply setFlag_keeps
  apply Keeps.ite
  intro _
  apply setFlag_keeps
  apply Keeps.ite
  intro _
  apply setFlag_keeps
  apply putReg_keeps
  with_reducible assumption
  intro _
  apply putReg_keeps
  with_reducible assumption
  intro _
  apply Keeps.ite
  intro _
  apply setFlag_keeps
  apply putReg_keeps
  with_reducible assumption
  intro _
  apply putReg_keeps
  with_reducible assumption
  intro _
  apply Keeps.ite
  intro _
  apply setFlag_keeps
  apply Keeps.ite
  intro _
  apply setFlag_keeps
  apply putReg_keeps
  with_reducible assumption
  intro _
  apply putReg_keeps
  with_reducible assumption
  intro _
  apply Keeps.ite
  intro _
  apply setFlag_keeps
  apply putReg_keeps
  with_reducible assumption
  intro _
  apply putReg_keeps
  with_reducible assumption
  intro _
  apply startOutput_keeps
  apply putReg_keeps
  with_reducible assumption

theorem execBlockUnderflow_keeps {output : Nat} {block : Nat} {s : State} (k2 : Keeps d s0 s) : KeepsO d s0 (execBlockUnderflow output block s) := by
  unfold execBlockUnderflow
  apply KeepsO.next
  apply Keeps.ite
  intro _
  with_reducible assumption
  intro _
  apply underflow_keeps
  with_reducible assumption

theorem tilesReady_keeps {s : State} {o : GwOp} {p : RPass} {k : Nat} {ts : List Nat} (k0 : Keeps d s0 s) : Keeps d s0 (tilesReady s o p k ts).1 := by
  unfold tilesReady
  with_reducible apply Keeps.fields
  split
  with_reducible assumption
  apply Keeps.foldlFst
  with_reducible assumption
  intro _ _ _
  with_reducible apply Keeps.fields
  split
  with_reducible assumption
  with_reducible apply Keeps.fields
  split
  with_reducible assumption
  with_reducible apply Keeps.fields
  split
  extract_lets +onlyGivenNames x; unfold x
  extract_lets +onlyGivenNames x; have hx : Keeps d s0 x.1; (on_goal 2 => clear_value x); unfold x
  apply awaitEv_keeps
  with_reducible assumption
  with_reducible apply Keeps.fields
  split
  with_reducible assumption
  with_reducible assumption
  with_reducible assumption
  apply enterDrain_keeps
  with_reducible assumption
  extract_lets +onlyGivenNames x; unfold x
  extract_lets +onlyGivenNames x; have hx : Keeps d s0 x.1; (on_goal 2 => clear_value x); unfold x
  apply awaitEv_keeps
  with_reducible assumption
  with_reducible apply Keeps.fields
  split
  with_reducible assumption
  with_reducible assumption
  apply enterDrain_keeps
  with_reducible assumption
  apply enterDrain_keeps
  with_reducible assumption

theorem tilesReady_eq {s : State} {o : GwOp} {p : RPass} {k : Nat} {ts : List Nat} {y} {t : State} (e : tilesReady s o p k ts = (t, y)) (k0 : Keeps d s0 s) : Keeps d s0 t := by
  have h : Keeps d s0 (tilesReady s o p k ts).1 := tilesReady_keeps k0
  rw [e] at h
  exact h

theorem swapGroup_keeps {s : State} {l : Nat} {sp : Nat} (k0 : Keeps d s0 s) : Keeps d s0 (swapGroup s l sp) := by
  unfold swapGroup
  apply dropShadow_keeps
  apply chrono_keeps
  with_reducible apply Keeps.fields
  apply syncSpares_keeps
  apply setFld_keeps
  apply retireGroup_keeps
  apply setPhys_keeps
  with_reducible assumption

theorem execForget_keeps {val : Word} {s : State} (k1 : Keeps d s0 s) : KeepsO d s0 (execForget val s) := by
  unfold execForget
  apply KeepsO.next
  apply hostWr_keeps
  with_reducible assumption
  intro _ _
  apply Keeps.ite
  intro _
  apply forgetGw_keeps
  with_reducible assumption
  intro _
  with_reducible assumption

theorem degradeGw_keeps {s : State} {l : Nat} (k0 : Keeps d s0 s) : Keeps d s0 (degradeGw s l) := by
  unfold degradeGw
  apply Keeps.ite
  intro _
  apply fenceFn_keeps
  apply dropShadow_keeps
  apply chrono_keeps
  with_reducible apply Keeps.fields
  apply setFlag_keeps
  apply setFld_keeps
  apply Keeps.foldl
  apply retireGroup_keeps
  with_reducible assumption
  intro _ _ _
  apply setPhys_keeps
  with_reducible assumption
  intro _
  apply dropShadow_keeps
  apply chrono_keeps
  with_reducible apply Keeps.fields
  apply setFlag_keeps
  apply setFld_keeps
  apply Keeps.foldl
  apply retireGroup_keeps
  with_reducible assumption
  intro _ _ _
  apply setPhys_keeps
  with_reducible assumption

theorem deviceReset_keeps {s : State} {src : Nat} (k0 : Keeps d s0 s) : Keeps d s0 (deviceReset s src) := by
  unfold deviceReset
  apply Keeps.ite
  intro _
  apply clearDevice_keeps
  with_reducible assumption
  intro _
  apply countSource_keeps
  apply clearDevice_keeps
  with_reducible assumption

theorem execPinReset_keeps {s : State} (k0 : Keeps d s0 s) : KeepsO d s0 (execPinReset s) := by
  unfold execPinReset
  apply KeepsO.next
  apply deviceReset_keeps
  apply setFlag_keeps
  with_reducible assumption

theorem execRemontoire_keeps {s : State} (k0 : Keeps d s0 s) : KeepsO d s0 (execRemontoire s) := by
  unfold execRemontoire
  apply KeepsO.next
  apply Keeps.ite
  intro _
  apply deviceReset_keeps
  with_reducible assumption
  intro _
  with_reducible assumption

theorem nvmProgram_keeps {s : State} (k0 : Keeps d s0 s) : Keeps d s0 (nvmProgram s) := by
  unfold nvmProgram
  apply nvmStart_keeps
  with_reducible assumption

theorem checkDone_keeps {s : State} (k0 : Keeps d s0 s) : Keeps d s0 (checkDone s) := by
  unfold checkDone
  apply Keeps.ite
  intro _
  with_reducible apply Keeps.fields
  apply Keeps.ite
  intro _
  apply setFlag_keeps
  apply chrono_keeps
  apply chrono_keeps
  apply setFlag_keeps
  apply putReg_keeps
  with_reducible assumption
  intro _
  apply chrono_keeps
  apply setFlag_keeps
  apply putReg_keeps
  with_reducible assumption
  intro _
  with_reducible assumption

theorem nvmErase_keeps {s : State} (k0 : Keeps d s0 s) : Keeps d s0 (nvmErase s) := by
  unfold nvmErase
  apply nvmStart_keeps
  with_reducible assumption

theorem regulatorUp_keeps {s : State} (k0 : Keeps d s0 s) : Keeps d s0 (regulatorUp s) := by
  unfold regulatorUp
  apply driveReady_keeps
  with_reducible apply Keeps.fields
  apply setFn_keeps
  apply setFld_keeps
  with_reducible assumption

theorem execLinkUp_keeps {lanes : Nat} {width : Nat} {speed : Nat} {s : State} (k3 : Keeps d s0 s) : KeepsO d s0 (execLinkUp lanes width speed s) := by
  unfold execLinkUp
  apply KeepsO.next
  apply Keeps.ite
  intro _
  with_reducible assumption
  intro _
  apply checkDone_keeps
  apply driveReady_keeps
  apply setFn_keeps
  with_reducible apply Keeps.fields
  apply putReg_keeps
  with_reducible assumption

theorem execBkRtcSet_keeps {val : Word} {s : State} (k1 : Keeps d s0 s) : KeepsO d s0 (execBkRtcSet val s) := by
  unfold execBkRtcSet
  apply KeepsO.next
  apply hostWr_keeps
  with_reducible assumption
  intro _ _
  apply Keeps.ite
  intro _
  apply stepTime_keeps
  apply setRtc_keeps
  with_reducible assumption
  intro _
  apply setRtc_keeps
  with_reducible assumption

theorem flushHeld_keeps {s : State} (k0 : Keeps d s0 s) : Keeps d s0 (flushHeld s) := by
  unfold flushHeld
  refine Keeps.foldl (Keeps.foldl ?_ (fun x r hx => acceptRec_keeps hx)) (fun x p hx => storeRec_keeps hx)
  exact k0.updCh rfl rfl rfl (fun c => ⟨⟨c.1, c.2.1, Nat.zero_le _, c.2.2.2.1, c.2.2.2.2⟩, fun _ => ⟨Nat.le_refl _, rfl⟩⟩)

theorem execClearCounts_keeps {val : Word} {s : State} (k1 : Keeps d s0 s) : KeepsO d s0 (execClearCounts val s) := by
  unfold execClearCounts
  apply KeepsO.next
  apply hostWr_keeps
  with_reducible assumption
  intro _ _
  apply Keeps.ite
  intro _
  with_reducible apply Keeps.fields
  with_reducible assumption
  intro _
  with_reducible assumption

theorem execProgram_keeps {s : State} (k0 : Keeps d s0 s) : KeepsO d s0 (execProgram s) := by
  unfold execProgram
  apply KeepsO.next
  apply hostWr_keeps
  with_reducible assumption
  intro _ _
  apply nvmProgram_keeps
  with_reducible assumption

theorem execRsForget_keeps {val : Word} {s : State} (k1 : Keeps d s0 s) : KeepsO d s0 (execRsForget val s) := by
  unfold execRsForget
  apply KeepsO.next
  apply hostWr_keeps
  with_reducible assumption
  intro _ _
  apply Keeps.ite
  intro _
  with_reducible assumption
  intro _
  apply Keeps.foldl
  with_reducible assumption
  intro _ _ _
  apply Keeps.ite
  intro _
  apply forgetUnit_keeps
  with_reducible assumption
  intro _
  with_reducible assumption

theorem takeImage_keeps {s : State} {alt : Bool} {fb : Bool} (k0 : Keeps d s0 s) : Keeps d s0 (takeImage s alt fb) := by
  unfold takeImage
  apply Keeps.ite
  intro _
  apply chrono_keeps
  apply setFlag_keeps
  apply setFlag_keeps
  with_reducible assumption
  intro _
  apply setFlag_keeps
  apply setFlag_keeps
  with_reducible assumption

theorem execErase_keeps {s : State} (k0 : Keeps d s0 s) : KeepsO d s0 (execErase s) := by
  unfold execErase
  apply KeepsO.next
  apply hostWr_keeps
  with_reducible assumption
  intro _ _
  apply nvmErase_keeps
  with_reducible assumption

theorem pairwise_poisonIns (l : Nat) (t : List Nat) (h : t.Pairwise (· < ·)) : (poisonIns l t).Pairwise (· < ·) := by
  induction t with
  | nil => exact List.pairwise_singleton _ _
  | cons x t ih =>
    have hx := List.pairwise_cons.1 h
    unfold poisonIns
    split
    · rename_i hl
      refine List.pairwise_cons.2 ⟨fun y hy => ?_, h⟩
      rcases List.mem_cons.1 hy with rfl | hy
      · exact hl
      · have := hx.1 y hy; omega
    · split
      · exact h
      · refine List.pairwise_cons.2 ⟨fun y hy => ?_, ih hx.2⟩
        have mem : ∀ (u : List Nat), y ∈ poisonIns l u → y = l ∨ y ∈ u := by
          intro u
          induction u with
          | nil => intro h; simpa [poisonIns] using h
          | cons z u ihu =>
            unfold poisonIns
            split
            · intro h; simpa using h
            · split
              · intro h; exact .inr h
              · intro h
                rcases List.mem_cons.1 h with rfl | h
                · exact .inr (List.mem_cons_self)
                · rcases ihu h with rfl | h
                  · exact .inl rfl
                  · exact .inr (List.mem_cons_of_mem _ h)
        rcases mem t hy with rfl | hy
        · omega
        · exact hx.1 y hy

theorem execMemoryEccError_keeps {addr : Nat} {double : Bool} {s : State} (k2 : Keeps d s0 s) :
    KeepsO d s0 (execMemoryEccError addr double s) := by
  unfold execMemoryEccError
  refine KeepsO.next (Keeps.ite (fun _ => k2) (fun _ => Keeps.ite (fun _ => ?_) (fun _ => Keeps.ite (fun _ => k2) (fun _ => ?_))))
  · exact noteScrub_keeps (Keeps.fields (countReg_keeps k2))
  · have k3 := countReg_keeps (off := Reg.ER_MEM_UNCORRECTED) (len := 32) (n := 1) k2
    dsimp only
    generalize countReg s _ _ _ = u at k3 ⊢
    exact chrono_keeps (noteScrub_keeps
      (k3.updMem rfl rfl rfl (fun h => ⟨h.1, h.2.1, h.2.2.1, pairwise_poisonIns _ _ h.2.2.2⟩)))

theorem checkerFault_keeps {s : State} {which : Nat} (k0 : Keeps d s0 s) : Keeps d s0 (checkerFault s which) := by
  unfold checkerFault
  apply raiseCause_keeps
  apply setFlag_keeps
  apply chrono_keeps
  with_reducible assumption

theorem execCheckerSelfTest_keeps {aOk : Bool} {bOk : Bool} {s : State} (k2 : Keeps d s0 s) : KeepsO d s0 (execCheckerSelfTest aOk bOk s) := by
  unfold execCheckerSelfTest
  apply KeepsO.next
  apply Keeps.ite
  intro _
  with_reducible assumption
  intro _
  apply Keeps.ite
  intro _
  with_reducible apply Keeps.fields
  split
  with_reducible apply Keeps.fields
  with_reducible apply Keeps.fields
  apply setFlag_keeps
  apply setFlag_keeps
  apply markDone_keeps
  with_reducible assumption
  with_reducible apply Keeps.fields
  apply setFlag_keeps
  apply setFlag_keeps
  apply markDone_keeps
  with_reducible assumption
  intro _
  apply Keeps.ite
  intro _
  apply Keeps.ite
  intro _
  apply setFlag_keeps
  apply setFlag_keeps
  apply markDone_keeps
  with_reducible assumption
  intro _
  apply checkerFault_keeps
  apply setFlag_keeps
  apply setFlag_keeps
  apply markDone_keeps
  with_reducible assumption
  intro _
  apply checkerFault_keeps
  apply Keeps.ite
  intro _
  apply setFlag_keeps
  apply setFlag_keeps
  apply markDone_keeps
  with_reducible assumption
  intro _
  apply checkerFault_keeps
  apply setFlag_keeps
  apply setFlag_keeps
  apply markDone_keeps
  with_reducible assumption

theorem votingFailed_keeps {s : State} (k0 : Keeps d s0 s) : Keeps d s0 (votingFailed s) := by
  unfold votingFailed
  apply Keeps.ite
  intro _
  with_reducible assumption
  intro _
  apply raiseCause_keeps
  apply setFlag_keeps
  apply setFld_keeps
  with_reducible apply Keeps.fields
  with_reducible assumption

theorem clearedRec_keeps {s : State} {mask : Nat} (k0 : Keeps d s0 s)
    (hz : ChOk s0.ch → natBits mask 0 1 = 1 → s.ch.durable = 0) : Keeps d s0 (clearedRec s mask) := by
  unfold clearedRec
  refine Keeps.ite (fun hb => ?_) (fun _ => chrono_keeps k0)
  have main : ∀ u : State, u.fuse = s.fuse → u.pending = s.pending → u.mem = s.mem →
      u.ch.perm.length ≤ 4096 → (u.ch.circ.length ≤ s.ch.circ.length ∨ u.ch.circ.length ≤ 16384) →
      u.ch.held = s.ch.held → u.ch.durable = s.ch.durable → u.ch.erasing = s.ch.erasing → Keeps d s0 u := by
    intro u e1 e2 e3 e4 e5 e6 e7 e8
    refine ⟨e1.trans k0.fuse, e2.trans k0.pending, fun m => e3 ▸ k0.mem m, fun c => ?_, fun x c => ?_⟩
    · have c1 := k0.ch c
      have h0 := hz c hb.1
      refine ⟨e4, ?_, e6 ▸ c1.2.2.1, by omega, fun e => by omega⟩
      have := c1.2.1
      omega
    · have h0 := hz c hb.1
      have h1 := k0.durable x c
      have h2 : s0.ch.durable = 0 := Nat.le_zero.1 (h0 ▸ h1.1)
      refine ⟨by omega, ?_⟩
      rw [h2]; rfl
  have hu := main { s with ch := { s.ch with
      circ := if (s.ch.circ ++ [({ time := calTime s, seq := s.ch.nextSeq, code := Chr.CLEARED, tsrc := rbit s Reg.TM_STATUS 3, perm := true, arg0 := BitVec.ofNat 64 mask } : Rec)]).length > 16384
        then (s.ch.circ ++ [({ time := calTime s, seq := s.ch.nextSeq, code := Chr.CLEARED, tsrc := rbit s Reg.TM_STATUS 3, perm := true, arg0 := BitVec.ofNat 64 mask } : Rec)]).drop 1
        else s.ch.circ ++ [({ time := calTime s, seq := s.ch.nextSeq, code := Chr.CLEARED, tsrc := rbit s Reg.TM_STATUS 3, perm := true, arg0 := BitVec.ofNat 64 mask } : Rec)]
      nextSeq := s.ch.nextSeq + 1
      perm := (({ time := calTime s, seq := s.ch.nextSeq, code := Chr.CLEARED, tsrc := rbit s Reg.TM_STATUS 3, perm := true, arg0 := BitVec.ofNat 64 mask } : Rec) :: s.ch.perm).take 4096 } }
    rfl rfl rfl (List.length_take_le _ _) (by
      dsimp only
      split
      · refine .inl ?_
        rw [List.length_drop, List.length_append, List.length_singleton]; omega
      · rename_i hh
        exact .inr (Nat.le_of_not_lt hh)) rfl rfl rfl
  refine Keeps.ite (fun _ => setFlag_keeps ?_) (fun _ => ?_) <;> exact Keeps.ite (fun _ => setFlag_keeps hu) (fun _ => hu)

theorem exportRun_keeps {s : State} {j : Nat} {a : Nat} (k0 : Keeps d s0 s) : Keeps d s0 (exportRun s j a) := by
  induction a generalizing s with
  | zero =>
    unfold exportRun
    with_reducible assumption
  | succ n ih =>
    unfold exportRun
    with_reducible apply Keeps.fields
    split
    refine prepare_wait (by assumption) ?_
    with_reducible assumption
    apply setJob_keeps
    refine prepare_fault (by assumption) ?_
    with_reducible assumption
    apply ih
    apply setJob_keeps
    apply vaWr_keeps
    refine prepare_ok (by assumption) ?_
    with_reducible assumption

theorem execChronographRecord_keeps {code : Nat} {hasCtx : Bool} {ctx : Nat} {fn : Nat} {arg0 : Dword} {arg1 : Dword} {s : State} (k6 : Keeps d s0 s) : KeepsO d s0 (execChronographRecord code hasCtx ctx fn arg0 arg1 s) := by
  unfold execChronographRecord
  apply KeepsO.next
  apply Keeps.ite
  intro _
  apply chrono_keeps
  with_reducible assumption
  intro _
  with_reducible assumption

theorem execStreamRecordWrite_keeps {off : Nat} {val : Word} {s : State} (k2 : Keeps d s0 s) : KeepsO d s0 (execStreamRecordWrite off val s) := by
  unfold execStreamRecordWrite
  apply KeepsO.next
  apply hostWr_keeps
  with_reducible assumption
  intro _ _
  apply Keeps.ite
  intro _
  with_reducible assumption
  intro _
  apply Keeps.ite
  intro _
  apply setFlag_keeps
  with_reducible assumption
  intro _
  apply putReg_keeps
  with_reducible assumption

theorem execThermCfgWrite_keeps {val : Word} {s : State} (k1 : Keeps d s0 s) : KeepsO d s0 (execThermCfgWrite val s) := by
  unfold execThermCfgWrite
  apply KeepsO.next
  apply hostWr_keeps
  with_reducible assumption
  intro _ _
  apply Keeps.ite
  intro _
  apply retainedDirty_keeps
  apply setFld_keeps
  with_reducible assumption
  intro _
  apply setFlag_keeps
  with_reducible assumption

theorem execPowerOn_keeps {rail : Nat} {mv : Nat} {s : State} (k2 : Keeps d s0 s) : KeepsO d s0 (execPowerOn rail mv s) := by
  unfold execPowerOn
  apply KeepsO.next
  apply Keeps.ite
  intro _
  apply deviceReset_keeps
  apply setFlag_keeps
  with_reducible assumption
  intro _
  apply Keeps.ite
  intro _
  apply deviceReset_keeps
  apply vbakWatch_keeps
  with_reducible apply Keeps.fields
  with_reducible assumption
  intro _
  apply vbakWatch_keeps
  with_reducible apply Keeps.fields
  with_reducible assumption

theorem tripReset_keeps {s : State} {sensor : Nat} (k0 : Keeps d s0 s) : Keeps d s0 (tripReset s sensor) := by
  unfold tripReset
  apply deviceReset_keeps
  with_reducible apply Keeps.fields
  with_reducible assumption

theorem execThermalEvaluation_keeps {s : State} (k0 : Keeps d s0 s) : KeepsO d s0 (execThermalEvaluation s) := by
  unfold execThermalEvaluation
  apply KeepsO.next
  apply Keeps.ite
  intro _
  with_reducible assumption
  intro _
  apply Keeps.ite
  intro _
  apply putReg_keeps
  apply markDone_keeps
  with_reducible assumption
  intro _
  apply Keeps.ite
  intro _
  apply tripReset_keeps
  apply putReg_keeps
  apply markDone_keeps
  with_reducible assumption
  intro _
  apply Keeps.ite
  intro _
  apply tripReset_keeps
  apply putReg_keeps
  apply markDone_keeps
  with_reducible assumption
  intro _
  apply showPace_keeps
  with_reducible apply Keeps.fields
  apply Keeps.ite
  intro _
  apply setFlag_keeps
  apply Keeps.ite
  intro _
  apply setFlag_keeps
  apply setFlag_keeps
  apply setFld_keeps
  apply putReg_keeps
  apply markDone_keeps
  with_reducible assumption
  intro _
  apply setFlag_keeps
  apply setFld_keeps
  apply putReg_keeps
  apply markDone_keeps
  with_reducible assumption
  intro _
  apply Keeps.ite
  intro _
  apply setFlag_keeps
  apply setFlag_keeps
  apply setFld_keeps
  apply putReg_keeps
  apply markDone_keeps
  with_reducible assumption
  intro _
  apply setFlag_keeps
  apply setFld_keeps
  apply putReg_keeps
  apply markDone_keeps
  with_reducible assumption

theorem execThermalTrip_keeps {sensor : Nat} {temp : Int} {s : State} (k2 : Keeps d s0 s) : KeepsO d s0 (execThermalTrip sensor temp s) := by
  unfold execThermalTrip
  apply KeepsO.next
  apply Keeps.ite
  intro _
  with_reducible assumption
  intro _
  apply Keeps.ite
  intro _
  apply tripReset_keeps
  with_reducible apply Keeps.fields
  with_reducible assumption
  intro _
  with_reducible apply Keeps.fields
  with_reducible assumption

theorem execPacingStep_keeps {s : State} (k0 : Keeps d s0 s) : KeepsO d s0 (execPacingStep s) := by
  unfold execPacingStep
  apply KeepsO.next
  apply Keeps.ite
  intro _
  with_reducible assumption
  intro _
  apply showPace_keeps
  apply Keeps.ite
  intro _
  apply chrono_keeps
  apply Keeps.ite
  intro _
  apply setFlag_keeps
  apply Keeps.ite
  intro _
  apply setFlag_keeps
  apply setFlag_keeps
  with_reducible apply Keeps.fields
  apply Keeps.ite
  intro _
  apply markDone_keeps
  with_reducible assumption
  intro _
  apply addWide_keeps
  apply markDone_keeps
  with_reducible assumption
  intro _
  apply setFlag_keeps
  with_reducible apply Keeps.fields
  apply Keeps.ite
  intro _
  apply markDone_keeps
  with_reducible assumption
  intro _
  apply addWide_keeps
  apply markDone_keeps
  with_reducible assumption
  intro _
  apply Keeps.ite
  intro _
  apply setFlag_keeps
  apply setFlag_keeps
  with_reducible apply Keeps.fields
  apply Keeps.ite
  intro _
  apply markDone_keeps
  with_reducible assumption
  intro _
  apply addWide_keeps
  apply markDone_keeps
  with_reducible assumption
  intro _
  apply setFlag_keeps
  with_reducible apply Keeps.fields
  apply Keeps.ite
  intro _
  apply markDone_keeps
  with_reducible assumption
  intro _
  apply addWide_keeps
  apply markDone_keeps
  with_reducible assumption
  intro _
  apply Keeps.ite
  intro _
  apply setFlag_keeps
  apply Keeps.ite
  intro _
  apply setFlag_keeps
  apply setFlag_keeps
  with_reducible apply Keeps.fields
  apply Keeps.ite
  intro _
  apply markDone_keeps
  with_reducible assumption
  intro _
  apply addWide_keeps
  apply markDone_keeps
  with_reducible assumption
  intro _
  apply setFlag_keeps
  with_reducible apply Keeps.fields
  apply Keeps.ite
  intro _
  apply markDone_keeps
  with_reducible assumption
  intro _
  apply addWide_keeps
  apply markDone_keeps
  with_reducible assumption
  intro _
  apply Keeps.ite
  intro _
  apply setFlag_keeps
  apply setFlag_keeps
  with_reducible apply Keeps.fields
  apply Keeps.ite
  intro _
  apply markDone_keeps
  with_reducible assumption
  intro _
  apply addWide_keeps
  apply markDone_keeps
  with_reducible assumption
  intro _
  apply setFlag_keeps
  with_reducible apply Keeps.fields
  apply Keeps.ite
  intro _
  apply markDone_keeps
  with_reducible assumption
  intro _
  apply addWide_keeps
  apply markDone_keeps
  with_reducible assumption

theorem execFmul_keeps {wg : Nat} {beat : Nat} {s : State} (k2 : Keeps d s0 s) : KeepsO d s0 (execFmul wg beat s) := by
  unfold execFmul
  apply KeepsO.next
  apply aluReg_keeps
  with_reducible assumption

theorem execShl_keeps {wg : Nat} {beat : Nat} {s : State} (k2 : Keeps d s0 s) : KeepsO d s0 (execShl wg beat s) := by
  unfold execShl
  apply KeepsO.next
  apply aluReg_keeps
  with_reducible assumption

theorem execPmov_keeps {wg : Nat} {beat : Nat} {s : State} (k2 : Keeps d s0 s) : KeepsO d s0 (execPmov wg beat s) := by
  unfold execPmov
  apply KeepsO.next
  with_reducible apply Keeps.fields
  split
  refine fetchIns_no (by assumption) ?_
  with_reducible assumption
  apply Keeps.ite
  intro _
  apply retire_keeps
  refine fetchIns_here_keeps (by assumption) ?_
  with_reducible assumption
  intro _
  apply Keeps.ite
  intro _
  apply retire_keeps
  refine fetchIns_here_keeps (by assumption) ?_
  with_reducible assumption
  intro _
  apply endWgErr_keeps
  refine fetchIns_here_keeps (by assumption) ?_
  with_reducible assumption

theorem execImin_keeps {wg : Nat} {beat : Nat} {s : State} (k2 : Keeps d s0 s) : KeepsO d s0 (execImin wg beat s) := by
  unfold execImin
  apply KeepsO.next
  apply aluReg_keeps
  with_reducible assumption

theorem execImulhi_keeps {wg : Nat} {beat : Nat} {s : State} (k2 : Keeps d s0 s) : KeepsO d s0 (execImulhi wg beat s) := by
  unfold execImulhi
  apply KeepsO.next
  apply aluReg_keeps
  with_reducible assumption

theorem execHmin2_keeps {wg : Nat} {beat : Nat} {s : State} (k2 : Keeps d s0 s) : KeepsO d s0 (execHmin2 wg beat s) := by
  unfold execHmin2
  apply KeepsO.next
  apply aluReg_keeps
  with_reducible assumption

theorem execFsin_keeps {wg : Nat} {beat : Nat} {s : State} (k2 : Keeps d s0 s) : KeepsO d s0 (execFsin wg beat s) := by
  unfold execFsin
  apply KeepsO.next
  apply aluReg_keeps
  with_reducible assumption

theorem execShfl_keeps {wg : Nat} {beat : Nat} {s : State} (k2 : Keeps d s0 s) : KeepsO d s0 (execShfl wg beat s) := by
  unfold execShfl
  apply KeepsO.next
  apply aluReg_keeps
  with_reducible assumption

theorem execUmin_keeps {wg : Nat} {beat : Nat} {s : State} (k2 : Keeps d s0 s) : KeepsO d s0 (execUmin wg beat s) := by
  unfold execUmin
  apply KeepsO.next
  apply aluReg_keeps
  with_reducible assumption

theorem execFsqrt_keeps {wg : Nat} {beat : Nat} {s : State} (k2 : Keeps d s0 s) : KeepsO d s0 (execFsqrt wg beat s) := by
  unfold execFsqrt
  apply KeepsO.next
  apply aluReg_keeps
  with_reducible assumption

theorem execIsubsat_keeps {wg : Nat} {beat : Nat} {s : State} (k2 : Keeps d s0 s) : KeepsO d s0 (execIsubsat wg beat s) := by
  unfold execIsubsat
  apply KeepsO.next
  apply aluReg_keeps
  with_reducible assumption

theorem execImax_keeps {wg : Nat} {beat : Nat} {s : State} (k2 : Keeps d s0 s) : KeepsO d s0 (execImax wg beat s) := by
  unfold execImax
  apply KeepsO.next
  apply aluReg_keeps
  with_reducible assumption

theorem execXorBits_keeps {wg : Nat} {beat : Nat} {s : State} (k2 : Keeps d s0 s) : KeepsO d s0 (execXorBits wg beat s) := by
  unfold execXorBits
  apply KeepsO.next
  apply aluReg_keeps
  with_reducible assumption

theorem execClz_keeps {wg : Nat} {beat : Nat} {s : State} (k2 : Keeps d s0 s) : KeepsO d s0 (execClz wg beat s) := by
  unfold execClz
  apply KeepsO.next
  apply aluReg_keeps
  with_reducible assumption

theorem execHmul2_keeps {wg : Nat} {beat : Nat} {s : State} (k2 : Keeps d s0 s) : KeepsO d s0 (execHmul2 wg beat s) := by
  unfold execHmul2
  apply KeepsO.next
  apply aluReg_keeps
  with_reducible assumption

theorem execFexp2_keeps {wg : Nat} {beat : Nat} {s : State} (k2 : Keeps d s0 s) : KeepsO d s0 (execFexp2 wg beat s) := by
  unfold execFexp2
  apply KeepsO.next
  apply aluReg_keeps
  with_reducible assumption

theorem execFmin_keeps {wg : Nat} {beat : Nat} {s : State} (k2 : Keeps d s0 s) : KeepsO d s0 (execFmin wg beat s) := by
  unfold execFmin
  apply KeepsO.next
  apply aluReg_keeps
  with_reducible assumption

theorem execFrcp_keeps {wg : Nat} {beat : Nat} {s : State} (k2 : Keeps d s0 s) : KeepsO d s0 (execFrcp wg beat s) := by
  unfold execFrcp
  apply KeepsO.next
  apply aluReg_keeps
  with_reducible assumption

theorem execIsub_keeps {wg : Nat} {beat : Nat} {s : State} (k2 : Keeps d s0 s) : KeepsO d s0 (execIsub wg beat s) := by
  unfold execIsub
  apply KeepsO.next
  apply aluReg_keeps
  with_reducible assumption

theorem execFfma_keeps {wg : Nat} {beat : Nat} {s : State} (k2 : Keeps d s0 s) : KeepsO d s0 (execFfma wg beat s) := by
  unfold execFfma
  apply KeepsO.next
  apply aluReg_keeps
  with_reducible assumption

theorem execFrsq_keeps {wg : Nat} {beat : Nat} {s : State} (k2 : Keeps d s0 s) : KeepsO d s0 (execFrsq wg beat s) := by
  unfold execFrsq
  apply KeepsO.next
  apply aluReg_keeps
  with_reducible assumption

theorem execImul_keeps {wg : Nat} {beat : Nat} {s : State} (k2 : Keeps d s0 s) : KeepsO d s0 (execImul wg beat s) := by
  unfold execImul
  apply KeepsO.next
  apply aluReg_keeps
  with_reducible assumption

theorem execFdiv_keeps {wg : Nat} {beat : Nat} {s : State} (k2 : Keeps d s0 s) : KeepsO d s0 (execFdiv wg beat s) := by
  unfold execFdiv
  apply KeepsO.next
  apply aluReg_keeps
  with_reducible assumption

theorem execPopc_keeps {wg : Nat} {beat : Nat} {s : State} (k2 : Keeps d s0 s) : KeepsO d s0 (execPopc wg beat s) := by
  unfold execPopc
  apply KeepsO.next
  apply aluReg_keeps
  with_reducible assumption

theorem execDdx_keeps {wg : Nat} {beat : Nat} {s : State} (k2 : Keeps d s0 s) : KeepsO d s0 (execDdx wg beat s) := by
  unfold execDdx
  apply KeepsO.next
  apply aluReg_keeps
  with_reducible assumption

theorem execIadd2_keeps {wg : Nat} {beat : Nat} {s : State} (k2 : Keeps d s0 s) : KeepsO d s0 (execIadd2 wg beat s) := by
  unfold execIadd2
  apply KeepsO.next
  apply aluReg_keeps
  with_reducible assumption

theorem execIaddi_keeps {wg : Nat} {beat : Nat} {s : State} (k2 : Keeps d s0 s) : KeepsO d s0 (execIaddi wg beat s) := by
  unfold execIaddi
  apply KeepsO.next
  apply aluReg_keeps
  with_reducible assumption

theorem execFcmp_keeps {wg : Nat} {beat : Nat} {s : State} (k2 : Keeps d s0 s) : KeepsO d s0 (execFcmp wg beat s) := by
  unfold execFcmp
  apply KeepsO.next
  apply aluPred_keeps
  with_reducible assumption

theorem execMov_keeps {wg : Nat} {beat : Nat} {s : State} (k2 : Keeps d s0 s) : KeepsO d s0 (execMov wg beat s) := by
  unfold execMov
  apply KeepsO.next
  apply aluReg_keeps
  with_reducible assumption

theorem execSel_keeps {wg : Nat} {beat : Nat} {s : State} (k2 : Keeps d s0 s) : KeepsO d s0 (execSel wg beat s) := by
  unfold execSel
  apply KeepsO.next
  apply aluReg_keeps
  with_reducible assumption

theorem execPlop_keeps {wg : Nat} {beat : Nat} {s : State} (k2 : Keeps d s0 s) : KeepsO d s0 (execPlop wg beat s) := by
  unfold execPlop
  apply KeepsO.next
  with_reducible apply Keeps.fields
  split
  refine fetchIns_no (by assumption) ?_
  with_reducible assumption
  apply Keeps.ite
  intro _
  apply retire_keeps
  refine fetchIns_here_keeps (by assumption) ?_
  with_reducible assumption
  intro _
  apply endWgErr_keeps
  refine fetchIns_here_keeps (by assumption) ?_
  with_reducible assumption

theorem execFadd_keeps {wg : Nat} {beat : Nat} {s : State} (k2 : Keeps d s0 s) : KeepsO d s0 (execFadd wg beat s) := by
  unfold execFadd
  apply KeepsO.next
  apply aluReg_keeps
  with_reducible assumption

theorem execHfma2_keeps {wg : Nat} {beat : Nat} {s : State} (k2 : Keeps d s0 s) : KeepsO d s0 (execHfma2 wg beat s) := by
  unfold execHfma2
  apply KeepsO.next
  apply aluReg_keeps
  with_reducible assumption

theorem execMovi_keeps {wg : Nat} {beat : Nat} {s : State} (k2 : Keeps d s0 s) : KeepsO d s0 (execMovi wg beat s) := by
  unfold execMovi
  apply KeepsO.next
  apply aluReg_keeps
  with_reducible assumption

theorem execVote_keeps {wg : Nat} {beat : Nat} {s : State} (k2 : Keeps d s0 s) : KeepsO d s0 (execVote wg beat s) := by
  unfold execVote
  apply KeepsO.next
  with_reducible apply Keeps.fields
  split
  refine fetchIns_no (by assumption) ?_
  with_reducible assumption
  apply Keeps.ite
  intro _
  apply retire_keeps
  refine fetchIns_here_keeps (by assumption) ?_
  with_reducible assumption
  intro _
  apply endWgErr_keeps
  refine fetchIns_here_keeps (by assumption) ?_
  with_reducible assumption

theorem execHmax2_keeps {wg : Nat} {beat : Nat} {s : State} (k2 : Keeps d s0 s) : KeepsO d s0 (execHmax2 wg beat s) := by
  unfold execHmax2
  apply KeepsO.next
  apply aluReg_keeps
  with_reducible assumption

theorem execShr_keeps {wg : Nat} {beat : Nat} {s : State} (k2 : Keeps d s0 s) : KeepsO d s0 (execShr wg beat s) := by
  unfold execShr
  apply KeepsO.next
  apply aluReg_keeps
  with_reducible assumption

theorem execCvt_keeps {wg : Nat} {beat : Nat} {s : State} (k2 : Keeps d s0 s) : KeepsO d s0 (execCvt wg beat s) := by
  unfold execCvt
  apply KeepsO.next
  with_reducible apply Keeps.fields
  split
  refine fetchIns_no (by assumption) ?_
  with_reducible assumption
  apply Keeps.ite
  intro _
  apply retire_keeps
  refine fetchIns_here_keeps (by assumption) ?_
  with_reducible assumption
  intro _
  apply endWgErr_keeps
  refine fetchIns_here_keeps (by assumption) ?_
  with_reducible assumption

theorem execHadd2_keeps {wg : Nat} {beat : Nat} {s : State} (k2 : Keeps d s0 s) : KeepsO d s0 (execHadd2 wg beat s) := by
  unfold execHadd2
  apply KeepsO.next
  apply aluReg_keeps
  with_reducible assumption

theorem execIadd_keeps {wg : Nat} {beat : Nat} {s : State} (k2 : Keeps d s0 s) : KeepsO d s0 (execIadd wg beat s) := by
  unfold execIadd
  apply KeepsO.next
  apply aluReg_keeps
  with_reducible assumption

theorem execAndBits_keeps {wg : Nat} {beat : Nat} {s : State} (k2 : Keeps d s0 s) : KeepsO d s0 (execAndBits wg beat s) := by
  unfold execAndBits
  apply KeepsO.next
  apply aluReg_keeps
  with_reducible assumption

theorem execImad_keeps {wg : Nat} {beat : Nat} {s : State} (k2 : Keeps d s0 s) : KeepsO d s0 (execImad wg beat s) := by
  unfold execImad
  apply KeepsO.next
  apply aluReg_keeps
  with_reducible assumption

theorem execFcos_keeps {wg : Nat} {beat : Nat} {s : State} (k2 : Keeps d s0 s) : KeepsO d s0 (execFcos wg beat s) := by
  unfold execFcos
  apply KeepsO.next
  apply aluReg_keeps
  with_reducible assumption

theorem execUcmp_keeps {wg : Nat} {beat : Nat} {s : State} (k2 : Keeps d s0 s) : KeepsO d s0 (execUcmp wg beat s) := by
  unfold execUcmp
  apply KeepsO.next
  apply aluPred_keeps
  with_reducible assumption

theorem execHcmp2_keeps {wg : Nat} {beat : Nat} {s : State} (k2 : Keeps d s0 s) : KeepsO d s0 (execHcmp2 wg beat s) := by
  unfold execHcmp2
  apply KeepsO.next
  with_reducible apply Keeps.fields
  split
  refine fetchIns_no (by assumption) ?_
  with_reducible assumption
  apply Keeps.ite
  intro _
  apply retire_keeps
  refine fetchIns_here_keeps (by assumption) ?_
  with_reducible assumption
  intro _
  apply endWgErr_keeps
  refine fetchIns_here_keeps (by assumption) ?_
  with_reducible assumption

theorem execDdy_keeps {wg : Nat} {beat : Nat} {s : State} (k2 : Keeps d s0 s) : KeepsO d s0 (execDdy wg beat s) := by
  unfold execDdy
  apply KeepsO.next
  apply aluReg_keeps
  with_reducible assumption

theorem execFlog2_keeps {wg : Nat} {beat : Nat} {s : State} (k2 : Keeps d s0 s) : KeepsO d s0 (execFlog2 wg beat s) := by
  unfold execFlog2
  apply KeepsO.next
  apply aluReg_keeps
  with_reducible assumption

theorem execOrBits_keeps {wg : Nat} {beat : Nat} {s : State} (k2 : Keeps d s0 s) : KeepsO d s0 (execOrBits wg beat s) := by
  unfold execOrBits
  apply KeepsO.next
  apply aluReg_keeps
  with_reducible assumption

theorem execFmax_keeps {wg : Nat} {beat : Nat} {s : State} (k2 : Keeps d s0 s) : KeepsO d s0 (execFmax wg beat s) := by
  unfold execFmax
  apply KeepsO.next
  apply aluReg_keeps
  with_reducible assumption

theorem execIcmp_keeps {wg : Nat} {beat : Nat} {s : State} (k2 : Keeps d s0 s) : KeepsO d s0 (execIcmp wg beat s) := by
  unfold execIcmp
  apply KeepsO.next
  apply aluPred_keeps
  with_reducible assumption

theorem execBfe_keeps {wg : Nat} {beat : Nat} {s : State} (k2 : Keeps d s0 s) : KeepsO d s0 (execBfe wg beat s) := by
  unfold execBfe
  apply KeepsO.next
  apply aluReg_keeps
  with_reducible assumption

end Sys2Proof.Machine
end

