-- ==== Sys2Proof/Laws/KeepsD.lean ====
section
/-! SUPPORT. Every operation of the part keeps the relation `Keeps` (operations in the order in which they use
one another): one lemma for each, used by the next. -/

namespace Sys2Proof.Machine

variable {d : Prop} {s0 : State}

theorem execSar_keeps {wg : Nat} {beat : Nat} {s : State} (k2 : Keeps d s0 s) : KeepsO d s0 (execSar wg beat s) := by
  unfold execSar
  apply KeepsO.next
  apply aluReg_keeps
  with_reducible assumption

theorem execIaddsat_keeps {wg : Nat} {beat : Nat} {s : State} (k2 : Keeps d s0 s) : KeepsO d s0 (execIaddsat wg beat s) := by
  unfold execIaddsat
  apply KeepsO.next
  apply aluReg_keeps
  with_reducible assumption

theorem execUmax_keeps {wg : Nat} {beat : Nat} {s : State} (k2 : Keeps d s0 s) : KeepsO d s0 (execUmax wg beat s) := by
  unfold execUmax
  apply KeepsO.next
  apply aluReg_keeps
  with_reducible assumption

theorem execEndLanes_keeps {wg : Nat} {beat : Nat} {s : State} (k2 : Keeps d s0 s) : KeepsO d s0 (execEndLanes wg beat s) := by
  unfold execEndLanes
  apply KeepsO.next
  with_reducible apply Keeps.fields
  split
  refine fetchIns_no (by assumption) ?_
  with_reducible assumption
  apply checkBar_keeps
  apply retire_keeps
  refine fetchIns_here_keeps (by assumption) ?_
  with_reducible assumption

theorem execCall_keeps {wg : Nat} {beat : Nat} {s : State} (k2 : Keeps d s0 s) : KeepsO d s0 (execCall wg beat s) := by
  unfold execCall
  apply KeepsO.next
  with_reducible apply Keeps.fields
  split
  refine fetchIns_no (by assumption) ?_
  with_reducible assumption
  apply Keeps.ite
  intro _
  apply retire_keeps
  refine fetchIns_here_keeps (by assumption) ?_
  with_reducible assumption
  intro _
  apply Keeps.ite
  intro _
  apply endWgErr_keeps
  refine fetchIns_here_keeps (by assumption) ?_
  with_reducible assumption
  intro _
  apply jumpTo_keeps
  refine fetchIns_here_keeps (by assumption) ?_
  with_reducible assumption

theorem execBra_keeps {wg : Nat} {beat : Nat} {s : State} (k2 : Keeps d s0 s) : KeepsO d s0 (execBra wg beat s) := by
  unfold execBra
  apply KeepsO.next
  with_reducible apply Keeps.fields
  split
  refine fetchIns_no (by assumption) ?_
  with_reducible assumption
  apply Keeps.ite
  intro _
  apply jumpTo_keeps
  refine fetchIns_here_keeps (by assumption) ?_
  with_reducible assumption
  intro _
  apply retire_keeps
  refine fetchIns_here_keeps (by assumption) ?_
  with_reducible assumption

theorem execDiscard_keeps {wg : Nat} {beat : Nat} {s : State} (k2 : Keeps d s0 s) : KeepsO d s0 (execDiscard wg beat s) := by
  unfold execDiscard
  apply KeepsO.next
  with_reducible apply Keeps.fields
  split
  refine fetchIns_no (by assumption) ?_
  with_reducible assumption
  apply Keeps.ite
  intro _
  apply endWgErr_keeps
  refine fetchIns_here_keeps (by assumption) ?_
  with_reducible assumption
  intro _
  apply checkBar_keeps
  apply retire_keeps
  refine fetchIns_here_keeps (by assumption) ?_
  with_reducible assumption

theorem execS2r_keeps {wg : Nat} {beat : Nat} {s : State} (k2 : Keeps d s0 s) : KeepsO d s0 (execS2r wg beat s) := by
  unfold execS2r
  apply KeepsO.next
  apply aluReg_keeps
  with_reducible assumption

theorem execPinionNop_keeps {wg : Nat} {beat : Nat} {s : State} (k2 : Keeps d s0 s) : KeepsO d s0 (execPinionNop wg beat s) := by
  unfold execPinionNop
  apply KeepsO.next
  with_reducible apply Keeps.fields
  split
  refine fetchIns_no (by assumption) ?_
  with_reducible assumption
  apply retire_keeps
  refine fetchIns_here_keeps (by assumption) ?_
  with_reducible assumption

theorem execBar_keeps {wg : Nat} {beat : Nat} {s : State} (k2 : Keeps d s0 s) : KeepsO d s0 (execBar wg beat s) := by
  unfold execBar
  apply KeepsO.next
  with_reducible apply Keeps.fields
  split
  refine fetchIns_no (by assumption) ?_
  with_reducible assumption
  apply Keeps.ite
  intro _
  apply retire_keeps
  refine fetchIns_here_keeps (by assumption) ?_
  with_reducible assumption
  intro _
  apply checkBar_keeps
  apply retire_keeps
  refine fetchIns_here_keeps (by assumption) ?_
  with_reducible assumption

theorem execRet_keeps {wg : Nat} {beat : Nat} {s : State} (k2 : Keeps d s0 s) : KeepsO d s0 (execRet wg beat s) := by
  unfold execRet
  apply KeepsO.next
  with_reducible apply Keeps.fields
  split
  refine fetchIns_no (by assumption) ?_
  with_reducible assumption
  apply Keeps.ite
  intro _
  apply retire_keeps
  refine fetchIns_here_keeps (by assumption) ?_
  with_reducible assumption
  intro _
  with_reducible apply Keeps.fields
  split
  apply endWgErr_keeps
  refine fetchIns_here_keeps (by assumption) ?_
  with_reducible assumption
  apply jumpTo_keeps
  refine fetchIns_here_keeps (by assumption) ?_
  with_reducible assumption

theorem reportStuck_keeps {s : State} {c : Nat} (k0 : Keeps d s0 s) : Keeps d s0 (reportStuck s c) := by
  unfold reportStuck
  apply Keeps.ite
  intro _
  apply chrono_keeps
  apply setFlag_keeps
  apply setCtx_keeps
  with_reducible assumption
  intro _
  with_reducible assumption

theorem execRcRegisterRead_keeps {off : Nat} {s : State} (k1 : Keeps d s0 s) : KeepsO d s0 (execRcRegisterRead off s) := by
  unfold execRcRegisterRead
  apply KeepsO.next
  apply hostRead_keeps
  with_reducible assumption

theorem nvmCtrlWrite_keeps {s : State} {val : Word} (k0 : Keeps d s0 s) : Keeps d s0 (nvmCtrlWrite s val) := by
  unfold nvmCtrlWrite
  apply Keeps.ite
  intro _
  apply setFlag_keeps
  with_reducible assumption
  intro _
  apply Keeps.ite
  intro _
  apply nvmErase_keeps
  apply Keeps.ite
  intro _
  apply nvmProgram_keeps
  with_reducible assumption
  intro _
  with_reducible assumption
  intro _
  apply Keeps.ite
  intro _
  apply nvmProgram_keeps
  with_reducible assumption
  intro _
  with_reducible assumption

theorem msixWrite_keeps {s : State} {i : Nat} {val : Word} (k0 : Keeps d s0 s) : Keeps d s0 (msixWrite s i val) := by
  unfold msixWrite
  apply Keeps.ite
  intro _
  apply setVec_keeps
  with_reducible assumption
  intro _
  apply Keeps.ite
  intro _
  apply setVec_keeps
  with_reducible assumption
  intro _
  apply Keeps.ite
  intro _
  apply setVec_keeps
  with_reducible assumption
  intro _
  apply Keeps.ite
  intro _
  apply setVec_keeps
  with_reducible assumption
  intro _
  apply Keeps.ite
  intro _
  apply after_keeps
  with_reducible assumption
  intro _ _
  apply execVectorUnmask_keeps
  with_reducible assumption
  intro _
  with_reducible assumption

theorem rasterise_keeps {s : State} {g : Eng} {q : PInfo} (k0 : Keeps d s0 s) : Keeps d s0 (rasterise s g q).1 := by
  unfold rasterise
  apply Keeps.foldlFst
  with_reducible assumption
  intro _ _ _
  apply Keeps.foldlFst
  with_reducible assumption
  intro _ _ _
  with_reducible apply Keeps.fields
  split
  with_reducible assumption
  apply testHere_keeps
  with_reducible assumption

theorem rasterise_eq {s : State} {g : Eng} {q : PInfo} {y} {t : State} (e : rasterise s g q = (t, y)) (k0 : Keeps d s0 s) : Keeps d s0 t := by
  have h : Keeps d s0 (rasterise s g q).1 := rasterise_keeps k0
  rw [e] at h
  exact h

theorem blendPixel_keeps {s : State} {g : Eng} {q : PInfo} {table : List Byte} {k : Colour} {f : FragLane} {b : Beat} (k0 : Keeps d s0 s) : Keeps d s0 (blendPixel s g q table k f b) := by
  unfold blendPixel
  apply Keeps.foldl
  with_reducible assumption
  intro _ _ _
  apply Keeps.ite
  intro _
  with_reducible apply Keeps.fields
  split
  with_reducible apply Keeps.fields
  split
  with_reducible assumption
  apply testHere_keeps
  with_reducible assumption
  with_reducible assumption
  intro _
  apply Keeps.foldl
  with_reducible apply Keeps.fields
  split
  with_reducible apply Keeps.fields
  split
  with_reducible assumption
  apply testHere_keeps
  with_reducible assumption
  with_reducible assumption
  intro _ _ _
  apply Keeps.foldl
  with_reducible assumption
  intro _ _ _
  apply tileWr_keeps
  with_reducible assumption

theorem shadeDone_keeps {s : State} {g : Eng} (k0 : Keeps d s0 s) : Keeps d s0 (shadeDone s g) := by
  unfold shadeDone
  with_reducible apply Keeps.fields
  split
  refine readChain_wait (by assumption) ?_
  with_reducible assumption
  apply enterDrain_keeps
  refine readChain_fault (by assumption) ?_
  with_reducible assumption
  with_reducible apply Keeps.fields
  split
  apply Eng.put_keeps
  apply dropWgs_keeps
  apply Keeps.foldl
  refine readChain_ok (by assumption) ?_
  with_reducible assumption
  intro _ _ _
  with_reducible apply Keeps.fields
  split
  apply Keeps.ite
  intro _
  apply blendPixel_keeps
  with_reducible assumption
  intro _
  with_reducible assumption
  with_reducible assumption
  refine readChain_ok (by assumption) ?_
  with_reducible assumption

theorem stagePre_keeps {s : State} {g : Eng} (k0 : Keeps d s0 s) : Keeps d s0 (stagePre s g) := by
  unfold stagePre
  with_reducible apply Keeps.fields
  split
  refine readChain_wait (by assumption) ?_
  with_reducible assumption
  apply enterDrain_keeps
  refine readChain_fault (by assumption) ?_
  with_reducible assumption
  apply Eng.put_keeps
  refine readChain_ok (by assumption) ?_
  with_reducible assumption

theorem shadeNext_keeps {s : State} {g : Eng} {prim : Nat} {rest : List Nat} (k0 : Keeps d s0 s) : Keeps d s0 (shadeNext s g prim rest) := by
  unfold shadeNext
  with_reducible apply Keeps.fields
  split
  refine readChain_wait (by assumption) ?_
  with_reducible assumption
  apply enterDrain_keeps
  refine readChain_fault (by assumption) ?_
  with_reducible assumption
  with_reducible apply Keeps.fields
  split
  apply Keeps.ite
  intro _
  apply Eng.put_keeps
  apply countReg_keeps
  apply onPass_keeps
  apply rasterise_keeps
  refine readChain_ok (by assumption) ?_
  with_reducible assumption
  intro _
  apply sendFrags_keeps
  apply countReg_keeps
  apply onPass_keeps
  apply rasterise_keeps
  refine readChain_ok (by assumption) ?_
  with_reducible assumption
  refine readChain_ok (by assumption) ?_
  with_reducible assumption

theorem stageShade_keeps {s : State} {g : Eng} (k0 : Keeps d s0 s) : Keeps d s0 (stageShade s g) := by
  unfold stageShade
  apply Keeps.ite
  intro _
  apply Keeps.ite
  intro _
  apply shadeDone_keeps
  with_reducible assumption
  intro _
  with_reducible assumption
  intro _
  with_reducible apply Keeps.fields
  split
  apply shadeNext_keeps
  with_reducible assumption
  apply Eng.put_keeps
  with_reducible assumption

theorem stageLoad_keeps {s : State} {g : Eng} (k0 : Keeps d s0 s) : Keeps d s0 (stageLoad s g) := by
  unfold stageLoad
  with_reducible apply Keeps.fields
  split
  refine readChain_wait (by assumption) ?_
  with_reducible assumption
  apply Keeps.ite
  intro _
  apply loaded_keeps
  apply Keeps.foldl
  apply noteFail_keeps
  refine readChain_fault (by assumption) ?_
  with_reducible assumption
  intro _ _ _
  apply putRuns_keeps
  with_reducible assumption
  intro _
  with_reducible apply Keeps.fields
  split
  refine readChain_wait (by assumption) ?_
  apply noteFail_keeps
  refine readChain_fault (by assumption) ?_
  with_reducible assumption
  apply enterDrain_keeps
  refine readChain_fault (by assumption) ?_
  apply noteFail_keeps
  refine readChain_fault (by assumption) ?_
  with_reducible assumption
  with_reducible apply Keeps.fields
  split
  refine readChain_wait (by assumption) ?_
  refine readChain_ok (by assumption) ?_
  apply noteFail_keeps
  refine readChain_fault (by assumption) ?_
  with_reducible assumption
  apply enterDrain_keeps
  refine readChain_fault (by assumption) ?_
  refine readChain_ok (by assumption) ?_
  apply noteFail_keeps
  refine readChain_fault (by assumption) ?_
  with_reducible assumption
  apply loaded_keeps
  apply Keeps.foldl
  refine readChain_ok (by assumption) ?_
  refine readChain_ok (by assumption) ?_
  apply noteFail_keeps
  refine readChain_fault (by assumption) ?_
  with_reducible assumption
  intro _ _ _
  apply putRuns_keeps
  with_reducible assumption
  apply Keeps.ite
  intro _
  apply loaded_keeps
  apply Keeps.foldl
  refine readChain_ok (by assumption) ?_
  with_reducible assumption
  intro _ _ _
  apply putRuns_keeps
  with_reducible assumption
  intro _
  with_reducible apply Keeps.fields
  split
  refine readChain_wait (by assumption) ?_
  refine readChain_ok (by assumption) ?_
  with_reducible assumption
  apply enterDrain_keeps
  refine readChain_fault (by assumption) ?_
  refine readChain_ok (by assumption) ?_
  with_reducible assumption
  with_reducible apply Keeps.fields
  split
  refine readChain_wait (by assumption) ?_
  refine readChain_ok (by assumption) ?_
  refine readChain_ok (by assumption) ?_
  with_reducible assumption
  apply enterDrain_keeps
  refine readChain_fault (by assumption) ?_
  refine readChain_ok (by assumption) ?_
  refine readChain_ok (by assumption) ?_
  with_reducible assumption
  apply loaded_keeps
  apply Keeps.foldl
  refine readChain_ok (by assumption) ?_
  refine readChain_ok (by assumption) ?_
  refine readChain_ok (by assumption) ?_
  with_reducible assumption
  intro _ _ _
  apply putRuns_keeps
  with_reducible assumption

theorem laneMem_keeps {s : State} {w : Who} {accs : List (Nat × Acc)} (k0 : Keeps d s0 s) : Keeps d s0 (laneMem s w accs).st := by
  unfold laneMem
  extract_lets +onlyGivenNames x; unfold x
  extract_lets +onlyGivenNames x; unfold x
  with_reducible apply Keeps.fields
  split
  refine prepare_wait (by assumption) ?_
  with_reducible assumption
  dsimp only [id, Prep.st, LaneMem.st, Fetched.st, Placed.st, Chain.st, Laid.stOr]
  apply Keeps.foldl
  refine prepare_ok (by assumption) ?_
  with_reducible assumption
  intro _ _ _
  apply takeFault_keeps
  with_reducible assumption
  refine prepare_fault (by assumption) ?_
  with_reducible assumption

theorem laneMem_wait {s : State} {w : Who} {accs : List (Nat × Acc)} {t : State} (e : laneMem s w accs = .wait t) (k0 : Keeps d s0 s) : Keeps d s0 t := by
  have h : Keeps d s0 (laneMem s w accs).st := laneMem_keeps k0
  rw [e] at h
  exact h

theorem laneMem_go {s : State} {w : Who} {accs : List (Nat × Acc)} {m b} {t : State} (e : laneMem s w accs = .go t m b) (k0 : Keeps d s0 s) : Keeps d s0 t := by
  have h : Keeps d s0 (laneMem s w accs).st := laneMem_keeps k0
  rw [e] at h
  exact h

theorem withMem_keeps {s : State} {w : Who} {accs : List Acc} {ok : State → PageMap → State} {fail : State → Nat → State}
    (k0 : Keeps d s0 s) (k3 : ∀ a0 a1, Keeps d s0 a0 → Keeps d s0 (ok a0 a1))
    (k4 : ∀ a0 a1, Keeps d s0 a0 → Keeps d s0 (fail a0 a1)) : Keeps d s0 (withMem s w accs ok fail) := by
  unfold withMem
  split
  · rename_i h; exact prepare_wait h k0
  · rename_i h; exact k4 _ _ (prepare_fault h k0)
  · rename_i h; exact Keeps.fields (k3 _ _ (prepare_ok h k0))

theorem fenceCtxWork_keeps {s : State} {c : Nat} (k0 : Keeps d s0 s) : Keeps d s0 (fenceCtxWork s c) := by
  unfold fenceCtxWork
  exact Keeps.fields (Keeps.ite (fun _ => dropConts_keeps k0.fields) (fun _ => k0))

theorem fenceCtx_keeps {s : State} {c : Nat} {source : Nat} (k0 : Keeps d s0 s) : Keeps d s0 (fenceCtx s c source) := by
  unfold fenceCtx
  refine Keeps.ite (fun _ => ?_) (fun _ => k0)
  have k1 : Keeps d s0 { s with rg := { s.rg with fenceClock := s.rg.fenceClock + 1 } } := k0.fields
  have k2 := setCtx_keeps (c := c) (x := { ctxOf s c with st := .fenced, fencedAt := s.rg.fenceClock + 1 }) k1
  dsimp only
  generalize setCtx _ c _ = u at k2 ⊢
  exact fenceCtxWork_keeps (chrono_keeps (setFlag_keeps (closeStreams_keeps (fenceJobs_keeps k2.fields))))

theorem completeDesc_keeps {s : State} {id : Nat} (k0 : Keeps d s0 s) : Keeps d s0 (completeDesc s id) := by
  unfold completeDesc
  with_reducible apply Keeps.fields
  split
  with_reducible assumption
  apply Keeps.ite
  intro _
  with_reducible assumption
  intro _
  with_reducible apply Keeps.fields
  split
  apply completeRest_keeps
  with_reducible assumption
  apply withMem_keeps
  with_reducible assumption
  intro _ _ _
  apply completeRest_keeps
  apply vaWr_keeps
  with_reducible assumption
  intro _ _ _
  apply completeRest_keeps
  with_reducible assumption

theorem endDesc_keeps {s : State} {id : Nat} {status : Nat} (k0 : Keeps d s0 s) : Keeps d s0 (endDesc s id status) := by
  unfold endDesc
  apply completeDesc_keeps
  apply finishDesc_keeps
  with_reducible assumption

theorem execDescriptorComplete_keeps {desc : Nat} {s : State} (k1 : Keeps d s0 s) : KeepsO d s0 (execDescriptorComplete desc s) := by
  unfold execDescriptorComplete
  apply KeepsO.next
  apply completeDesc_keeps
  with_reducible assumption

theorem execEventWait_keeps {desc : Nat} {s : State} (k1 : Keeps d s0 s) : KeepsO d s0 (execEventWait desc s) := by
  unfold execEventWait
  apply KeepsO.next
  with_reducible apply Keeps.fields
  split
  with_reducible assumption
  apply endDesc_keeps
  with_reducible assumption

theorem execEventRecord_keeps {desc : Nat} {s : State} (k1 : Keeps d s0 s) : KeepsO d s0 (execEventRecord desc s) := by
  unfold execEventRecord
  apply KeepsO.next
  with_reducible apply Keeps.fields
  split
  with_reducible assumption
  apply Keeps.ite
  intro _
  apply endDesc_keeps
  with_reducible assumption
  intro _
  apply Keeps.ite
  intro _
  apply endDesc_keeps
  with_reducible assumption
  intro _
  apply endDesc_keeps
  apply Keeps.foldl
  with_reducible assumption
  intro _ _ _
  apply recordEv_keeps
  with_reducible assumption

theorem execDescriptorFetch_keeps {eng : Nat} {s : State} (k1 : Keeps d s0 s) : KeepsO d s0 (execDescriptorFetch eng s) := by
  unfold execDescriptorFetch
  apply KeepsO.next
  apply Keeps.ite
  intro _
  with_reducible assumption
  intro _
  with_reducible apply Keeps.fields
  split
  with_reducible assumption
  with_reducible apply Keeps.fields
  split
  with_reducible assumption
  with_reducible apply Keeps.fields
  split
  refine prepare_wait (by assumption) ?_
  with_reducible assumption
  refine prepare_fault (by assumption) ?_
  with_reducible assumption
  with_reducible apply Keeps.fields
  split
  refine prepare_wait (by assumption) ?_
  refine prepare_ok (by assumption) ?_
  with_reducible assumption
  refine prepare_ok (by assumption) ?_
  refine prepare_ok (by assumption) ?_
  with_reducible assumption
  refine prepare_fault (by assumption) ?_
  refine prepare_ok (by assumption) ?_
  with_reducible assumption
  apply withMem_keeps
  with_reducible assumption
  intro _ _ _
  apply fetchGroup_keeps
  with_reducible assumption
  intro _ _ _
  apply fetchGroup_keeps
  with_reducible assumption

theorem execIndirectRead_keeps {ring : Nat} {s : State} (k1 : Keeps d s0 s) : KeepsO d s0 (execIndirectRead ring s) := by
  unfold execIndirectRead
  apply KeepsO.next
  with_reducible apply Keeps.fields
  split
  with_reducible assumption
  with_reducible apply Keeps.fields
  split
  apply setDesc_keeps
  with_reducible assumption
  apply Keeps.ite
  intro _
  apply setDesc_keeps
  with_reducible assumption
  intro _
  apply withMem_keeps
  with_reducible assumption
  intro _ _ _
  apply indDone_keeps
  with_reducible assumption
  intro _ _ _
  apply indDone_keeps
  with_reducible assumption

theorem execNop_keeps {desc : Nat} {s : State} (k1 : Keeps d s0 s) : KeepsO d s0 (execNop desc s) := by
  unfold execNop
  apply KeepsO.next
  with_reducible apply Keeps.fields
  split
  with_reducible assumption
  apply endDesc_keeps
  with_reducible assumption

theorem execContinuationPush_keeps {ring : Nat} {s : State} (k1 : Keeps d s0 s) : KeepsO d s0 (execContinuationPush ring s) := by
  unfold execContinuationPush
  apply KeepsO.next
  with_reducible apply Keeps.fields
  split
  with_reducible apply Keeps.fields
  split
  with_reducible assumption
  apply withMem_keeps
  with_reducible assumption
  intro _ _ _
  apply publishIn_keeps
  with_reducible apply Keeps.fields
  apply vaWr_keeps
  with_reducible assumption
  intro _ _ _
  apply dropConts_keeps
  apply publishIn_keeps
  with_reducible apply Keeps.fields
  with_reducible assumption
  with_reducible assumption

theorem answerOk_keeps {s : State} {m : Nat} {result : List Nat} (k0 : Keeps d s0 s) : Keeps d s0 (answerOk s m result) := by
  unfold answerOk
  apply answer_keeps
  with_reducible assumption

theorem execGetInfo_keeps {mb : Nat} {s : State} (k1 : Keeps d s0 s) : KeepsO d s0 (execGetInfo mb s) := by
  unfold execGetInfo
  apply KeepsO.next
  with_reducible apply Keeps.fields
  split
  with_reducible assumption
  apply answerOk_keeps
  with_reducible assumption

theorem refuse_keeps {s : State} {m : Nat} {status : Nat} (k0 : Keeps d s0 s) : Keeps d s0 (refuse s m status) := by
  unfold refuse
  apply answer_keeps
  with_reducible assumption

theorem execGo_keeps {mb : Nat} {s : State} (k1 : Keeps d s0 s) : KeepsO d s0 (execGo mb s) := by
  unfold execGo
  apply KeepsO.next
  apply hostWr_keeps
  with_reducible assumption
  intro _ _
  apply Keeps.ite
  intro _
  with_reducible assumption
  intro _
  apply Keeps.ite
  intro _
  apply setMbox_keeps
  with_reducible assumption
  intro _
  apply Keeps.ite
  intro _
  apply refuse_keeps
  apply setMbox_keeps
  apply setMbox_keeps
  with_reducible apply Keeps.fields
  with_reducible assumption
  intro _
  apply setMbox_keeps
  with_reducible apply Keeps.fields
  with_reducible assumption

theorem execMailboxTake_keeps {mb : Nat} {s : State} (k1 : Keeps d s0 s) : KeepsO d s0 (execMailboxTake mb s) := by
  unfold execMailboxTake
  apply KeepsO.next
  apply Keeps.ite
  intro _
  with_reducible apply Keeps.fields
  split
  apply answer_keeps
  apply setMbox_keeps
  with_reducible assumption
  apply setMbox_keeps
  with_reducible assumption
  intro _
  with_reducible assumption

theorem acceptJob_keeps {s : State} {m : Nat} {job : Job} (k0 : Keeps d s0 s) : Keeps d s0 (acceptJob s m job) := by
  unfold acceptJob
  with_reducible apply Keeps.fields
  split
  apply refuse_keeps
  with_reducible assumption
  apply respond_keeps
  apply setJob_keeps
  with_reducible apply Keeps.fields
  with_reducible assumption

theorem execRingQuery_keeps {mb : Nat} {s : State} (k1 : Keeps d s0 s) : KeepsO d s0 (execRingQuery mb s) := by
  unfold execRingQuery
  apply KeepsO.next
  with_reducible apply Keeps.fields
  split
  with_reducible assumption
  with_reducible apply Keeps.fields
  split
  apply refuse_keeps
  with_reducible assumption
  apply answerOk_keeps
  with_reducible assumption

theorem execEventAlloc_keeps {mb : Nat} {s : State} (k1 : Keeps d s0 s) : KeepsO d s0 (execEventAlloc mb s) := by
  unfold execEventAlloc
  apply KeepsO.next
  with_reducible apply Keeps.fields
  split
  with_reducible assumption
  apply Keeps.ite
  intro _
  apply refuse_keeps
  with_reducible assumption
  intro _
  apply Keeps.ite
  intro _
  apply refuse_keeps
  with_reducible assumption
  intro _
  with_reducible apply Keeps.fields
  split
  apply refuse_keeps
  with_reducible assumption
  apply answerOk_keeps
  apply allocRun_keeps
  with_reducible assumption

theorem execRingCreate_keeps {mb : Nat} {s : State} (k1 : Keeps d s0 s) : KeepsO d s0 (execRingCreate mb s) := by
  unfold execRingCreate
  apply KeepsO.next
  with_reducible apply Keeps.fields
  split
  with_reducible assumption
  apply Keeps.ite
  intro _
  apply refuse_keeps
  with_reducible assumption
  intro _
  apply Keeps.ite
  intro _
  apply refuse_keeps
  with_reducible assumption
  intro _
  with_reducible apply Keeps.fields
  split
  apply refuse_keeps
  with_reducible assumption
  apply answerOk_keeps
  with_reducible apply Keeps.fields
  apply setRing_keeps
  with_reducible assumption

theorem execRingDestroy_keeps {mb : Nat} {s : State} (k1 : Keeps d s0 s) : KeepsO d s0 (execRingDestroy mb s) := by
  unfold execRingDestroy
  apply KeepsO.next
  with_reducible apply Keeps.fields
  split
  with_reducible assumption
  apply Keeps.ite
  intro _
  apply refuse_keeps
  with_reducible assumption
  intro _
  apply Keeps.ite
  intro _
  apply refuse_keeps
  with_reducible assumption
  intro _
  apply answerOk_keeps
  with_reducible apply Keeps.fields
  with_reducible assumption

theorem ctxChange_keeps {s : State} {mb : Nat} {c : Nat} {f : Ctx → Ctx} (k0 : Keeps d s0 s) : Keeps d s0 (ctxChange s mb c f) := by
  unfold ctxChange
  apply Keeps.ite
  intro _
  apply refuse_keeps
  with_reducible assumption
  intro _
  apply Keeps.ite
  intro _
  apply refuse_keeps
  with_reducible assumption
  intro _
  apply answerOk_keeps
  apply setCtx_keeps
  with_reducible assumption

theorem execCtxUnfence_keeps {mb : Nat} {s : State} (k1 : Keeps d s0 s) : KeepsO d s0 (execCtxUnfence mb s) := by
  unfold execCtxUnfence
  apply KeepsO.next
  with_reducible apply Keeps.fields
  split
  with_reducible assumption
  with_reducible apply Keeps.fields
  split
  apply refuse_keeps
  with_reducible assumption
  apply refuse_keeps
  with_reducible assumption
  apply refuse_keeps
  with_reducible assumption
  apply Keeps.ite
  intro _
  apply refuse_keeps
  with_reducible assumption
  intro _
  apply answerOk_keeps
  with_reducible assumption
  apply Keeps.ite
  intro _
  apply refuse_keeps
  with_reducible assumption
  intro _
  apply answerOk_keeps
  apply setCtx_keeps
  with_reducible assumption

theorem execEventFree_keeps {mb : Nat} {s : State} (k1 : Keeps d s0 s) : KeepsO d s0 (execEventFree mb s) := by
  unfold execEventFree
  apply KeepsO.next
  with_reducible apply Keeps.fields
  split
  with_reducible assumption
  apply Keeps.ite
  intro _
  apply refuse_keeps
  with_reducible assumption
  intro _
  apply Keeps.ite
  intro _
  apply refuse_keeps
  with_reducible assumption
  intro _
  apply answerOk_keeps
  apply freeRunOf_keeps
  with_reducible assumption

theorem execCtxQuery_keeps {mb : Nat} {s : State} (k1 : Keeps d s0 s) : KeepsO d s0 (execCtxQuery mb s) := by
  unfold execCtxQuery
  apply KeepsO.next
  with_reducible apply Keeps.fields
  split
  with_reducible assumption
  apply Keeps.ite
  intro _
  apply refuse_keeps
  with_reducible assumption
  intro _
  apply answerOk_keeps
  with_reducible assumption

theorem execCtxWeight_keeps {mb : Nat} {s : State} (k1 : Keeps d s0 s) : KeepsO d s0 (execCtxWeight mb s) := by
  unfold execCtxWeight
  apply KeepsO.next
  with_reducible apply Keeps.fields
  split
  with_reducible assumption
  apply ctxChange_keeps
  with_reducible assumption

theorem execShortfallWindow_keeps {cls : Nat} {client : Nat} {received : Nat} {demand : Nat} {s : State} (k4 : Keeps d s0 s) : KeepsO d s0 (execShortfallWindow cls client received demand s) := by
  unfold execShortfallWindow
  apply KeepsO.next
  apply Keeps.ite
  intro _
  with_reducible assumption
  intro _
  apply Keeps.ite
  intro _
  apply Keeps.ite
  intro _
  apply stepRec_keeps
  with_reducible apply Keeps.fields
  with_reducible apply Keeps.fields
  apply markDone_keeps
  with_reducible assumption
  intro _
  with_reducible apply Keeps.fields
  apply markDone_keeps
  with_reducible assumption
  intro _
  apply Keeps.ite
  intro _
  apply stepRec_keeps
  with_reducible apply Keeps.fields
  apply markDone_keeps
  with_reducible assumption
  intro _
  apply markDone_keeps
  with_reducible assumption

theorem execResvQuery_keeps {mb : Nat} {s : State} (k1 : Keeps d s0 s) : KeepsO d s0 (execResvQuery mb s) := by
  unfold execResvQuery
  apply KeepsO.next
  with_reducible apply Keeps.fields
  split
  with_reducible assumption
  apply answerOk_keeps
  with_reducible assumption

theorem execAcctPeriod_keeps {mb : Nat} {s : State} (k1 : Keeps d s0 s) : KeepsO d s0 (execAcctPeriod mb s) := by
  unfold execAcctPeriod
  apply KeepsO.next
  with_reducible apply Keeps.fields
  split
  with_reducible assumption
  apply answerOk_keeps
  apply retainedDirty_keeps
  apply closePeriod_keeps
  with_reducible apply Keeps.fields
  with_reducible assumption

theorem execAcctRead_keeps {mb : Nat} {s : State} (k1 : Keeps d s0 s) : KeepsO d s0 (execAcctRead mb s) := by
  unfold execAcctRead
  apply KeepsO.next
  with_reducible apply Keeps.fields
  split
  with_reducible assumption
  apply answerOk_keeps
  with_reducible assumption

theorem execResvRelease_keeps {mb : Nat} {s : State} (k1 : Keeps d s0 s) : KeepsO d s0 (execResvRelease mb s) := by
  unfold execResvRelease
  apply KeepsO.next
  with_reducible apply Keeps.fields
  split
  with_reducible assumption
  apply Keeps.ite
  intro _
  apply refuse_keeps
  with_reducible assumption
  intro _
  apply answerOk_keeps
  with_reducible apply Keeps.fields
  with_reducible assumption

theorem execResvSet_keeps {mb : Nat} {s : State} (k1 : Keeps d s0 s) : KeepsO d s0 (execResvSet mb s) := by
  unfold execResvSet
  apply KeepsO.next
  with_reducible apply Keeps.fields
  split
  with_reducible assumption
  with_reducible apply Keeps.fields
  split
  apply refuse_keeps
  with_reducible assumption
  apply Keeps.ite
  intro _
  apply refuse_keeps
  with_reducible assumption
  intro _
  apply answerOk_keeps
  with_reducible apply Keeps.fields
  with_reducible assumption

theorem execAcctBind_keeps {mb : Nat} {s : State} (k1 : Keeps d s0 s) : KeepsO d s0 (execAcctBind mb s) := by
  unfold execAcctBind
  apply KeepsO.next
  with_reducible apply Keeps.fields
  split
  with_reducible assumption
  apply Keeps.ite
  intro _
  apply refuse_keeps
  with_reducible assumption
  intro _
  apply Keeps.ite
  intro _
  apply refuse_keeps
  with_reducible assumption
  intro _
  apply answerOk_keeps
  apply setCtx_keeps
  apply foldBanks_keeps
  with_reducible assumption

theorem execPlateEccError_keeps {phys : Nat} {word : Nat} {double : Bool} {pass : Bool} {desc : Nat} {s : State} (k5 : Keeps d s0 s) : KeepsO d s0 (execPlateEccError phys word double pass desc s) := by
  unfold execPlateEccError
  apply KeepsO.next
  apply Keeps.ite
  intro _
  apply countReg_keeps
  apply noteScrub_keeps
  with_reducible assumption
  intro _
  apply Keeps.ite
  intro _
  apply retireGran_keeps
  apply setGran_keeps
  with_reducible apply Keeps.fields
  with_reducible apply Keeps.fields
  apply noteFail_keeps
  apply setFlag_keeps
  apply noteScrub_keeps
  with_reducible assumption
  intro _
  apply setGran_keeps
  with_reducible apply Keeps.fields
  with_reducible apply Keeps.fields
  apply noteFail_keeps
  apply setFlag_keeps
  apply noteScrub_keeps
  with_reducible assumption

theorem execPlatePartition_keeps {mb : Nat} {s : State} (k1 : Keeps d s0 s) : KeepsO d s0 (execPlatePartition mb s) := by
  unfold execPlatePartition
  apply KeepsO.next
  with_reducible apply Keeps.fields
  split
  with_reducible assumption
  apply Keeps.ite
  intro _
  apply refuse_keeps
  with_reducible assumption
  intro _
  apply Keeps.ite
  intro _
  apply refuse_keeps
  with_reducible assumption
  intro _
  apply Keeps.ite
  intro _
  apply refuse_keeps
  with_reducible assumption
  intro _
  with_reducible apply Keeps.fields
  split
  apply refuse_keeps
  with_reducible assumption
  apply Keeps.ite
  intro _
  apply endJob_keeps
  apply setJob_keeps
  apply syncPlate_keeps
  apply growPart_keeps
  apply acceptJob_keeps
  with_reducible assumption
  intro _
  apply setJob_keeps
  apply syncPlate_keeps
  apply growPart_keeps
  apply acceptJob_keeps
  with_reducible assumption

theorem execBarrelQuota_keeps {mb : Nat} {s : State} (k1 : Keeps d s0 s) : KeepsO d s0 (execBarrelQuota mb s) := by
  unfold execBarrelQuota
  apply KeepsO.next
  with_reducible apply Keeps.fields
  split
  with_reducible assumption
  apply Keeps.ite
  intro _
  apply refuse_keeps
  with_reducible assumption
  intro _
  apply Keeps.ite
  intro _
  apply refuse_keeps
  with_reducible assumption
  intro _
  apply Keeps.ite
  intro _
  apply refuse_keeps
  with_reducible assumption
  intro _
  apply Keeps.ite
  intro _
  apply refuse_keeps
  with_reducible assumption
  intro _
  with_reducible apply Keeps.fields
  split
  apply refuse_keeps
  with_reducible assumption
  apply Keeps.ite
  intro _
  apply endJob_keeps
  with_reducible apply Keeps.fields
  apply setCtx_keeps
  apply acceptJob_keeps
  with_reducible assumption
  intro _
  with_reducible apply Keeps.fields
  apply setCtx_keeps
  apply acceptJob_keeps
  with_reducible assumption

theorem execModelEvict_keeps {mb : Nat} {s : State} (k1 : Keeps d s0 s) : KeepsO d s0 (execModelEvict mb s) := by
  unfold execModelEvict
  apply KeepsO.next
  with_reducible apply Keeps.fields
  split
  with_reducible assumption
  with_reducible apply Keeps.fields
  split
  apply refuse_keeps
  with_reducible assumption
  apply Keeps.ite
  intro _
  apply refuse_keeps
  with_reducible assumption
  intro _
  apply acceptJob_keeps
  with_reducible assumption

theorem endLoadDesc_keeps {s : State} {id : Nat} {status : Nat} (k0 : Keeps d s0 s) : Keeps d s0 (endLoadDesc s id status) := by
  unfold endLoadDesc
  with_reducible apply Keeps.fields
  split
  with_reducible assumption
  apply endDesc_keeps
  apply setDesc_keeps
  with_reducible assumption

theorem admitCmd_keeps {s : State} {mb : Nat} {pin : Bool} {i : Nat} (k0 : Keeps d s0 s) : Keeps d s0 (admitCmd s mb pin i) := by
  unfold admitCmd
  with_reducible apply Keeps.fields
  split
  apply refuse_keeps
  with_reducible assumption
  apply Keeps.ite
  intro _
  apply refuse_keeps
  with_reducible assumption
  intro _
  apply Keeps.ite
  intro _
  apply refuse_keeps
  with_reducible assumption
  intro _
  with_reducible apply Keeps.fields
  split
  apply refuse_keeps
  with_reducible assumption
  apply Keeps.ite
  intro _
  apply endJob_keeps
  apply setModel_keeps
  apply acceptJob_keeps
  with_reducible assumption
  intro _
  apply requestModel_keeps
  apply setModel_keeps
  apply acceptJob_keeps
  with_reducible assumption

theorem execModelLoadDescriptor_keeps {desc : Nat} {s : State} (k1 : Keeps d s0 s) : KeepsO d s0 (execModelLoadDescriptor desc s) := by
  unfold execModelLoadDescriptor
  apply KeepsO.next
  with_reducible apply Keeps.fields
  split
  with_reducible assumption
  apply Keeps.ite
  intro _
  with_reducible assumption
  intro _
  apply Keeps.ite
  intro _
  apply endLoadDesc_keeps
  with_reducible assumption
  intro _
  with_reducible apply Keeps.fields
  split
  apply endLoadDesc_keeps
  with_reducible assumption
  apply Keeps.ite
  intro _
  apply endLoadDesc_keeps
  with_reducible assumption
  intro _
  apply Keeps.ite
  intro _
  apply endLoadDesc_keeps
  with_reducible assumption
  intro _
  apply Keeps.ite
  intro _
  apply endLoadDesc_keeps
  apply setModel_keeps
  with_reducible assumption
  intro _
  apply requestModel_keeps
  with_reducible apply Keeps.fields
  apply setModel_keeps
  with_reducible assumption

theorem execModelUnpin_keeps {mb : Nat} {s : State} (k1 : Keeps d s0 s) : KeepsO d s0 (execModelUnpin mb s) := by
  unfold execModelUnpin
  apply KeepsO.next
  with_reducible apply Keeps.fields
  split
  with_reducible assumption
  with_reducible apply Keeps.fields
  split
  apply refuse_keeps
  with_reducible assumption
  apply Keeps.ite
  intro _
  apply refuse_keeps
  with_reducible assumption
  intro _
  apply answerOk_keeps
  apply setModel_keeps
  with_reducible assumption

theorem execModelUnload_keeps {mb : Nat} {s : State} (k1 : Keeps d s0 s) : KeepsO d s0 (execModelUnload mb s) := by
  unfold execModelUnload
  apply KeepsO.next
  with_reducible apply Keeps.fields
  split
  with_reducible assumption
  with_reducible apply Keeps.fields
  split
  apply refuse_keeps
  with_reducible assumption
  apply acceptJob_keeps
  with_reducible assumption

theorem execBarrelEccError_keeps {frame : Nat} {x1 : Nat} {double : Bool} {pass : Bool} {op : Nat} {s : State} (k5 : Keeps d s0 s) : KeepsO d s0 (execBarrelEccError frame x1 double pass op s) := by
  unfold execBarrelEccError
  apply KeepsO.next
  apply Keeps.ite
  intro _
  apply countReg_keeps
  apply noteScrub_keeps
  with_reducible assumption
  intro _
  apply Keeps.ite
  intro _
  apply retireFrame_keeps
  apply setFrame_keeps
  apply Keeps.ite
  intro _
  with_reducible apply Keeps.fields
  split
  apply setFlag_keeps
  apply noteScrub_keeps
  with_reducible assumption
  with_reducible apply Keeps.fields
  apply setFlag_keeps
  apply noteScrub_keeps
  with_reducible assumption
  intro _
  apply freeOrLater_keeps
  with_reducible apply Keeps.fields
  split
  apply setFlag_keeps
  apply noteScrub_keeps
  with_reducible assumption
  with_reducible apply Keeps.fields
  apply setFlag_keeps
  apply noteScrub_keeps
  with_reducible assumption
  intro _
  apply setFrame_keeps
  apply Keeps.ite
  intro _
  with_reducible apply Keeps.fields
  split
  apply setFlag_keeps
  apply noteScrub_keeps
  with_reducible assumption
  with_reducible apply Keeps.fields
  apply setFlag_keeps
  apply noteScrub_keeps
  with_reducible assumption
  intro _
  apply freeOrLater_keeps
  with_reducible apply Keeps.fields
  split
  apply setFlag_keeps
  apply noteScrub_keeps
  with_reducible assumption
  with_reducible apply Keeps.fields
  apply setFlag_keeps
  apply noteScrub_keeps
  with_reducible assumption

theorem execModelStatus_keeps {mb : Nat} {s : State} (k1 : Keeps d s0 s) : KeepsO d s0 (execModelStatus mb s) := by
  unfold execModelStatus
  apply KeepsO.next
  with_reducible apply Keeps.fields
  split
  with_reducible assumption
  with_reducible apply Keeps.fields
  split
  apply refuse_keeps
  with_reducible assumption
  apply answerOk_keeps
  with_reducible assumption

theorem execModelRegister_keeps {mb : Nat} {s : State} (k1 : Keeps d s0 s) : KeepsO d s0 (execModelRegister mb s) := by
  unfold execModelRegister
  apply KeepsO.next
  with_reducible apply Keeps.fields
  split
  with_reducible assumption
  apply Keeps.ite
  intro _
  apply refuse_keeps
  with_reducible assumption
  intro _
  apply Keeps.ite
  intro _
  apply refuse_keeps
  with_reducible assumption
  intro _
  apply Keeps.ite
  intro _
  apply refuse_keeps
  with_reducible assumption
  intro _
  apply Keeps.ite
  intro _
  apply refuse_keeps
  with_reducible assumption
  intro _
  with_reducible apply Keeps.fields
  split
  refine prepare_wait (by assumption) ?_
  with_reducible assumption
  apply refuse_keeps
  refine prepare_fault (by assumption) ?_
  with_reducible assumption
  apply Keeps.ite
  intro _
  apply refuse_keeps
  with_reducible assumption
  intro _
  apply withMem_keeps
  with_reducible assumption
  intro _ _ _
  apply Keeps.ite
  intro _
  apply answer_keeps
  with_reducible assumption
  intro _
  apply Keeps.ite
  intro _
  apply refuse_keeps
  with_reducible assumption
  intro _
  apply Keeps.ite
  intro _
  apply refuse_keeps
  with_reducible assumption
  intro _
  with_reducible apply Keeps.fields
  split
  apply refuse_keeps
  with_reducible assumption
  apply answerOk_keeps
  with_reducible apply Keeps.fields
  apply setModel_keeps
  with_reducible assumption
  intro _ _ _
  apply refuse_keeps
  with_reducible assumption

theorem execModelPin_keeps {mb : Nat} {s : State} (k1 : Keeps d s0 s) : KeepsO d s0 (execModelPin mb s) := by
  unfold execModelPin
  apply KeepsO.next
  with_reducible apply Keeps.fields
  split
  with_reducible assumption
  apply admitCmd_keeps
  with_reducible assumption

theorem endDf_keeps {s : State} {id : Nat} {r : DfRes} (k0 : Keeps d s0 s) : Keeps d s0 (endDf s id r) := by
  unfold endDf
  with_reducible apply Keeps.fields
  split
  with_reducible apply Keeps.fields
  with_reducible assumption
  apply endDesc_keeps
  apply setDesc_keeps
  with_reducible apply Keeps.fields
  with_reducible assumption

theorem endDisp_keeps {s : State} {id : Nat} {status : Nat} {stolen : Nat} {ended : Nat} {ticks : Nat} (k0 : Keeps d s0 s) : Keeps d s0 (endDisp s id status stolen ended ticks) := by
  unfold endDisp
  with_reducible apply Keeps.fields
  split
  with_reducible apply Keeps.fields
  with_reducible assumption
  apply endDesc_keeps
  apply setDesc_keeps
  with_reducible apply Keeps.fields
  with_reducible assumption

theorem execDispatchComplete_keeps {desc : Nat} {s : State} (k1 : Keeps d s0 s) : KeepsO d s0 (execDispatchComplete desc s) := by
  unfold execDispatchComplete
  apply KeepsO.next
  with_reducible apply Keeps.fields
  split
  with_reducible assumption
  apply Keeps.ite
  intro _
  apply endDisp_keeps
  with_reducible assumption
  intro _
  apply Keeps.ite
  intro _
  apply endDisp_keeps
  with_reducible apply Keeps.fields
  with_reducible assumption
  intro _
  with_reducible assumption

theorem execWorkgroupExpansion_keeps {desc : Nat} {s : State} (k1 : Keeps d s0 s) : KeepsO d s0 (execWorkgroupExpansion desc s) := by
  unfold execWorkgroupExpansion
  apply KeepsO.next
  with_reducible apply Keeps.fields
  split
  with_reducible assumption
  apply Keeps.ite
  intro _
  with_reducible assumption
  intro _
  apply Keeps.ite
  intro _
  apply expandTo_keeps
  with_reducible assumption
  intro _
  apply Keeps.ite
  intro _
  apply expandTo_keeps
  with_reducible assumption
  intro _
  apply Keeps.ite
  intro _
  apply expandTo_keeps
  with_reducible assumption
  intro _
  apply withMem_keeps
  with_reducible assumption
  intro _ _ _
  apply expandTo_keeps
  with_reducible assumption
  intro _ _ _
  apply expandTo_keeps
  apply noteFail_keeps
  with_reducible assumption

theorem execPinionPatternTest_keeps {pass : Bool} {s : State} (k1 : Keeps d s0 s) : KeepsO d s0 (execPinionPatternTest pass s) := by
  unfold execPinionPatternTest
  apply KeepsO.next
  with_reducible apply Keeps.fields
  split
  apply Keeps.ite
  intro _
  with_reducible assumption
  intro _
  apply Keeps.ite
  intro _
  apply setPinion_keeps
  with_reducible assumption
  intro _
  apply retirePinion_keeps
  with_reducible assumption
  apply Keeps.ite
  intro _
  with_reducible assumption
  intro _
  with_reducible apply Keeps.fields
  split
  with_reducible assumption
  apply setPinion_keeps
  with_reducible apply Keeps.fields
  apply markDone_keeps
  with_reducible assumption

theorem execPinionRetire_keeps {train : Nat} {s : State} (k1 : Keeps d s0 s) : KeepsO d s0 (execPinionRetire train s) := by
  unfold execPinionRetire
  apply KeepsO.next
  apply Keeps.ite
  intro _
  with_reducible assumption
  intro _
  apply Keeps.ite
  intro _
  apply syncPinions_keeps
  apply setPinion_keeps
  with_reducible assumption
  intro _
  apply Keeps.ite
  intro _
  apply fenceTrain_keeps
  with_reducible assumption
  intro _
  with_reducible assumption

theorem execDispatch_keeps {desc : Nat} {s : State} (k1 : Keeps d s0 s) : KeepsO d s0 (execDispatch desc s) := by
  unfold execDispatch
  apply KeepsO.next
  with_reducible apply Keeps.fields
  split
  with_reducible assumption
  apply Keeps.ite
  intro _
  with_reducible assumption
  intro _
  apply Keeps.ite
  intro _
  apply endDisp_keeps
  with_reducible assumption
  intro _
  apply Keeps.ite
  intro _
  apply endDisp_keeps
  with_reducible assumption
  intro _
  apply withMem_keeps
  with_reducible assumption
  intro _ _ _
  apply Keeps.ite
  intro _
  apply endDisp_keeps
  with_reducible assumption
  intro _
  apply Keeps.ite
  intro _
  apply noteFail_keeps
  apply setDisp_keeps
  with_reducible assumption
  intro _
  apply setDisp_keeps
  with_reducible assumption
  intro _ _ _
  apply endDisp_keeps
  with_reducible assumption

theorem execSt_keeps {wg : Nat} {beat : Nat} {s : State} (k2 : Keeps d s0 s) : KeepsO d s0 (execSt wg beat s) := by
  unfold execSt
  apply KeepsO.next
  with_reducible apply Keeps.fields
  split
  refine fetchIns_no (by assumption) ?_
  with_reducible assumption
  apply Keeps.ite
  intro _
  with_reducible apply Keeps.fields
  split
  refine laneMem_wait (by assumption) ?_
  refine fetchIns_here_keeps (by assumption) ?_
  with_reducible assumption
  apply retire_keeps
  apply Keeps.ite
  intro _
  apply Keeps.foldl
  refine laneMem_go (by assumption) ?_
  refine fetchIns_here_keeps (by assumption) ?_
  with_reducible assumption
  intro _ _ _
  apply Keeps.ite
  intro _
  with_reducible assumption
  intro _
  apply vaWr_keeps
  with_reducible assumption
  intro _
  apply noteFail_keeps
  apply Keeps.foldl
  refine laneMem_go (by assumption) ?_
  refine fetchIns_here_keeps (by assumption) ?_
  with_reducible assumption
  intro _ _ _
  apply Keeps.ite
  intro _
  with_reducible assumption
  intro _
  apply vaWr_keeps
  with_reducible assumption
  intro _
  apply endWgErr_keeps
  refine fetchIns_here_keeps (by assumption) ?_
  with_reducible assumption

theorem loadLanes_keeps {s : State} {h : Here} {ls : List Nat} {r : Nat} {n : Nat} {va : Nat → Nat} (k0 : Keeps d s0 s) : Keeps d s0 (loadLanes s h ls r n va) := by
  unfold loadLanes
  with_reducible apply Keeps.fields
  split
  refine laneMem_wait (by assumption) ?_
  with_reducible assumption
  apply retire_keeps
  apply Keeps.ite
  intro _
  apply Keeps.foldl
  apply Keeps.foldl
  refine laneMem_go (by assumption) ?_
  with_reducible assumption
  intro _ _ _
  apply Keeps.ite
  intro _
  with_reducible assumption
  intro _
  apply notePoison_keeps
  with_reducible assumption
  intro _ _ _
  apply Keeps.ite
  intro _
  with_reducible assumption
  intro _
  apply l1Fills_keeps
  with_reducible assumption
  intro _
  apply noteFail_keeps
  apply Keeps.foldl
  apply Keeps.foldl
  refine laneMem_go (by assumption) ?_
  with_reducible assumption
  intro _ _ _
  apply Keeps.ite
  intro _
  with_reducible assumption
  intro _
  apply notePoison_keeps
  with_reducible assumption
  intro _ _ _
  apply Keeps.ite
  intro _
  with_reducible assumption
  intro _
  apply l1Fills_keeps
  with_reducible assumption

theorem execAtom_keeps {wg : Nat} {beat : Nat} {s : State} (k2 : Keeps d s0 s) : KeepsO d s0 (execAtom wg beat s) := by
  unfold execAtom
  refine KeepsO.next ?_
  split
  · rename_i h; exact fetchIns_no h k2
  · rename_i u h hf
    have ku := fetchIns_here_keeps hf k2
    refine Keeps.ite (fun _ => endWgErr_keeps ku) (fun _ => ?_)
    dsimp only
    split
    · rename_i h1; exact laneMem_wait h1 ku
    · rename_i v m bad h1
      have kv := laneMem_go h1 ku
      have ka : Keeps d s0 ((h.live.filter (fun l => h.va l % widthBytes h.i.width == 0)).foldl (fun (acc : State × Bool) l => match remoteOf v m (h.va l) with
          | some (dv, off) => if bad.contains l then acc else
            let r := remoteAtom acc.1 (storeWho h.w) dv off (widthBytes h.i.width) h.aop (toLe (h.atomArg l).1 (widthBytes h.i.width) ++
              (if h.aop = 9 then toLe (h.atomArg l).2 (widthBytes h.i.width) else [])) (h.va l / 4096)
            (r.1, acc.2 || r.2.isNone)
          | none => acc) (v, false)).1 := by
        refine Keeps.foldlFst kv (fun x l hx => ?_)
        split
        · split
          · exact hx
          · exact remoteAtom_keeps hx
        · exact hx
      generalize List.foldl _ (v, false) _ = asked at ka ⊢
      refine Keeps.ite (fun _ => ka) (fun _ => retire_keeps ?_)
      have kr : ∀ (b : Beat) (f : State × Beat → Nat → State × Beat) (ls : List Nat),
          (∀ x l, Keeps d s0 x.1 → Keeps d s0 (f x l).1) → Keeps d s0 (ls.foldl f (asked.1, b)).1 :=
        fun b f ls hf => Keeps.foldlFst ka hf
      refine Keeps.ite (fun _ => Keeps.ite (fun _ => ?_) (fun _ => noteFail_keeps ?_))
        (fun _ => noteFail_keeps (Keeps.ite (fun _ => ?_) (fun _ => noteFail_keeps ?_))) <;>
      · refine kr _ _ _ (fun x l hx => ?_)
        split
        · exact hx
        · split
          · exact hx
          · exact vaWr_keeps hx

theorem execRsub_keeps {wg : Nat} {beat : Nat} {s : State} (k2 : Keeps d s0 s) : KeepsO d s0 (execRsub wg beat s) := by
  unfold execRsub
  refine KeepsO.next ?_
  split
  · rename_i h; exact fetchIns_no h k2
  · rename_i u h hf
    have ku := fetchIns_here_keeps hf k2
    refine Keeps.ite (fun _ => endWgErr_keeps ku) (fun _ => ?_)
    have kv : Keeps d s0 (if h.live.filter (fun l => h.b.pair h.i.s0 l % 64 == 0) = h.live then u
        else noteFail u h.w.owner St.MISALIGNED) := Keeps.ite (fun _ => ku) (fun _ => noteFail_keeps ku)
    dsimp only
    generalize (if h.live.filter (fun l => h.b.pair h.i.s0 l % 64 == 0) = h.live then u else _ : State) = v at kv ⊢
    split
    · exact retire_keeps (Keeps.ite (fun _ => kv) (fun _ => noteFail_keeps kv))
    · split
      · rename_i h1; exact laneMem_wait h1 kv
      · rename_i s1 m bad h1
        have k1 := laneMem_go h1 kv
        split
        · rename_i h2; exact laneMem_wait h2 kv
        · split
          · exact kv
          · rename_i s2 m2 bad2 h3
            have k3 := laneMem_go h3 k1
            refine retire_keeps ?_
            refine Keeps.ite (fun _ => ?_) (fun _ => noteFail_keeps ?_) <;>
            · refine Keeps.ite (fun _ => ?_) (fun _ => noteFail_keeps ?_) <;>
              · refine Keeps.foldl (setRing_keeps k3) (fun x e hx => ?_)
                split
                · exact publishIn_keeps (Keeps.ite (fun _ => hx) (fun _ => vaWr_keeps hx))
                · exact Keeps.ite (fun _ => hx) (fun _ => vaWr_keeps hx)

theorem execLdc_keeps {wg : Nat} {beat : Nat} {s : State} (k2 : Keeps d s0 s) : KeepsO d s0 (execLdc wg beat s) := by
  unfold execLdc
  apply KeepsO.next
  with_reducible apply Keeps.fields
  split
  refine fetchIns_no (by assumption) ?_
  with_reducible assumption
  apply Keeps.ite
  intro _
  apply endWgErr_keeps
  refine fetchIns_here_keeps (by assumption) ?_
  with_reducible assumption
  intro _
  apply Keeps.ite
  intro _
  apply retire_keeps
  refine fetchIns_here_keeps (by assumption) ?_
  with_reducible assumption
  intro _
  apply loadLanes_keeps
  refine fetchIns_here_keeps (by assumption) ?_
  with_reducible assumption

theorem startAlloc_keeps {s : State} {id : Nat} {op : Nat} (k0 : Keeps d s0 s) : Keeps d s0 (startAlloc s id op) := by
  unfold startAlloc
  with_reducible apply Keeps.fields
  split
  with_reducible assumption
  apply Keeps.ite
  intro _
  with_reducible assumption
  intro _
  apply Keeps.ite
  intro _
  apply endDesc_keeps
  with_reducible assumption
  intro _
  apply Keeps.ite
  intro _
  apply endDesc_keeps
  with_reducible assumption
  intro _
  apply Keeps.ite
  intro _
  apply endDesc_keeps
  with_reducible assumption
  intro _
  with_reducible apply Keeps.fields
  apply Keeps.ite
  intro _
  apply noteFail_keeps
  with_reducible assumption
  intro _
  with_reducible assumption

theorem execAlloc_keeps {desc : Nat} {s : State} (k1 : Keeps d s0 s) : KeepsO d s0 (execAlloc desc s) := by
  unfold execAlloc
  apply KeepsO.next
  apply startAlloc_keeps
  with_reducible assumption

theorem refuseBin_keeps {s : State} {id : Nat} {code : Nat} (k0 : Keeps d s0 s) : Keeps d s0 (refuseBin s id code) := by
  unfold refuseBin
  apply endDesc_keeps
  apply Keeps.ite
  intro _
  apply setFlag_keeps
  with_reducible assumption
  intro _
  apply Keeps.ite
  intro _
  apply setFlag_keeps
  with_reducible assumption
  intro _
  with_reducible assumption

theorem execBinPass_keeps {desc : Nat} {s : State} (k1 : Keeps d s0 s) : KeepsO d s0 (execBinPass desc s) := by
  unfold execBinPass
  apply KeepsO.next
  with_reducible apply Keeps.fields
  split
  with_reducible assumption
  apply Keeps.ite
  intro _
  with_reducible assumption
  intro _
  apply Keeps.ite
  intro _
  apply endDesc_keeps
  with_reducible assumption
  intro _
  apply Keeps.ite
  intro _
  apply refuseBin_keeps
  with_reducible assumption
  intro _
  apply Keeps.ite
  intro _
  apply endDesc_keeps
  with_reducible assumption
  intro _
  with_reducible apply Keeps.fields
  split
  refine prepare_wait (by assumption) ?_
  with_reducible assumption
  apply endDesc_keeps
  refine prepare_fault (by assumption) ?_
  with_reducible assumption
  apply Keeps.ite
  intro _
  apply refuseBin_keeps
  refine prepare_ok (by assumption) ?_
  with_reducible assumption
  intro _
  with_reducible apply Keeps.fields
  split
  refine prepare_wait (by assumption) ?_
  with_reducible assumption
  apply endDesc_keeps
  refine prepare_fault (by assumption) ?_
  with_reducible assumption
  apply Keeps.ite
  intro _
  apply refuseBin_keeps
  refine prepare_ok (by assumption) ?_
  with_reducible assumption
  intro _
  apply withMem_keeps
  with_reducible assumption
  intro _ _ _
  apply Keeps.ite
  intro _
  apply setSegMap_keeps
  apply setBin_keeps
  with_reducible apply Keeps.fields
  with_reducible assumption
  intro _
  apply endDesc_keeps
  with_reducible assumption
  intro _ _ _
  apply endDesc_keeps
  with_reducible assumption

theorem formBatch_keeps {s : State} {id : Nat} {p : BinPass} {at_ : Nat × Nat × Nat} (k0 : Keeps d s0 s) : Keeps d s0 (formBatch s id p at_) := by
  unfold formBatch
  apply withMem_keeps
  with_reducible assumption
  intro _ _ _
  apply setBin_keeps
  apply addVertWgs_keeps
  with_reducible assumption
  intro _ _ _
  apply setBin_keeps
  apply addVertWgs_keeps
  apply setFlag_keeps
  apply noteFail_keeps
  with_reducible assumption

theorem abortBin_keeps {s : State} {id : Nat} {status : Nat} (k0 : Keeps d s0 s) : Keeps d s0 (abortBin s id status) := by
  unfold abortBin
  with_reducible apply Keeps.fields
  split
  with_reducible assumption
  apply endDesc_keeps
  apply recordOwn_keeps
  with_reducible apply Keeps.fields
  apply dropWaits_keeps
  apply dropWgs_keeps
  with_reducible assumption

theorem heapWrite_keeps {s : State} {id : Nat} {p : BinPass} {ws : List (Nat × List Byte)} {k : State → State}
    (k0 : Keeps d s0 s) (k4 : ∀ a0, Keeps d s0 a0 → Keeps d s0 (k a0)) : Keeps d s0 (heapWrite s id p ws k) := by
  unfold heapWrite
  exact withMem_keeps k0 (fun x m hx => k4 _ (Keeps.foldl hx (fun y e hy => vaWr_keeps hy)))
    (fun x c hx => k4 _ (setFlag_keeps (noteFail_keeps hx)))

theorem portDown_keeps {s : State} {p : Nat} (k0 : Keeps d s0 s) : Keeps d s0 (portDown s p) := by
  unfold portDown
  apply Keeps.ite
  intro _
  with_reducible assumption
  intro _
  apply declareLost_keeps
  apply Keeps.foldl
  apply setPort_keeps
  with_reducible assumption
  intro _ _ _
  apply Keeps.ite
  intro _
  apply dropRemote_keeps
  with_reducible assumption
  intro _
  apply Keeps.ite
  intro _
  apply errorTo_keeps
  with_reducible assumption
  intro _
  with_reducible assumption

theorem beginSwitch_keeps {s : State} {job : Option Nat} {awaiting : List Nat} (k0 : Keeps d s0 s) : Keeps d s0 (beginSwitch s job awaiting) := by
  unfold beginSwitch
  apply Keeps.ite
  intro _
  with_reducible assumption
  intro _
  apply checkSwitch_keeps
  with_reducible apply Keeps.fields
  apply Keeps.foldl
  with_reducible assumption
  intro _ _ _
  apply sendPkt_keeps
  with_reducible assumption

theorem execFabRouteWrite_keeps {mb : Nat} {s : State} (k1 : Keeps d s0 s) : KeepsO d s0 (execFabRouteWrite mb s) := by
  unfold execFabRouteWrite
  apply KeepsO.next
  with_reducible apply Keeps.fields
  split
  with_reducible assumption
  apply Keeps.ite
  intro _
  apply refuse_keeps
  with_reducible assumption
  intro _
  apply Keeps.ite
  intro _
  apply refuse_keeps
  with_reducible assumption
  intro _
  apply answerOk_keeps
  with_reducible apply Keeps.fields
  with_reducible assumption

theorem execFabStatus_keeps {mb : Nat} {s : State} (k1 : Keeps d s0 s) : KeepsO d s0 (execFabStatus mb s) := by
  unfold execFabStatus
  apply KeepsO.next
  with_reducible apply Keeps.fields
  split
  with_reducible assumption
  apply answerOk_keeps
  with_reducible assumption

theorem execHeartbeatTimeout_keeps {port : Nat} {s : State} (k1 : Keeps d s0 s) : KeepsO d s0 (execHeartbeatTimeout port s) := by
  unfold execHeartbeatTimeout
  apply KeepsO.next
  apply Keeps.ite
  intro _
  apply portDown_keeps
  with_reducible assumption
  intro _
  with_reducible assumption

theorem execFabricPortDown_keeps {port : Nat} {wave : Bool} {s : State} (k2 : Keeps d s0 s) : KeepsO d s0 (execFabricPortDown port wave s) := by
  unfold execFabricPortDown
  apply KeepsO.next
  apply Keeps.ite
  intro _
  apply portDown_keeps
  with_reducible assumption
  intro _
  with_reducible assumption

theorem execSwitch_keeps {s : State} (k0 : Keeps d s0 s) : KeepsO d s0 (execSwitch s) := by
  unfold execSwitch
  apply KeepsO.next
  apply Keeps.ite
  intro _
  apply beginSwitch_keeps
  with_reducible assumption
  intro _
  with_reducible assumption

theorem execMaintenanceComplete_keeps {s : State} (k0 : Keeps d s0 s) : KeepsO d s0 (execMaintenanceComplete s) := by
  unfold execMaintenanceComplete
  apply KeepsO.next
  with_reducible apply Keeps.fields
  split
  with_reducible assumption
  apply Keeps.ite
  intro _
  apply maintDone_keeps
  with_reducible assumption
  intro _
  with_reducible apply Keeps.fields
  split
  refine laneMem_wait (by assumption) ?_
  with_reducible assumption
  apply maintDone_keeps
  refine laneMem_go (by assumption) ?_
  with_reducible assumption

theorem enterLocked_keeps {s : State} {offset : Int} (k0 : Keeps d s0 s) : Keeps d s0 (enterLocked s offset) := by
  unfold enterLocked
  apply Keeps.ite
  intro _
  apply stepTime_keeps
  with_reducible apply Keeps.fields
  apply setFlag_keeps
  apply enterTm_keeps
  with_reducible assumption
  intro _
  with_reducible apply Keeps.fields
  apply setFlag_keeps
  apply enterTm_keeps
  with_reducible assumption

theorem execHoldoverExpiry_keeps {s : State} (k0 : Keeps d s0 s) : KeepsO d s0 (execHoldoverExpiry s) := by
  unfold execHoldoverExpiry
  apply KeepsO.next
  apply Keeps.ite
  intro _
  apply setFlag_keeps
  apply enterTm_keeps
  with_reducible assumption
  intro _
  with_reducible assumption

theorem tmSync_keeps {s : State} {offset : Int} (k0 : Keeps d s0 s) : Keeps d s0 (tmSync s offset) := by
  unfold tmSync
  apply Keeps.ite
  intro _
  apply Keeps.ite
  intro _
  apply enterLocked_keeps
  apply putReg_keeps
  with_reducible assumption
  intro _
  with_reducible apply Keeps.fields
  apply putReg_keeps
  with_reducible assumption
  intro _
  apply Keeps.ite
  intro _
  apply Keeps.ite
  intro _
  apply enterTm_keeps
  apply putReg_keeps
  with_reducible assumption
  intro _
  with_reducible apply Keeps.fields
  apply putReg_keeps
  with_reducible assumption
  intro _
  apply Keeps.ite
  intro _
  apply enterLocked_keeps
  apply putReg_keeps
  with_reducible assumption
  intro _
  apply putReg_keeps
  with_reducible assumption

theorem refusePass_keeps {s : State} {id : Nat} {code : Nat} (k0 : Keeps d s0 s) : Keeps d s0 (refusePass s id code) := by
  unfold refusePass
  apply endDesc_keeps
  apply dropPass_keeps
  with_reducible assumption

theorem execSegmentRead_keeps {pass : Nat} {s : State} (k1 : Keeps d s0 s) : KeepsO d s0 (execSegmentRead pass s) := by
  unfold execSegmentRead
  apply KeepsO.next
  with_reducible apply Keeps.fields
  split
  with_reducible assumption
  apply Keeps.ite
  intro _
  with_reducible apply Keeps.fields
  split
  apply enterDrain_keeps
  with_reducible assumption
  apply Keeps.ite
  intro _
  apply Keeps.ite
  intro _
  with_reducible assumption
  intro _
  apply Keeps.ite
  intro _
  apply setPass_keeps
  with_reducible assumption
  intro _
  apply releaseSeg_keeps
  with_reducible assumption
  intro _
  with_reducible apply Keeps.fields
  split
  refine readChain_wait (by assumption) ?_
  with_reducible assumption
  apply enterDrain_keeps
  refine readChain_fault (by assumption) ?_
  with_reducible assumption
  with_reducible apply Keeps.fields
  split
  apply setPass_keeps
  apply awaitEv_keeps
  refine readChain_ok (by assumption) ?_
  with_reducible assumption
  apply Keeps.ite
  intro _
  apply enterDrain_keeps
  apply setPass_keeps
  apply setPass_keeps
  apply awaitEv_keeps
  refine readChain_ok (by assumption) ?_
  with_reducible assumption
  intro _
  apply setPass_keeps
  apply setPass_keeps
  apply awaitEv_keeps
  refine readChain_ok (by assumption) ?_
  with_reducible assumption
  apply Keeps.ite
  intro _
  apply Keeps.ite
  intro _
  apply enterDrain_keeps
  apply setPass_keeps
  apply setPass_keeps
  apply awaitEv_keeps
  refine readChain_ok (by assumption) ?_
  with_reducible assumption
  intro _
  apply setPass_keeps
  apply setPass_keeps
  apply awaitEv_keeps
  refine readChain_ok (by assumption) ?_
  with_reducible assumption
  intro _
  apply enterDrain_keeps
  apply setPass_keeps
  apply awaitEv_keeps
  refine readChain_ok (by assumption) ?_
  with_reducible assumption
  apply enterDrain_keeps
  apply setPass_keeps
  apply awaitEv_keeps
  refine readChain_ok (by assumption) ?_
  with_reducible assumption
  intro _
  with_reducible assumption

theorem execPlateClaim_keeps {pass : Nat} {s : State} (k1 : Keeps d s0 s) : KeepsO d s0 (execPlateClaim pass s) := by
  unfold execPlateClaim
  apply KeepsO.next
  with_reducible apply Keeps.fields
  split
  with_reducible assumption
  apply Keeps.ite
  intro _
  with_reducible assumption
  intro _
  with_reducible apply Keeps.fields
  split
  apply refusePass_keeps
  with_reducible assumption
  apply Keeps.ite
  intro _
  apply refusePass_keeps
  with_reducible assumption
  intro _
  apply Keeps.ite
  intro _
  apply refusePass_keeps
  with_reducible assumption
  intro _
  apply setPass_keeps
  with_reducible apply Keeps.fields
  with_reducible assumption

theorem execRenderPass_keeps {desc : Nat} {s : State} (k1 : Keeps d s0 s) : KeepsO d s0 (execRenderPass desc s) := by
  unfold execRenderPass
  apply KeepsO.next
  with_reducible apply Keeps.fields
  split
  with_reducible assumption
  apply Keeps.ite
  intro _
  with_reducible assumption
  intro _
  apply Keeps.ite
  intro _
  apply endDesc_keeps
  with_reducible assumption
  intro _
  with_reducible apply Keeps.fields
  split
  refine readChain_wait (by assumption) ?_
  with_reducible assumption
  apply endDesc_keeps
  refine readChain_fault (by assumption) ?_
  with_reducible assumption
  apply Keeps.ite
  intro _
  apply endDesc_keeps
  refine readChain_ok (by assumption) ?_
  with_reducible assumption
  intro _
  apply Keeps.ite
  intro _
  apply endDesc_keeps
  refine readChain_ok (by assumption) ?_
  with_reducible assumption
  intro _
  apply Keeps.ite
  intro _
  apply endDesc_keeps
  refine readChain_ok (by assumption) ?_
  with_reducible assumption
  intro _
  apply Keeps.ite
  intro _
  apply endDesc_keeps
  refine readChain_ok (by assumption) ?_
  with_reducible assumption
  intro _
  apply Keeps.ite
  intro _
  apply refuseBin_keeps
  refine readChain_ok (by assumption) ?_
  with_reducible assumption
  intro _
  apply setPass_keeps
  with_reducible apply Keeps.fields
  refine readChain_ok (by assumption) ?_
  with_reducible assumption

theorem execBarrelShare_keeps {pass : Nat} {s : State} (k1 : Keeps d s0 s) : KeepsO d s0 (execBarrelShare pass s) := by
  unfold execBarrelShare
  apply KeepsO.next
  with_reducible apply Keeps.fields
  split
  with_reducible assumption
  apply Keeps.ite
  intro _
  with_reducible assumption
  intro _
  with_reducible apply Keeps.fields
  split
  apply refusePass_keeps
  with_reducible assumption
  apply Keeps.ite
  intro _
  apply refusePass_keeps
  with_reducible assumption
  intro _
  apply Keeps.ite
  intro _
  apply refusePass_keeps
  with_reducible assumption
  intro _
  apply Keeps.ite
  intro _
  apply refusePass_keeps
  with_reducible assumption
  intro _
  apply Keeps.ite
  intro _
  apply setPass_keeps
  apply Keeps.ite
  intro _
  with_reducible assumption
  intro _
  apply Keeps.foldl
  with_reducible apply Keeps.fields
  apply Keeps.foldl
  with_reducible assumption
  intro _ _ _
  apply requestModel_keeps
  with_reducible assumption
  intro _ _ _
  with_reducible apply Keeps.fields
  split
  apply setModel_keeps
  with_reducible assumption
  with_reducible assumption
  intro _
  apply Keeps.ite
  intro _
  with_reducible assumption
  intro _
  apply Keeps.foldl
  with_reducible apply Keeps.fields
  apply Keeps.foldl
  with_reducible assumption
  intro _ _ _
  apply requestModel_keeps
  with_reducible assumption
  intro _ _ _
  with_reducible apply Keeps.fields
  split
  apply setModel_keeps
  with_reducible assumption
  with_reducible assumption

theorem execLayerUpdate_keeps {desc : Nat} {s : State} (k1 : Keeps d s0 s) : KeepsO d s0 (execLayerUpdate desc s) := by
  unfold execLayerUpdate
  apply KeepsO.next
  with_reducible apply Keeps.fields
  split
  with_reducible assumption
  apply Keeps.ite
  intro _
  apply endDesc_keeps
  with_reducible assumption
  intro _
  with_reducible apply Keeps.fields
  split
  refine readChain_wait (by assumption) ?_
  with_reducible assumption
  apply endDesc_keeps
  refine readChain_fault (by assumption) ?_
  with_reducible assumption
  with_reducible apply Keeps.fields
  split
  apply endDesc_keeps
  refine readChain_ok (by assumption) ?_
  with_reducible assumption
  apply endDesc_keeps
  apply Keeps.foldl
  refine readChain_ok (by assumption) ?_
  with_reducible assumption
  intro _ _ _
  apply applyLayer_keeps
  with_reducible assumption

theorem endCommit_keeps {s : State} {o : Nat} {q : CrDue} (k0 : Keeps d s0 s) : Keeps d s0 (endCommit s o q) := by
  unfold endCommit
  with_reducible apply Keeps.fields
  split
  with_reducible assumption
  apply endDesc_keeps
  apply setDesc_keeps
  with_reducible assumption

theorem fenceAllCtx_keeps {s : State} {source : Nat} (k0 : Keeps d s0 s) : Keeps d s0 (fenceAllCtx s source) := by
  unfold fenceAllCtx
  apply Keeps.foldl
  with_reducible assumption
  intro _ _ _
  apply fenceCtx_keeps
  with_reducible assumption

theorem execFenceAll_keeps {mb : Nat} {s : State} (k1 : Keeps d s0 s) : KeepsO d s0 (execFenceAll mb s) := by
  unfold execFenceAll
  apply KeepsO.next
  with_reducible apply Keeps.fields
  split
  with_reducible assumption
  apply answerOk_keeps
  apply fenceAllCtx_keeps
  with_reducible assumption

theorem execFenceContext_keeps {mb : Nat} {s : State} (k1 : Keeps d s0 s) : KeepsO d s0 (execFenceContext mb s) := by
  unfold execFenceContext
  apply KeepsO.next
  with_reducible apply Keeps.fields
  split
  with_reducible assumption
  apply Keeps.ite
  intro _
  apply refuse_keeps
  with_reducible assumption
  intro _
  apply answerOk_keeps
  apply fenceCtx_keeps
  with_reducible assumption

theorem execCtxDestroy_keeps {mb : Nat} {s : State} (k1 : Keeps d s0 s) : KeepsO d s0 (execCtxDestroy mb s) := by
  unfold execCtxDestroy
  apply KeepsO.next
  with_reducible apply Keeps.fields
  split
  with_reducible assumption
  apply Keeps.ite
  intro _
  apply refuse_keeps
  with_reducible assumption
  intro _
  with_reducible apply Keeps.fields
  split
  apply refuse_keeps
  with_reducible assumption
  apply Keeps.ite
  intro _
  apply acceptJob_keeps
  with_reducible assumption
  intro _
  apply acceptJob_keeps
  apply setCtx_keeps
  apply fenceJobs_keeps
  apply fenceCtx_keeps
  with_reducible assumption

theorem writeHeap_keeps {s : State} {mb : Nat} {c : Nat} (k0 : Keeps d s0 s) : Keeps d s0 (writeHeap s mb c) := by
  unfold writeHeap
  apply withMem_keeps
  with_reducible assumption
  intro _ _ _
  apply answerOk_keeps
  apply setCtx_keeps
  apply writeMeta_keeps
  with_reducible assumption
  intro _ _ _
  apply answerOk_keeps
  apply setCtx_keeps
  with_reducible assumption

theorem fetchAhead_keeps {s : State} {o : Nat} {row : Nat} (k0 : Keeps d s0 s) : Keeps d s0 (fetchAhead s o row) := by
  unfold fetchAhead
  apply Keeps.foldl
  with_reducible assumption
  intro _ _ _
  with_reducible apply Keeps.fields
  split
  refine laneMem_wait (by assumption) ?_
  with_reducible assumption
  with_reducible assumption

theorem fetchLayers_keeps {s : State} {o : Nat} {r : Nat × Nat × Nat × Nat} {a : List Layer} (k0 : Keeps d s0 s) : Keeps d s0 (fetchLayers s o r a).1 := by
  induction a generalizing s with
  | nil =>
    unfold fetchLayers
    with_reducible assumption
  | cons b l ih =>
    unfold fetchLayers
    with_reducible apply Keeps.fields
    split
    apply ih
    refine laneMem_wait (by assumption) ?_
    with_reducible assumption
    with_reducible apply Keeps.fields
    split
    extract_lets +onlyGivenNames x; unfold x
    with_reducible apply Keeps.fields
    split
    apply ih
    refine laneMem_go (by assumption) ?_
    with_reducible assumption
    apply ih
    refine laneMem_go (by assumption) ?_
    with_reducible assumption
    extract_lets +onlyGivenNames x; unfold x
    with_reducible apply Keeps.fields
    split
    apply ih
    apply setFlag_keeps
    refine laneMem_go (by assumption) ?_
    with_reducible assumption
    apply ih
    apply setFlag_keeps
    refine laneMem_go (by assumption) ?_
    with_reducible assumption

theorem fetchLayers_eq {s : State} {o : Nat} {r : Nat × Nat × Nat × Nat} {a : List Layer} {y} {t : State} (e : fetchLayers s o r a = (t, y)) (k0 : Keeps d s0 s) : Keeps d s0 t := by
  have h : Keeps d s0 (fetchLayers s o r a).1 := fetchLayers_keeps k0
  rw [e] at h
  exact h

theorem execOperationParameterRead_keeps {op : Nat} {s : State} (k1 : Keeps d s0 s) : KeepsO d s0 (execOperationParameterRead op s) := by
  unfold execOperationParameterRead
  apply KeepsO.next
  with_reducible apply Keeps.fields
  split
  with_reducible assumption
  apply Keeps.ite
  intro _
  with_reducible assumption
  intro _
  apply withMem_keeps
  with_reducible assumption
  intro _ _ _
  with_reducible apply Keeps.fields
  split
  apply setGwOp_keeps
  with_reducible assumption
  apply awaitBlocks_keeps
  with_reducible assumption
  intro _ _ _
  apply setGwOp_keeps
  with_reducible assumption

theorem readVec_keeps {s : State} {o : GwOp} {q : GwPos} (k0 : Keeps d s0 s) : Keeps d s0 (readVec s o q).1 := by
  unfold readVec
  with_reducible apply Keeps.fields
  split
  extract_lets +onlyGivenNames x; unfold x
  with_reducible apply Keeps.fields
  split
  extract_lets +onlyGivenNames x; unfold x
  extract_lets +onlyGivenNames x; unfold x
  extract_lets +onlyGivenNames x; unfold x
  with_reducible apply Keeps.fields
  split
  refine laneMem_wait (by assumption) ?_
  with_reducible assumption
  apply dropArrived_keeps
  apply cleanRd_keeps
  apply cleanRd_keeps
  refine laneMem_go (by assumption) ?_
  with_reducible assumption
  with_reducible assumption
  extract_lets +onlyGivenNames x; unfold x
  with_reducible apply Keeps.fields
  split
  extract_lets +onlyGivenNames x; unfold x
  extract_lets +onlyGivenNames x; unfold x
  extract_lets +onlyGivenNames x; unfold x
  with_reducible apply Keeps.fields
  split
  refine laneMem_wait (by assumption) ?_
  with_reducible assumption
  apply dropArrived_keeps
  apply cleanRd_keeps
  apply cleanRd_keeps
  refine laneMem_go (by assumption) ?_
  with_reducible assumption
  apply Keeps.ite
  intro _
  with_reducible assumption
  intro _
  apply noteFail_keeps
  with_reducible assumption

theorem readVec_eq {s : State} {o : GwOp} {q : GwPos} {y} {t : State} (e : readVec s o q = (t, y)) (k0 : Keeps d s0 s) : Keeps d s0 t := by
  have h : Keeps d s0 (readVec s o q).1 := readVec_keeps k0
  rw [e] at h
  exact h

theorem outReady_keeps {s : State} {o : GwOp} {q : GwPos} (k0 : Keeps d s0 s) : Keeps d s0 (outReady s o q).1 := by
  unfold outReady
  with_reducible apply Keeps.fields
  split
  with_reducible assumption
  with_reducible apply Keeps.fields
  split
  extract_lets +onlyGivenNames x; unfold x
  with_reducible apply Keeps.fields
  split
  refine laneMem_wait (by assumption) ?_
  with_reducible assumption
  with_reducible assumption
  with_reducible apply Keeps.fields
  split
  with_reducible assumption
  with_reducible assumption

theorem outReady_eq {s : State} {o : GwOp} {q : GwPos} {y} {t : State} (e : outReady s o q = (t, y)) (k0 : Keeps d s0 s) : Keeps d s0 t := by
  have h : Keeps d s0 (outReady s o q).1 := outReady_keeps k0
  rw [e] at h
  exact h

theorem feedReady_keeps {s : State} {id : Nat} {o : GwOp} {q : GwPos} (k0 : Keeps d s0 s) : Keeps d s0 (feedReady s id o q).1 := by
  unfold feedReady
  with_reducible apply Keeps.fields
  split
  extract_lets +onlyGivenNames x; unfold x
  extract_lets +onlyGivenNames x; unfold x
  with_reducible apply Keeps.fields
  split
  refine laneMem_wait (by assumption) ?_
  with_reducible assumption
  with_reducible assumption
  with_reducible apply Keeps.fields
  split
  with_reducible assumption
  with_reducible apply Keeps.fields
  split
  with_reducible assumption
  extract_lets +onlyGivenNames x; have hx : Keeps d s0 x.1; (on_goal 2 => clear_value x); unfold x
  apply tilesReady_keeps
  with_reducible assumption
  with_reducible apply Keeps.fields
  split
  apply setGwOp_keeps
  with_reducible assumption
  with_reducible assumption

theorem feedReady_eq {s : State} {id : Nat} {o : GwOp} {q : GwPos} {y} {t : State} (e : feedReady s id o q = (t, y)) (k0 : Keeps d s0 s) : Keeps d s0 t := by
  have h : Keeps d s0 (feedReady s id o q).1 := feedReady_keeps k0
  rw [e] at h
  exact h

theorem fillShadow_keeps {s : State} {id : Nat} {o : GwOp} {q : GwPos} (k0 : Keeps d s0 s) : Keeps d s0 (fillShadow s id o q) := by
  unfold fillShadow
  with_reducible apply Keeps.fields
  split
  refine laneMem_wait (by assumption) ?_
  with_reducible assumption
  apply releaseHeld_keeps
  apply setGwOp_keeps
  apply Keeps.foldlFst
  apply dropArrived_keeps
  refine laneMem_go (by assumption) ?_
  with_reducible assumption
  intro _ _ _
  apply cleanRd_keeps
  with_reducible assumption

theorem closeOp_keeps {s : State} {id : Nat} {o : GwOp} {st : Nat} (k0 : Keeps d s0 s) : Keeps d s0 (closeOp s id o st) := by
  unfold closeOp
  with_reducible apply Keeps.fields
  split
  with_reducible apply Keeps.fields
  split
  apply dropOp_keeps
  with_reducible assumption
  apply endDesc_keeps
  apply setDesc_keeps
  apply dropOp_keeps
  with_reducible assumption
  apply Keeps.ite
  intro _
  with_reducible apply Keeps.fields
  split
  apply Keeps.ite
  intro _
  apply setPass_keeps
  apply dropOp_keeps
  apply Keeps.ite
  intro _
  with_reducible assumption
  intro _
  apply noteFail_keeps
  with_reducible assumption
  intro _
  apply dropOp_keeps
  apply Keeps.ite
  intro _
  with_reducible assumption
  intro _
  apply noteFail_keeps
  with_reducible assumption
  apply dropOp_keeps
  apply Keeps.ite
  intro _
  with_reducible assumption
  intro _
  apply noteFail_keeps
  with_reducible assumption
  intro _
  apply withMem_keeps
  with_reducible assumption
  intro _ _ _
  with_reducible apply Keeps.fields
  split
  apply Keeps.ite
  intro _
  apply setPass_keeps
  apply dropOp_keeps
  apply Keeps.ite
  intro _
  apply vaWr_keeps
  with_reducible assumption
  intro _
  apply noteFail_keeps
  apply vaWr_keeps
  with_reducible assumption
  intro _
  apply dropOp_keeps
  apply Keeps.ite
  intro _
  apply vaWr_keeps
  with_reducible assumption
  intro _
  apply noteFail_keeps
  apply vaWr_keeps
  with_reducible assumption
  apply dropOp_keeps
  apply Keeps.ite
  intro _
  apply vaWr_keeps
  with_reducible assumption
  intro _
  apply noteFail_keeps
  apply vaWr_keeps
  with_reducible assumption
  intro _ _ _
  with_reducible apply Keeps.fields
  split
  apply Keeps.ite
  intro _
  apply setPass_keeps
  apply dropOp_keeps
  apply Keeps.ite
  intro _
  apply noteFail_keeps
  with_reducible assumption
  intro _
  apply noteFail_keeps
  apply noteFail_keeps
  with_reducible assumption
  intro _
  apply dropOp_keeps
  apply Keeps.ite
  intro _
  apply noteFail_keeps
  with_reducible assumption
  intro _
  apply noteFail_keeps
  apply noteFail_keeps
  with_reducible assumption
  apply dropOp_keeps
  apply Keeps.ite
  intro _
  apply noteFail_keeps
  with_reducible assumption
  intro _
  apply noteFail_keeps
  apply noteFail_keeps
  with_reducible assumption

end Sys2Proof.Machine
end

