-- ==== Sys2Proof/Laws/KeepsE.lean ====
section
/-! SUPPORT. Every operation of the part keeps the relation `Keeps` (operations in the order in which they use
one another): one lemma for each, used by the next. -/

namespace Sys2Proof.Machine

variable {d : Prop} {s0 : State}

theorem execGroupRepair_keeps {pass : Bool} {s : State} (k1 : Keeps d s0 s) : KeepsO d s0 (execGroupRepair pass s) := by
  unfold execGroupRepair
  apply KeepsO.next
  with_reducible apply Keeps.fields
  split
  with_reducible apply Keeps.fields
  split
  apply degradeGw_keeps
  with_reducible assumption
  apply Keeps.ite
  intro _
  apply swapGroup_keeps
  apply testWaves_keeps
  with_reducible assumption
  intro _
  apply setFlag_keeps
  apply syncSpares_keeps
  apply retireGroup_keeps
  apply testWaves_keeps
  with_reducible assumption
  with_reducible assumption

theorem execResetDevice_keeps {mb : Nat} {s : State} (k1 : Keeps d s0 s) : KeepsO d s0 (execResetDevice mb s) := by
  unfold execResetDevice
  apply KeepsO.next
  with_reducible apply Keeps.fields
  split
  with_reducible assumption
  apply Keeps.ite
  intro _
  apply refuse_keeps
  with_reducible assumption
  intro _
  apply deviceReset_keeps
  apply answerOk_keeps
  with_reducible assumption

theorem execFlr_keeps {s : State} (k0 : Keeps d s0 s) : KeepsO d s0 (execFlr s) := by
  unfold execFlr
  apply KeepsO.next
  apply Keeps.ite
  intro _
  with_reducible assumption
  intro _
  apply Keeps.ite
  intro _
  apply countSource_keeps
  apply startUp_keeps
  apply clearDevice_keeps
  apply endHostWork_keeps
  with_reducible assumption
  intro _
  apply countSource_keeps
  with_reducible apply Keeps.fields
  apply setFlag_keeps
  apply setFn_keeps
  with_reducible apply Keeps.fields
  apply clearConfig_keeps
  apply clearFlr_keeps
  apply endHostWork_keeps
  apply fenceAllCtx_keeps
  with_reducible assumption

theorem stopWork_keeps {s : State} {n : Nat} (k0 : Keeps d s0 s) : Keeps d s0 (stopWork s n) := by
  unfold stopWork
  apply Keeps.ite
  intro _
  apply abandonAll_keeps
  with_reducible assumption
  intro _
  apply Keeps.ite
  intro _
  apply Keeps.foldl
  with_reducible assumption
  intro _ _ _
  apply Keeps.foldl
  apply setOut_keeps
  with_reducible assumption
  intro _ _ _
  apply endCommit_keeps
  with_reducible assumption
  intro _
  with_reducible assumption

theorem unitUp_keeps {s : State} {n : Nat} (k0 : Keeps d s0 s) : Keeps d s0 (unitUp s n) := by
  unfold unitUp
  apply Keeps.ite
  intro _
  apply flushHeld_keeps
  apply setFlag_keeps
  apply setFn_keeps
  apply Keeps.ite
  intro _
  with_reducible assumption
  intro _
  apply applyRecords_keeps
  with_reducible assumption
  intro _
  apply Keeps.ite
  intro _
  with_reducible apply Keeps.fields
  apply setFlag_keeps
  apply setFn_keeps
  apply Keeps.ite
  intro _
  with_reducible assumption
  intro _
  apply applyRecords_keeps
  with_reducible assumption
  intro _
  apply setFlag_keeps
  apply setFn_keeps
  apply Keeps.ite
  intro _
  with_reducible assumption
  intro _
  apply applyRecords_keeps
  with_reducible assumption

theorem stepFirmware_keeps {s : State} (k0 : Keeps d s0 s) : Keeps d s0 (stepFirmware s) := by
  unfold stepFirmware
  with_reducible apply Keeps.fields
  split
  apply buAt_keeps
  apply driveAlarm_keeps
  apply setFlag_keeps
  apply regulatorUp_keeps
  apply runImage_keeps
  apply takeImage_keeps
  with_reducible assumption
  apply buAt_keeps
  apply raiseCause_keeps
  apply setFlag_keeps
  with_reducible assumption

theorem execRmFailed_keeps {s : State} (k0 : Keeps d s0 s) : KeepsO d s0 (execRmFailed s) := by
  unfold execRmFailed
  apply KeepsO.next
  apply Keeps.ite
  intro _
  apply votingFailed_keeps
  with_reducible assumption
  intro _
  with_reducible assumption

theorem execRmDisagree_keeps {seq : Nat} {s : State} (k1 : Keeps d s0 s) : KeepsO d s0 (execRmDisagree seq s) := by
  unfold execRmDisagree
  apply KeepsO.next
  apply Keeps.ite
  intro _
  with_reducible assumption
  intro _
  apply Keeps.ite
  intro _
  apply votingFailed_keeps
  with_reducible assumption
  intro _
  apply chrono_keeps
  with_reducible apply Keeps.fields
  apply setFld_keeps
  apply countReg_keeps
  with_reducible assumption

theorem restartBoxes_keeps {s : State} {st : MbSt} (k0 : Keeps d s0 s) : Keeps d s0 (restartBoxes s st) := by
  unfold restartBoxes
  apply Keeps.foldl
  with_reducible assumption
  intro _ _ _
  apply Keeps.ite
  intro _
  apply refuse_keeps
  apply setMbox_keeps
  with_reducible assumption
  intro _
  with_reducible assumption

theorem regulatorDead_keeps {s : State} (k0 : Keeps d s0 s) : Keeps d s0 (regulatorDead s) := by
  unfold regulatorDead
  apply Keeps.ite
  intro _
  with_reducible apply Keeps.fields
  apply setFld_keeps
  with_reducible apply Keeps.fields
  with_reducible assumption
  intro _
  apply restartBoxes_keeps
  apply raiseCause_keeps
  apply setFld_keeps
  with_reducible apply Keeps.fields
  with_reducible assumption

theorem execChronoInfo_keeps {mb : Nat} {s : State} (k1 : Keeps d s0 s) : KeepsO d s0 (execChronoInfo mb s) := by
  unfold execChronoInfo
  apply KeepsO.next
  with_reducible apply Keeps.fields
  split
  with_reducible assumption
  apply answerOk_keeps
  with_reducible assumption

theorem execChronoLimit_keeps {mb : Nat} {s : State} (k1 : Keeps d s0 s) : KeepsO d s0 (execChronoLimit mb s) := by
  unfold execChronoLimit
  apply KeepsO.next
  with_reducible apply Keeps.fields
  split
  with_reducible assumption
  apply answerOk_keeps
  with_reducible apply Keeps.chFields
  with_reducible assumption

theorem execChronoRead_keeps {mb : Nat} {s : State} (k1 : Keeps d s0 s) : KeepsO d s0 (execChronoRead mb s) := by
  unfold execChronoRead
  apply KeepsO.next
  with_reducible apply Keeps.fields
  split
  with_reducible assumption
  with_reducible apply Keeps.fields
  split
  apply refuse_keeps
  with_reducible assumption
  apply answerOk_keeps
  with_reducible assumption

theorem execChronoExport_keeps {mb : Nat} {s : State} (k1 : Keeps d s0 s) : KeepsO d s0 (execChronoExport mb s) := by
  unfold execChronoExport
  apply KeepsO.next
  with_reducible apply Keeps.fields
  split
  with_reducible assumption
  apply Keeps.ite
  intro _
  apply refuse_keeps
  with_reducible assumption
  intro _
  with_reducible apply Keeps.fields
  split
  apply refuse_keeps
  with_reducible assumption
  apply Keeps.ite
  intro _
  apply endJob_keeps
  apply acceptJob_keeps
  with_reducible assumption
  intro _
  apply Keeps.ite
  intro _
  apply setJob_keeps
  apply acceptJob_keeps
  with_reducible assumption
  intro _
  apply acceptJob_keeps
  with_reducible assumption

theorem execChronoClear_keeps {mb : Nat} {s : State} (k1 : Keeps d s0 s) (hd : ¬d) : KeepsO d s0 (execChronoClear mb s) := by
  unfold execChronoClear
  refine KeepsO.next ?_
  split
  · exact k1
  · rename_i r h
    dsimp only
    refine Keeps.ite (fun _ => k1) (fun _ => Keeps.ite (fun _ => refuse_keeps k1) (fun _ => ?_))
    have k2 : Keeps d s0 (if natBits (wd r 4) 1 1 = 1 then { s with ch := { s.ch with circ := [] } } else s) :=
      Keeps.ite (fun _ => k1.updCh rfl rfl rfl (fun c => ⟨⟨c.1, Nat.zero_le _, c.2.2.1, c.2.2.2.1, c.2.2.2.2⟩,
        fun x => absurd x hd⟩)) (fun _ => k1)
    generalize (if natBits (wd r 4) 1 1 = 1 then ({ s with ch := { s.ch with circ := [] } } : State) else s) = u at k2 ⊢
    refine Keeps.ite (fun _ => ?_) (fun hb => answerOk_keeps (clearedRec_keeps k2 (fun _ e => absurd e hb)))
    exact k2.updCh rfl rfl rfl (fun c => ⟨⟨Nat.zero_le _, c.2.1, c.2.2.1, Nat.zero_le _, fun _ => rfl⟩, fun x => absurd x hd⟩)

theorem execPermanentEraseComplete_keeps {s : State} (k0 : Keeps d s0 s) : KeepsO d s0 (execPermanentEraseComplete s) := by
  unfold execPermanentEraseComplete
  refine KeepsO.next ?_
  split
  · exact k0
  · rename_i mb h
    have k1 : Keeps d s0 { s with ch := { s.ch with erasing := none, eraseMask := 0 } } :=
      k0.updCh rfl rfl rfl (fun c => ⟨⟨c.1, c.2.1, c.2.2.1, c.2.2.2.1, fun e => nomatch e⟩, fun _ => ⟨Nat.le_refl _, rfl⟩⟩)
    have k2 := clearedRec_keeps (mask := s.ch.eraseMask) k1 (fun c _ => (k0.ch c).2.2.2.2 (by rw [h]; rfl))
    dsimp only
    split
    · exact answerOk_keeps k2
    · exact k2

theorem execStatus_keeps {mb : Nat} {s : State} (k1 : Keeps d s0 s) : KeepsO d s0 (execStatus mb s) := by
  unfold execStatus
  apply KeepsO.next
  with_reducible apply Keeps.fields
  split
  with_reducible assumption
  apply answerOk_keeps
  with_reducible assumption

theorem execScrub_keeps {mb : Nat} {s : State} (k1 : Keeps d s0 s) : KeepsO d s0 (execScrub mb s) := by
  unfold execScrub
  apply KeepsO.next
  with_reducible apply Keeps.fields
  split
  with_reducible assumption
  apply Keeps.ite
  intro _
  apply refuse_keeps
  with_reducible assumption
  intro _
  with_reducible apply Keeps.fields
  split
  apply refuse_keeps
  with_reducible assumption
  apply Keeps.ite
  intro _
  apply endJob_keeps
  apply acceptJob_keeps
  with_reducible assumption
  intro _
  apply acceptJob_keeps
  with_reducible assumption

theorem execReadCounters_keeps {mb : Nat} {s : State} (k1 : Keeps d s0 s) : KeepsO d s0 (execReadCounters mb s) := by
  unfold execReadCounters
  apply KeepsO.next
  with_reducible apply Keeps.fields
  split
  with_reducible assumption
  apply answerOk_keeps
  with_reducible assumption

theorem placeRuns_keeps {s : State} {p : Nat} {i : Ingest} {rs : List PixRun} (k0 : Keeps d s0 s) : Keeps d s0 (placeRuns s p i rs).st := by
  unfold placeRuns
  with_reducible apply Keeps.fields
  split
  extract_lets +onlyGivenNames x; unfold x
  extract_lets +onlyGivenNames x; have hx : Keeps d s0 x.1; (on_goal 2 => clear_value x); unfold x
  apply rowsReleased_keeps
  with_reducible assumption
  with_reducible apply Keeps.fields
  split
  dsimp only [id, Prep.st, LaneMem.st, Fetched.st, Placed.st, Chain.st, Laid.stOr]
  with_reducible assumption
  dsimp only [id, Prep.st, LaneMem.st, Fetched.st, Placed.st, Chain.st, Laid.stOr]
  with_reducible assumption
  dsimp only [id, Prep.st, LaneMem.st, Fetched.st, Placed.st, Chain.st, Laid.stOr]
  with_reducible assumption
  extract_lets +onlyGivenNames x; unfold x
  extract_lets +onlyGivenNames x; unfold x
  extract_lets +onlyGivenNames x; unfold x
  dsimp only [id, Prep.st, LaneMem.st, Fetched.st, Placed.st, Chain.st, Laid.stOr]
  apply tickFor_keeps
  apply addWide_keeps
  apply Keeps.foldl
  with_reducible assumption
  intro _ _ _
  apply tileWr_keeps
  apply Keeps.ite
  intro _
  with_reducible assumption
  intro _
  apply noteFail_keeps
  with_reducible assumption
  extract_lets +onlyGivenNames x; unfold x
  extract_lets +onlyGivenNames x; have hx : Keeps d s0 x.1; (on_goal 2 => clear_value x); unfold x
  apply rowsReleased_keeps
  with_reducible assumption
  with_reducible apply Keeps.fields
  split
  dsimp only [id, Prep.st, LaneMem.st, Fetched.st, Placed.st, Chain.st, Laid.stOr]
  with_reducible assumption
  dsimp only [id, Prep.st, LaneMem.st, Fetched.st, Placed.st, Chain.st, Laid.stOr]
  with_reducible assumption
  dsimp only [id, Prep.st, LaneMem.st, Fetched.st, Placed.st, Chain.st, Laid.stOr]
  with_reducible assumption
  extract_lets +onlyGivenNames x; unfold x
  extract_lets +onlyGivenNames x; unfold x
  extract_lets +onlyGivenNames x; unfold x
  extract_lets +onlyGivenNames x; unfold x
  with_reducible apply Keeps.fields
  split
  refine laneMem_wait (by assumption) ?_
  with_reducible assumption
  with_reducible apply Keeps.fields
  split
  extract_lets +onlyGivenNames x; have hx : Keeps d s0 x; (on_goal 2 => clear_value x); unfold x
  refine laneMem_go (by assumption) ?_
  with_reducible assumption
  dsimp only [id, Prep.st, LaneMem.st, Fetched.st, Placed.st, Chain.st, Laid.stOr]
  apply tickFor_keeps
  apply addWide_keeps
  apply Keeps.foldl
  with_reducible assumption
  intro _ _ _
  apply vaWr_keeps
  with_reducible assumption
  extract_lets +onlyGivenNames x; have hx : Keeps d s0 x; (on_goal 2 => clear_value x); unfold x
  apply noteFail_keeps
  refine laneMem_go (by assumption) ?_
  with_reducible assumption
  dsimp only [id, Prep.st, LaneMem.st, Fetched.st, Placed.st, Chain.st, Laid.stOr]
  apply tickFor_keeps
  apply addWide_keeps
  apply Keeps.foldl
  with_reducible assumption
  intro _ _ _
  apply vaWr_keeps
  with_reducible assumption

theorem placeRuns_wait {s : State} {p : Nat} {i : Ingest} {rs : List PixRun} {t : State} (e : placeRuns s p i rs = .wait t) (k0 : Keeps d s0 s) : Keeps d s0 t := by
  have h : Keeps d s0 (placeRuns s p i rs).st := placeRuns_keeps k0
  rw [e] at h
  exact h

theorem placeRuns_done {s : State} {p : Nat} {i : Ingest} {rs : List PixRun} {t : State} (e : placeRuns s p i rs = .done t) (k0 : Keeps d s0 s) : Keeps d s0 t := by
  have h : Keeps d s0 (placeRuns s p i rs).st := placeRuns_keeps k0
  rw [e] at h
  exact h

theorem placeRuns_stop {s : State} {p : Nat} {i : Ingest} {rs : List PixRun} {c} {t : State} (e : placeRuns s p i rs = .stop t c) (k0 : Keeps d s0 s) : Keeps d s0 t := by
  have h : Keeps d s0 (placeRuns s p i rs).st := placeRuns_keeps k0
  rw [e] at h
  exact h

theorem endIngest_keeps {s : State} {p : Nat} {i : Ingest} {st : Nat} {flag : Bool} (k0 : Keeps d s0 s) : Keeps d s0 (endIngest s p i st flag) := by
  unfold endIngest
  with_reducible apply Keeps.fields
  split
  apply Keeps.ite
  intro _
  apply recordOwn_keeps
  apply setMp_keeps
  apply dropWaits_keeps
  with_reducible assumption
  intro _
  apply setMp_keeps
  apply dropWaits_keeps
  with_reducible assumption
  apply endDesc_keeps
  apply setDesc_keeps
  apply Keeps.ite
  intro _
  apply recordOwn_keeps
  apply setMp_keeps
  apply dropWaits_keeps
  with_reducible assumption
  intro _
  apply setMp_keeps
  apply dropWaits_keeps
  with_reducible assumption

theorem execIngest_keeps {desc : Nat} {s : State} (k1 : Keeps d s0 s) : KeepsO d s0 (execIngest desc s) := by
  unfold execIngest
  apply KeepsO.next
  with_reducible apply Keeps.fields
  split
  with_reducible assumption
  apply Keeps.ite
  intro _
  with_reducible assumption
  intro _
  apply Keeps.ite
  intro _
  apply endDesc_keeps
  with_reducible assumption
  intro _
  apply Keeps.ite
  intro _
  apply endDesc_keeps
  with_reducible assumption
  intro _
  apply withMem_keeps
  with_reducible assumption
  intro _ _ _
  apply Keeps.ite
  intro _
  apply endDesc_keeps
  with_reducible assumption
  intro _
  apply setIngest_keeps
  with_reducible assumption
  intro _ _ _
  apply endDesc_keeps
  with_reducible assumption

theorem execFrameDrop_keeps {port : Nat} {s : State} (k1 : Keeps d s0 s) : KeepsO d s0 (execFrameDrop port s) := by
  unfold execFrameDrop
  apply KeepsO.next
  with_reducible apply Keeps.fields
  split
  with_reducible assumption
  apply Keeps.ite
  intro _
  apply endIngest_keeps
  apply countReg_keeps
  with_reducible assumption
  intro _
  with_reducible assumption

theorem drainPkts_keeps {s : State} {p : Nat} {i : Ingest} {a : List MediaPkt} {x4 : List MediaPkt} (k0 : Keeps d s0 s) : Keeps d s0 (drainPkts s p i a x4) := by
  induction a generalizing s i x4 with
  | nil =>
    unfold drainPkts
    apply setIngest_keeps
    with_reducible assumption
  | cons b l ih =>
    unfold drainPkts
    with_reducible apply Keeps.fields
    split
    apply ih
    refine placeRuns_wait (by assumption) ?_
    with_reducible assumption
    apply endIngest_keeps
    refine placeRuns_stop (by assumption) ?_
    with_reducible assumption
    apply Keeps.ite
    intro _
    apply endIngest_keeps
    apply completeRows_keeps
    refine placeRuns_done (by assumption) ?_
    with_reducible assumption
    intro _
    apply ih
    apply completeRows_keeps
    refine placeRuns_done (by assumption) ?_
    with_reducible assumption

theorem execIngestRelease_keeps {port : Nat} {s : State} (k1 : Keeps d s0 s) : KeepsO d s0 (execIngestRelease port s) := by
  unfold execIngestRelease
  apply KeepsO.next
  with_reducible apply Keeps.fields
  split
  with_reducible assumption
  apply Keeps.ite
  intro _
  with_reducible assumption
  intro _
  apply drainPkts_keeps
  with_reducible assumption

theorem execIngestFrameEnd_keeps {port : Nat} {s : State} (k1 : Keeps d s0 s) : KeepsO d s0 (execIngestFrameEnd port s) := by
  unfold execIngestFrameEnd
  apply KeepsO.next
  with_reducible apply Keeps.fields
  split
  with_reducible assumption
  apply Keeps.ite
  intro _
  apply endIngest_keeps
  with_reducible assumption
  intro _
  apply Keeps.ite
  intro _
  with_reducible assumption
  intro _
  with_reducible apply Keeps.fields
  split
  refine placeRuns_wait (by assumption) ?_
  with_reducible assumption
  apply endIngest_keeps
  refine placeRuns_stop (by assumption) ?_
  with_reducible assumption
  apply endIngest_keeps
  apply completeRows_keeps
  apply countReg_keeps
  refine placeRuns_done (by assumption) ?_
  with_reducible assumption

theorem reportHang_keeps {s : State} {c : Nat} (k0 : Keeps d s0 s) : Keeps d s0 (reportHang s c) := by
  unfold reportHang
  with_reducible apply Keeps.fields
  split
  with_reducible assumption
  apply Keeps.ite
  intro _
  with_reducible assumption
  intro _
  apply Keeps.ite
  intro _
  apply fenceCtx_keeps
  apply chrono_keeps
  apply setFlag_keeps
  apply setCtx_keeps
  with_reducible assumption
  intro _
  apply chrono_keeps
  apply setFlag_keeps
  apply setCtx_keeps
  with_reducible assumption

theorem reportCycle_keeps {s : State} {l : List Nat} (k0 : Keeps d s0 s) : Keeps d s0 (reportCycle s l) := by
  unfold reportCycle
  apply Keeps.ite
  intro _
  apply fenceCtx_keeps
  apply chrono_keeps
  apply setFlag_keeps
  apply Keeps.foldl
  with_reducible assumption
  intro _ _ _
  apply setCtx_keeps
  with_reducible assumption
  intro _
  apply chrono_keeps
  apply setFlag_keeps
  apply Keeps.foldl
  with_reducible assumption
  intro _ _ _
  apply setCtx_keeps
  with_reducible assumption

theorem mboxWrite_keeps {s : State} {m : Nat} {o : Nat} {val : Word} (k0 : Keeps d s0 s) : Keeps d s0 (mboxWrite s m o val) := by
  unfold mboxWrite
  apply Keeps.ite
  intro _
  apply Keeps.ite
  intro _
  apply setMbox_keeps
  with_reducible assumption
  intro _
  apply setMbox_keeps
  with_reducible assumption
  intro _
  apply Keeps.ite
  intro _
  apply Keeps.ite
  intro _
  apply after_keeps
  with_reducible assumption
  intro _ _
  apply execGo_keeps
  with_reducible assumption
  intro _
  apply Keeps.ite
  intro _
  apply after_keeps
  with_reducible assumption
  intro _ _
  apply execAck_keeps
  with_reducible assumption
  intro _
  with_reducible assumption
  intro _
  apply Keeps.ite
  intro _
  apply Keeps.ite
  intro _
  apply setMbox_keeps
  with_reducible assumption
  intro _
  with_reducible assumption
  intro _
  with_reducible assumption

theorem repeatedWrite_keeps {s : State} {off : Nat} {val : Word} (k0 : Keeps d s0 s) : Keeps d s0 (repeatedWrite s off val) := by
  unfold repeatedWrite
  apply Keeps.ite
  intro _
  apply mboxWrite_keeps
  with_reducible assumption
  intro _
  with_reducible apply Keeps.fields
  split
  apply Keeps.ite
  intro _
  apply after_keeps
  with_reducible assumption
  intro _ _
  apply execRelease_keeps
  with_reducible assumption
  intro _
  with_reducible assumption
  apply after_keeps
  with_reducible assumption
  intro _ _
  apply execCrOutCfgWrite_keeps
  with_reducible assumption
  apply after_keeps
  with_reducible assumption
  intro _ _
  apply execCrSlotWrite_keeps
  with_reducible assumption
  apply after_keeps
  with_reducible assumption
  intro _ _
  apply execGeneratorCtrlWrite_keeps
  with_reducible assumption
  apply msixWrite_keeps
  with_reducible assumption
  apply Keeps.ite
  intro _
  with_reducible assumption
  intro _
  apply plainWrite_keeps
  with_reducible assumption
  apply Keeps.ite
  intro _
  apply genRateWrite_keeps
  with_reducible assumption
  intro _
  apply Keeps.ite
  intro _
  apply after_keeps
  with_reducible assumption
  intro _ _
  apply execStreamRecordWrite_keeps
  with_reducible assumption
  intro _
  apply plainWrite_keeps
  with_reducible assumption

theorem actWrite_keeps {s : State} {off : Nat} {val : Word} (k0 : Keeps d s0 s) : Keeps d s0 (actWrite s off val) := by
  unfold actWrite
  apply Keeps.ite
  intro _
  apply eventWrite_keeps
  with_reducible assumption
  intro _
  apply Keeps.ite
  intro _
  apply after_keeps
  with_reducible assumption
  intro _ _
  apply execEvRecordHi_keeps
  with_reducible assumption
  intro _
  apply Keeps.ite
  intro _
  apply after_keeps
  with_reducible assumption
  intro _ _
  apply execEvRecordLo_keeps
  with_reducible assumption
  intro _
  apply Keeps.ite
  intro _
  apply after_keeps
  with_reducible assumption
  intro _ _
  apply execEvAdvance_keeps
  with_reducible assumption
  intro _
  apply Keeps.ite
  intro _
  apply Keeps.ite
  intro _
  apply after_keeps
  with_reducible assumption
  intro _ _
  apply execFlushAll_keeps
  with_reducible assumption
  intro _
  with_reducible assumption
  intro _
  apply Keeps.ite
  intro _
  apply after_keeps
  with_reducible assumption
  intro _ _
  apply execFaultRingResize_keeps
  with_reducible assumption
  intro _
  apply Keeps.ite
  intro _
  apply after_keeps
  with_reducible assumption
  intro _ _
  apply execFaultRingHeadWrite_keeps
  with_reducible assumption
  intro _
  apply Keeps.ite
  intro _
  apply Keeps.ite
  intro _
  apply setCtx_keeps
  with_reducible assumption
  intro _
  with_reducible assumption
  intro _
  apply Keeps.ite
  intro _
  apply after_keeps
  apply after_keeps
  with_reducible assumption
  intro _ _
  apply execSdEnWrite_keeps
  with_reducible assumption
  intro _ _
  apply execHcEnWrite_keeps
  with_reducible assumption
  intro _
  apply Keeps.ite
  intro _
  apply after_keeps
  with_reducible assumption
  intro _ _
  apply execCaWaysWrite_keeps
  with_reducible assumption
  intro _
  apply Keeps.ite
  intro _
  apply maintWrite_keeps
  with_reducible assumption
  intro _
  apply Keeps.ite
  intro _
  apply after_keeps
  with_reducible assumption
  intro _ _
  apply execBar4SlideWrite_keeps
  with_reducible assumption
  intro _
  apply Keeps.ite
  intro _
  apply after_keeps
  with_reducible assumption
  intro _ _
  apply execMcGo_keeps
  with_reducible assumption
  intro _
  apply Keeps.ite
  intro _
  apply after_keeps
  with_reducible assumption
  intro _ _
  apply execThermCfgWrite_keeps
  with_reducible assumption
  intro _
  apply Keeps.ite
  intro _
  apply after_keeps
  with_reducible assumption
  intro _ _
  apply execRsForget_keeps
  with_reducible assumption
  intro _
  apply Keeps.ite
  intro _
  apply nvmCtrlWrite_keeps
  with_reducible assumption
  intro _
  apply Keeps.ite
  intro _
  apply after_keeps
  with_reducible assumption
  intro _ _
  apply execClearCounts_keeps
  with_reducible assumption
  intro _
  apply Keeps.ite
  intro _
  apply after_keeps
  with_reducible assumption
  intro _ _
  apply execBkRtcSet_keeps
  with_reducible assumption
  intro _
  apply Keeps.ite
  intro _
  with_reducible apply Keeps.fields
  with_reducible assumption
  intro _
  apply Keeps.ite
  intro _
  apply after_keeps
  with_reducible assumption
  intro _ _
  apply execForget_keeps
  with_reducible assumption
  intro _
  apply repeatedWrite_keeps
  with_reducible assumption

theorem stageStore_keeps {s : State} {g : Eng} (k0 : Keeps d s0 s) : Keeps d s0 (stageStore s g) := by
  unfold stageStore
  apply withMem_keeps
  apply Keeps.ite
  intro _
  apply Keeps.foldl
  with_reducible assumption
  intro _ _ _
  apply checkTile_keeps
  with_reducible assumption
  intro _
  with_reducible assumption
  intro _ _ _
  apply afterStore_keeps
  apply Keeps.ite
  intro _
  apply Keeps.foldl
  with_reducible assumption
  intro _ _ _
  apply vaWr_keeps
  with_reducible assumption
  intro _
  apply countReg_keeps
  apply Keeps.foldl
  with_reducible assumption
  intro _ _ _
  apply vaWr_keeps
  with_reducible assumption
  intro _ _ _
  apply Keeps.ite
  intro _
  apply afterStore_keeps
  apply noteFail_keeps
  with_reducible assumption
  intro _
  apply enterDrain_keeps
  with_reducible assumption

theorem execTileProcess_keeps {te : Nat} {s : State} (k1 : Keeps d s0 s) : KeepsO d s0 (execTileProcess te s) := by
  unfold execTileProcess
  apply KeepsO.next
  with_reducible apply Keeps.fields
  split
  with_reducible assumption
  with_reducible apply Keeps.fields
  split
  with_reducible apply Keeps.fields
  with_reducible assumption
  apply Keeps.ite
  intro _
  with_reducible apply Keeps.fields
  apply dropWgs_keeps
  with_reducible assumption
  intro _
  with_reducible apply Keeps.fields
  split
  apply enterDrain_keeps
  with_reducible assumption
  apply enterDrain_keeps
  with_reducible assumption
  apply enterDrain_keeps
  with_reducible assumption
  apply stageLoad_keeps
  with_reducible assumption
  apply stagePre_keeps
  with_reducible assumption
  apply stageShade_keeps
  with_reducible assumption
  apply stageResolve_keeps
  with_reducible assumption
  apply afterRaster_keeps
  with_reducible assumption
  apply stageNetwork_keeps
  with_reducible assumption
  apply stageStore_keeps
  with_reducible assumption

theorem endRun_keeps {s : State} {id : Nat} (k0 : Keeps d s0 s) : Keeps d s0 (endRun s id) := by
  unfold endRun
  apply endDesc_keeps
  with_reducible assumption

theorem execHangPolicy_keeps {mb : Nat} {s : State} (k1 : Keeps d s0 s) : KeepsO d s0 (execHangPolicy mb s) := by
  unfold execHangPolicy
  apply KeepsO.next
  with_reducible apply Keeps.fields
  split
  with_reducible assumption
  apply ctxChange_keeps
  with_reducible assumption

theorem endWaiters_keeps {s : State} {i : Nat} {status : Nat} (k0 : Keeps d s0 s) : Keeps d s0 (endWaiters s i status) := by
  unfold endWaiters
  apply Keeps.ite
  intro _
  with_reducible apply Keeps.fields
  apply Keeps.foldl
  with_reducible apply Keeps.fields
  with_reducible assumption
  intro _ _ _
  apply endLoadDesc_keeps
  with_reducible assumption
  intro _
  with_reducible apply Keeps.fields
  with_reducible apply Keeps.fields
  apply Keeps.foldl
  with_reducible apply Keeps.fields
  with_reducible assumption
  intro _ _ _
  apply endLoadDesc_keeps
  with_reducible assumption

theorem execModelLoad_keeps {mb : Nat} {s : State} (k1 : Keeps d s0 s) : KeepsO d s0 (execModelLoad mb s) := by
  unfold execModelLoad
  apply KeepsO.next
  with_reducible apply Keeps.fields
  split
  with_reducible assumption
  apply admitCmd_keeps
  with_reducible assumption

theorem failAdm_keeps {s : State} {i : Nat} {status : Nat} {mark : Bool} (k0 : Keeps d s0 s) : Keeps d s0 (failAdm s i status mark) := by
  unfold failAdm
  with_reducible apply Keeps.fields
  split
  with_reducible apply Keeps.fields
  with_reducible assumption
  apply endWaiters_keeps
  apply recordEv_keeps
  apply setModel_keeps
  apply freeOrLater_keeps
  with_reducible apply Keeps.fields
  with_reducible assumption

theorem execLoadFailure_keeps {s : State} (k0 : Keeps d s0 s) : KeepsO d s0 (execLoadFailure s) := by
  unfold execLoadFailure
  apply KeepsO.next
  with_reducible apply Keeps.fields
  split
  with_reducible assumption
  apply Keeps.ite
  intro _
  with_reducible assumption
  intro _
  apply failAdm_keeps
  apply setFlag_keeps
  with_reducible assumption

theorem judgeAdm_keeps {s : State} {i : Nat} (k0 : Keeps d s0 s) : Keeps d s0 (judgeAdm s i) := by
  unfold judgeAdm
  with_reducible apply Keeps.fields
  split
  with_reducible apply Keeps.fields
  with_reducible assumption
  with_reducible apply Keeps.fields
  split
  apply failAdm_keeps
  with_reducible assumption
  apply Keeps.ite
  intro _
  apply startFill_keeps
  with_reducible assumption
  intro _
  apply Keeps.ite
  intro _
  apply startFill_keeps
  apply evictUntil_keeps
  with_reducible assumption
  intro _
  apply Keeps.ite
  intro _
  with_reducible apply Keeps.fields
  with_reducible assumption
  intro _
  apply failAdm_keeps
  with_reducible assumption

theorem refuseDf_keeps {s : State} {id : Nat} {status : Nat} (k0 : Keeps d s0 s) : Keeps d s0 (refuseDf s id status) := by
  unfold refuseDf
  apply endDf_keeps
  with_reducible assumption

theorem startDf_keeps {s : State} {id : Nat} {op : Nat} (k0 : Keeps d s0 s) : Keeps d s0 (startDf s id op) := by
  unfold startDf
  with_reducible apply Keeps.fields
  split
  with_reducible assumption
  apply Keeps.ite
  intro _
  with_reducible assumption
  intro _
  apply Keeps.ite
  intro _
  apply refuseDf_keeps
  with_reducible assumption
  intro _
  apply Keeps.ite
  intro _
  apply refuseDf_keeps
  with_reducible assumption
  intro _
  apply Keeps.ite
  intro _
  apply refuseDf_keeps
  with_reducible assumption
  intro _
  apply Keeps.ite
  intro _
  with_reducible apply Keeps.fields
  split
  apply refuseDf_keeps
  with_reducible assumption
  apply Keeps.ite
  intro _
  apply Keeps.ite
  intro _
  apply setDfJob_keeps
  with_reducible apply Keeps.fields
  with_reducible assumption
  intro _
  apply refuseDf_keeps
  with_reducible assumption
  intro _
  apply Keeps.ite
  intro _
  apply setDfJob_keeps
  with_reducible apply Keeps.fields
  with_reducible assumption
  intro _
  apply refuseDf_keeps
  with_reducible assumption
  intro _
  apply Keeps.ite
  intro _
  apply refuseDf_keeps
  with_reducible assumption
  intro _
  apply Keeps.ite
  intro _
  apply setDfJob_keeps
  with_reducible apply Keeps.fields
  with_reducible assumption
  intro _
  apply Keeps.ite
  intro _
  apply refuseDf_keeps
  with_reducible assumption
  intro _
  apply setDfJob_keeps
  with_reducible apply Keeps.fields
  with_reducible assumption

theorem finishDf_keeps {s : State} {id : Nat} {l : Nat} {j : DfJob} {x : Lane} {r : DfRes} (k0 : Keeps d s0 s) : Keeps d s0 (finishDf s id l j x r) := by
  unfold finishDf
  apply endDf_keeps
  apply leaveLane_keeps
  apply Keeps.ite
  intro _
  apply Keeps.ite
  intro _
  apply setFlag_keeps
  apply Keeps.ite
  intro _
  apply setFlag_keeps
  apply countReg_keeps
  with_reducible assumption
  intro _
  with_reducible assumption
  intro _
  apply Keeps.ite
  intro _
  apply setFlag_keeps
  apply countReg_keeps
  with_reducible assumption
  intro _
  with_reducible assumption
  intro _
  apply tickFor_keeps
  apply addWide_keeps
  apply Keeps.ite
  intro _
  apply setFlag_keeps
  apply Keeps.ite
  intro _
  apply setFlag_keeps
  apply countReg_keeps
  with_reducible assumption
  intro _
  with_reducible assumption
  intro _
  apply Keeps.ite
  intro _
  apply setFlag_keeps
  apply countReg_keeps
  with_reducible assumption
  intro _
  with_reducible assumption

theorem execLd_keeps {wg : Nat} {beat : Nat} {s : State} (k2 : Keeps d s0 s) : KeepsO d s0 (execLd wg beat s) := by
  unfold execLd
  apply KeepsO.next
  with_reducible apply Keeps.fields
  split
  refine fetchIns_no (by assumption) ?_
  with_reducible assumption
  apply Keeps.ite
  intro _
  apply loadLanes_keeps
  refine fetchIns_here_keeps (by assumption) ?_
  with_reducible assumption
  intro _
  apply endWgErr_keeps
  refine fetchIns_here_keeps (by assumption) ?_
  with_reducible assumption

theorem execFree_keeps {desc : Nat} {s : State} (k1 : Keeps d s0 s) : KeepsO d s0 (execFree desc s) := by
  unfold execFree
  apply KeepsO.next
  apply startAlloc_keeps
  with_reducible assumption

theorem answerReq_keeps {s : State} {q : AllocReq} {va : Option Nat} {code : Nat} (k0 : Keeps d s0 s) : Keeps d s0 (answerReq s q va code) := by
  unfold answerReq
  with_reducible apply Keeps.fields
  split
  apply endRun_keeps
  apply Keeps.ite
  intro _
  with_reducible assumption
  intro _
  apply noteFail_keeps
  with_reducible assumption
  apply serveBeat_keeps
  with_reducible assumption

theorem execAllocatorRequest_keeps {ctx : Nat} {s : State} (k1 : Keeps d s0 s) : KeepsO d s0 (execAllocatorRequest ctx s) := by
  unfold execAllocatorRequest
  apply KeepsO.next
  with_reducible apply Keeps.fields
  split
  with_reducible assumption
  apply Keeps.ite
  intro _
  apply answerReq_keeps
  with_reducible apply Keeps.fields
  with_reducible assumption
  intro _
  apply Keeps.ite
  intro _
  with_reducible apply Keeps.fields
  split
  apply answerReq_keeps
  with_reducible apply Keeps.fields
  with_reducible assumption
  apply withMem_keeps
  with_reducible assumption
  intro _ _ _
  apply answerReq_keeps
  with_reducible apply Keeps.fields
  apply setCtx_keeps
  apply writeMeta_keeps
  with_reducible assumption
  intro _ _ _
  apply answerReq_keeps
  with_reducible apply Keeps.fields
  with_reducible assumption
  intro _
  with_reducible apply Keeps.fields
  split
  with_reducible apply Keeps.fields
  split
  refine laneMem_wait (by assumption) ?_
  with_reducible assumption
  apply answerReq_keeps
  with_reducible apply Keeps.fields
  split
  apply Keeps.ite
  intro _
  refine laneMem_go (by assumption) ?_
  with_reducible assumption
  intro _
  apply vaWr_keeps
  refine laneMem_go (by assumption) ?_
  with_reducible assumption
  refine laneMem_go (by assumption) ?_
  with_reducible assumption
  with_reducible apply Keeps.fields
  split
  refine laneMem_wait (by assumption) ?_
  with_reducible assumption
  apply Keeps.ite
  intro _
  apply answerReq_keeps
  with_reducible apply Keeps.fields
  split
  apply Keeps.ite
  intro _
  refine laneMem_go (by assumption) ?_
  with_reducible assumption
  intro _
  apply vaWr_keeps
  refine laneMem_go (by assumption) ?_
  with_reducible assumption
  refine laneMem_go (by assumption) ?_
  with_reducible assumption
  intro _
  apply answerReq_keeps
  with_reducible apply Keeps.fields
  apply setCtx_keeps
  with_reducible apply Keeps.fields
  split
  apply Keeps.ite
  intro _
  apply Keeps.ite
  intro _
  apply vaWr_keeps
  apply writeMeta_keeps
  refine laneMem_go (by assumption) ?_
  with_reducible assumption
  intro _
  apply writeMeta_keeps
  refine laneMem_go (by assumption) ?_
  with_reducible assumption
  intro _
  apply vaWr_keeps
  apply Keeps.ite
  intro _
  apply vaWr_keeps
  apply writeMeta_keeps
  refine laneMem_go (by assumption) ?_
  with_reducible assumption
  intro _
  apply writeMeta_keeps
  refine laneMem_go (by assumption) ?_
  with_reducible assumption
  apply Keeps.ite
  intro _
  apply vaWr_keeps
  apply writeMeta_keeps
  refine laneMem_go (by assumption) ?_
  with_reducible assumption
  intro _
  apply writeMeta_keeps
  refine laneMem_go (by assumption) ?_
  with_reducible assumption

theorem execBinnerUnpark_keeps {desc : Nat} {s : State} (k1 : Keeps d s0 s) : KeepsO d s0 (execBinnerUnpark desc s) := by
  unfold execBinnerUnpark
  apply KeepsO.next
  with_reducible apply Keeps.fields
  split
  with_reducible assumption
  apply Keeps.ite
  intro _
  with_reducible assumption
  intro _
  with_reducible apply Keeps.fields
  split
  apply abortBin_keeps
  with_reducible assumption
  with_reducible apply Keeps.fields
  split
  apply awaitEv_keeps
  with_reducible assumption
  apply setSegMap_keeps
  apply setBin_keeps
  apply awaitEv_keeps
  with_reducible assumption
  apply Keeps.ite
  intro _
  apply setSegMap_keeps
  apply setBin_keeps
  apply awaitEv_keeps
  with_reducible assumption
  intro _
  apply abortBin_keeps
  apply awaitEv_keeps
  with_reducible assumption
  apply abortBin_keeps
  apply awaitEv_keeps
  with_reducible assumption

theorem closeSegment_keeps {s : State} {id : Nat} {p : BinPass} {final : Bool} (k0 : Keeps d s0 s) : Keeps d s0 (closeSegment s id p final) := by
  unfold closeSegment
  apply heapWrite_keeps
  with_reducible assumption
  intro _ _
  apply Keeps.ite
  intro _
  apply endRun_keeps
  with_reducible apply Keeps.fields
  apply recordOwn_keeps
  with_reducible assumption
  intro _
  apply awaitEv_keeps
  apply setBin_keeps
  apply countReg_keeps
  apply recordOwn_keeps
  with_reducible assumption

theorem managerSwitch_keeps {s : State} {job : Option Nat} (k0 : Keeps d s0 s) : Keeps d s0 (managerSwitch s job) := by
  unfold managerSwitch
  apply beginSwitch_keeps
  apply Keeps.foldl
  with_reducible assumption
  intro _ _ _
  apply sendMgmt_keeps
  with_reducible assumption

theorem winVote_keeps {s : State} (k0 : Keeps d s0 s) : Keeps d s0 (winVote s) := by
  unfold winVote
  apply managerSwitch_keeps
  apply Keeps.foldl
  with_reducible apply Keeps.fields
  with_reducible assumption
  intro _ _ _
  apply sendMgmt_keeps
  with_reducible assumption

theorem closeEnum_keeps {s : State} (k0 : Keeps d s0 s) : Keeps d s0 (closeEnum s) := by
  unfold closeEnum
  with_reducible apply Keeps.fields
  split
  with_reducible assumption
  apply managerSwitch_keeps
  apply Keeps.foldl
  with_reducible apply Keeps.fields
  apply setJob_keeps
  with_reducible assumption
  intro _ _ _
  apply sendMgmt_keeps
  with_reducible assumption

theorem startFabJob_keeps {s : State} {j : Nat} (k0 : Keeps d s0 s) : Keeps d s0 (startFabJob s j) := by
  unfold startFabJob
  apply Keeps.ite
  intro _
  apply managerSwitch_keeps
  apply setJob_keeps
  with_reducible assumption
  intro _
  apply Keeps.ite
  intro _
  apply closeEnum_keeps
  apply sendEnum_keeps
  apply setJob_keeps
  with_reducible apply Keeps.fields
  apply setJob_keeps
  with_reducible assumption
  intro _
  apply sendEnum_keeps
  apply setJob_keeps
  with_reducible apply Keeps.fields
  apply setJob_keeps
  with_reducible assumption

theorem execPtpMessage_keeps {port : Nat} {domain : Nat} {kind : Nat} {accepted : Bool} {offset : Int} {utc : Nat} {s : State} (k6 : Keeps d s0 s) : KeepsO d s0 (execPtpMessage port domain kind accepted offset utc s) := by
  unfold execPtpMessage
  apply KeepsO.next
  apply Keeps.ite
  intro _
  with_reducible assumption
  intro _
  apply Keeps.ite
  intro _
  apply Keeps.ite
  intro _
  apply tmAnnounce_keeps
  with_reducible assumption
  intro _
  with_reducible assumption
  intro _
  apply Keeps.ite
  intro _
  apply tmSync_keeps
  with_reducible assumption
  intro _
  with_reducible assumption

theorem execRenderPassComplete_keeps {pass : Nat} {s : State} (k1 : Keeps d s0 s) : KeepsO d s0 (execRenderPassComplete pass s) := by
  unfold execRenderPassComplete
  apply KeepsO.next
  with_reducible apply Keeps.fields
  split
  with_reducible assumption
  apply Keeps.ite
  intro _
  with_reducible assumption
  intro _
  apply Keeps.ite
  intro _
  apply endRun_keeps
  apply dropPass_keeps
  apply releaseRows_keeps
  with_reducible assumption
  intro _
  apply withMem_keeps
  with_reducible assumption
  intro _ _ _
  apply endRun_keeps
  apply dropPass_keeps
  apply releaseRows_keeps
  apply vaWr_keeps
  apply vaWr_keeps
  with_reducible assumption
  intro _ _ _
  apply endRun_keeps
  apply dropPass_keeps
  apply releaseRows_keeps
  apply noteFail_keeps
  with_reducible assumption

theorem execCommit_keeps {desc : Nat} {s : State} (k1 : Keeps d s0 s) : KeepsO d s0 (execCommit desc s) := by
  unfold execCommit
  apply KeepsO.next
  with_reducible apply Keeps.fields
  split
  with_reducible assumption
  apply Keeps.ite
  intro _
  with_reducible assumption
  intro _
  apply Keeps.ite
  intro _
  apply endCommit_keeps
  with_reducible assumption
  intro _
  apply Keeps.ite
  intro _
  apply endCommit_keeps
  with_reducible assumption
  intro _
  apply Keeps.ite
  intro _
  apply endCommit_keeps
  with_reducible assumption
  intro _
  apply setOut_keeps
  apply Keeps.ite
  intro _
  apply countReg_keeps
  with_reducible assumption
  intro _
  with_reducible assumption

theorem execCommitComplete_keeps {output : Nat} {s : State} (k1 : Keeps d s0 s) : KeepsO d s0 (execCommitComplete output s) := by
  unfold execCommitComplete
  apply KeepsO.next
  with_reducible apply Keeps.fields
  split
  with_reducible assumption
  apply endCommit_keeps
  apply setOut_keeps
  with_reducible assumption

theorem latchOut_keeps {s : State} {o : Nat} (k0 : Keeps d s0 s) : Keeps d s0 (latchOut s o) := by
  unfold latchOut
  apply Keeps.ite
  intro _
  apply Keeps.foldl
  apply setOut_keeps
  with_reducible assumption
  intro _ _ _
  with_reducible apply Keeps.fields
  split
  apply endCommit_keeps
  with_reducible assumption
  with_reducible assumption
  intro _
  apply Keeps.ite
  intro _
  apply setOut_keeps
  apply latchSlots_keeps
  apply Keeps.foldl
  apply setOut_keeps
  with_reducible assumption
  intro _ _ _
  with_reducible apply Keeps.fields
  split
  apply endCommit_keeps
  with_reducible assumption
  with_reducible assumption
  intro _
  apply setOut_keeps
  apply Keeps.foldl
  apply setOut_keeps
  with_reducible assumption
  intro _ _ _
  with_reducible apply Keeps.fields
  split
  apply endCommit_keeps
  with_reducible assumption
  with_reducible assumption

theorem execLatch_keeps {output : Nat} {s : State} (k1 : Keeps d s0 s) : KeepsO d s0 (execLatch output s) := by
  unfold execLatch
  apply KeepsO.next
  apply Keeps.ite
  intro _
  with_reducible assumption
  intro _
  apply latchOut_keeps
  with_reducible assumption

theorem execCtxCreate_keeps {mb : Nat} {s : State} (k1 : Keeps d s0 s) : KeepsO d s0 (execCtxCreate mb s) := by
  unfold execCtxCreate
  apply KeepsO.next
  with_reducible apply Keeps.fields
  split
  with_reducible assumption
  with_reducible apply Keeps.fields
  split
  apply writeHeap_keeps
  with_reducible assumption
  with_reducible apply Keeps.fields
  split
  apply refuse_keeps
  with_reducible assumption
  apply Keeps.ite
  intro _
  apply answerOk_keeps
  apply defaultRing_keeps
  apply syncPlate_keeps
  apply growPart_keeps
  apply setCtx_keeps
  with_reducible apply Keeps.fields
  with_reducible assumption
  intro _
  apply writeHeap_keeps
  apply setCtx_keeps
  apply defaultRing_keeps
  apply syncPlate_keeps
  apply growPart_keeps
  apply setCtx_keeps
  with_reducible apply Keeps.fields
  with_reducible assumption

theorem dueBlock_keeps {s : State} {o : Nat} {b : Nat} (k0 : Keeps d s0 s) : Keeps d s0 (dueBlock s o b) := by
  unfold dueBlock
  apply Keeps.ite
  intro _
  with_reducible assumption
  intro _
  apply Keeps.ite
  intro _
  apply putBlock_keeps
  with_reducible assumption
  intro _
  with_reducible apply Keeps.fields
  split
  apply putBlock_keeps
  refine fetchLayers_eq (by assumption) ?_
  apply countReg_keeps
  with_reducible assumption
  apply underflow_keeps
  refine fetchLayers_eq (by assumption) ?_
  apply countReg_keeps
  with_reducible assumption

theorem execPacketTransmit_keeps {output : Nat} {s : State} (k1 : Keeps d s0 s) : KeepsO d s0 (execPacketTransmit output s) := by
  unfold execPacketTransmit
  apply KeepsO.next
  apply Keeps.ite
  intro _
  with_reducible assumption
  intro _
  apply setOut_keeps
  apply fetchAhead_keeps
  apply Keeps.foldl
  with_reducible assumption
  intro _ _ _
  apply dueBlock_keeps
  with_reducible assumption

theorem execSliceLoad_keeps {s : State} (k0 : Keeps d s0 s) : KeepsO d s0 (execSliceLoad s) := by
  unfold execSliceLoad
  apply KeepsO.next
  with_reducible apply Keeps.fields
  split
  with_reducible assumption
  apply Keeps.ite
  intro _
  apply fillShadow_keeps
  with_reducible assumption
  intro _
  with_reducible assumption

theorem runVec_keeps {s : State} {id : Nat} {o : GwOp} {q : GwPos} {sl : Slice} (k0 : Keeps d s0 s) : Keeps d s0 (runVec s id o q sl) := by
  unfold runVec
  apply Keeps.ite
  intro _
  apply setGwOp_keeps
  apply readVec_keeps
  with_reducible assumption
  intro _
  apply Keeps.ite
  intro _
  with_reducible apply Keeps.fields
  split
  apply setGwOp_keeps
  refine laneMem_wait (by assumption) ?_
  apply readVec_keeps
  with_reducible assumption
  apply setGwOp_keeps
  apply writeRow_keeps
  refine laneMem_go (by assumption) ?_
  apply readVec_keeps
  with_reducible assumption
  intro _
  with_reducible apply Keeps.fields
  split
  apply setGwOp_keeps
  apply readVec_keeps
  with_reducible assumption
  apply tileOut_keeps
  apply setGwOp_keeps
  apply Keeps.ite
  intro _
  apply readVec_keeps
  with_reducible assumption
  intro _
  apply noteFail_keeps
  apply readVec_keeps
  with_reducible assumption

theorem execGwOperationComplete_keeps {op : Nat} {s : State} (k1 : Keeps d s0 s) : KeepsO d s0 (execGwOperationComplete op s) := by
  unfold execGwOperationComplete
  apply KeepsO.next
  with_reducible apply Keeps.fields
  split
  with_reducible assumption
  apply Keeps.ite
  intro _
  with_reducible assumption
  intro _
  apply Keeps.ite
  intro _
  apply closeOp_keeps
  with_reducible assumption
  intro _
  apply Keeps.ite
  intro _
  with_reducible apply Keeps.fields
  split
  refine laneMem_wait (by assumption) ?_
  with_reducible assumption
  apply closeOp_keeps
  apply Keeps.foldl
  refine laneMem_go (by assumption) ?_
  with_reducible assumption
  intro _ _ _
  apply vaWr_keeps
  with_reducible apply Keeps.fields
  with_reducible assumption
  intro _
  with_reducible apply Keeps.fields
  split
  apply closeOp_keeps
  apply spoilTiles_keeps
  with_reducible assumption
  apply closeOp_keeps
  with_reducible assumption

theorem fenceUnit_keeps {s : State} {n : Nat} {source : Nat} (k0 : Keeps d s0 s) : Keeps d s0 (fenceUnit s n source) := by
  unfold fenceUnit
  apply Keeps.ite
  intro _
  apply fenceFnJobs_keeps
  apply stopWork_keeps
  apply fenceFn_keeps
  with_reducible assumption
  intro _
  with_reducible assumption

theorem failUnit_keeps {s : State} {n : Nat} (k0 : Keeps d s0 s) : Keeps d s0 (failUnit s n) := by
  unfold failUnit
  apply setFlag_keeps
  apply fenceUnit_keeps
  with_reducible assumption

theorem stepMemory_keeps {s : State} {pass : Bool} (k0 : Keeps d s0 s) : Keeps d s0 (stepMemory s pass) := by
  unfold stepMemory
  apply buAt_keeps
  apply Keeps.ite
  intro _
  apply unitUp_keeps
  apply unitUp_keeps
  apply zeroReserved_keeps
  with_reducible assumption
  intro _
  apply failUnit_keeps
  apply unitUp_keeps
  apply zeroReserved_keeps
  with_reducible assumption

theorem stepRemontoire_keeps {s : State} {pass : Bool} (k0 : Keeps d s0 s) : Keeps d s0 (stepRemontoire s pass) := by
  unfold stepRemontoire
  apply buAt_keeps
  apply Keeps.ite
  intro _
  apply setFn_keeps
  with_reducible assumption
  intro _
  apply raiseCause_keeps
  apply setFlag_keeps
  apply setFld_keeps
  apply failUnit_keeps
  with_reducible apply Keeps.fields
  with_reducible assumption

theorem freeze_keeps {s : State} {source : Nat} (k0 : Keeps d s0 s) : Keeps d s0 (freeze s source) := by
  unfold freeze
  apply fenceUnit_keeps
  apply setFld_keeps
  with_reducible assumption

theorem afterReload_keeps {s : State} (k0 : Keeps d s0 s) : Keeps d s0 (afterReload s) := by
  unfold afterReload
  with_reducible apply Keeps.fields
  with_reducible apply Keeps.fields
  apply Keeps.foldl
  apply restartBoxes_keeps
  with_reducible assumption
  intro _ _ _
  apply endJob_keeps
  with_reducible assumption

theorem execRecovery_keeps {s : State} (k0 : Keeps d s0 s) : KeepsO d s0 (execRecovery s) := by
  unfold execRecovery
  apply KeepsO.next
  with_reducible apply Keeps.fields
  split
  with_reducible assumption
  apply Keeps.ite
  intro _
  with_reducible assumption
  intro _
  with_reducible apply Keeps.fields
  split
  apply setFld_keeps
  with_reducible apply Keeps.fields
  apply Keeps.ite
  intro _
  with_reducible assumption
  intro _
  apply Keeps.foldl
  with_reducible assumption
  intro _ _ _
  apply fenceCtx_keeps
  with_reducible assumption
  with_reducible apply Keeps.fields
  split
  apply setFld_keeps
  with_reducible apply Keeps.fields
  apply takeImage_keeps
  apply Keeps.ite
  intro _
  with_reducible assumption
  intro _
  apply Keeps.foldl
  with_reducible assumption
  intro _ _ _
  apply fenceCtx_keeps
  with_reducible assumption
  apply regulatorDead_keeps
  apply Keeps.ite
  intro _
  with_reducible assumption
  intro _
  apply Keeps.foldl
  with_reducible assumption
  intro _ _ _
  apply fenceCtx_keeps
  with_reducible assumption

theorem startRecovery_keeps {s : State} {cause : Nat} (k0 : Keeps d s0 s) : Keeps d s0 (startRecovery s cause) := by
  unfold startRecovery
  apply Keeps.ite
  intro _
  apply regulatorDead_keeps
  with_reducible apply Keeps.fields
  apply freeze_keeps
  apply noteStart_keeps
  with_reducible assumption
  intro _
  with_reducible apply Keeps.fields
  apply freeze_keeps
  apply noteStart_keeps
  with_reducible assumption

theorem execDeviceCause_keeps {cause : Nat} {s : State} (k1 : Keeps d s0 s) : KeepsO d s0 (execDeviceCause cause s) := by
  unfold execDeviceCause
  apply KeepsO.next
  apply Keeps.ite
  intro _
  apply votingFailed_keeps
  with_reducible assumption
  intro _
  apply Keeps.ite
  intro _
  apply Keeps.ite
  intro _
  apply raiseCause_keeps
  with_reducible assumption
  intro _
  apply regulatorDead_keeps
  apply freeze_keeps
  with_reducible assumption
  intro _
  apply Keeps.ite
  intro _
  apply raiseCause_keeps
  apply setFlag_keeps
  with_reducible assumption
  intro _
  apply Keeps.ite
  intro _
  apply raiseCause_keeps
  with_reducible assumption
  intro _
  with_reducible assumption

theorem execLockstepMismatch_keeps {a : Bool} {b : Bool} {s : State} (k2 : Keeps d s0 s) : KeepsO d s0 (execLockstepMismatch a b s) := by
  unfold execLockstepMismatch
  apply KeepsO.next
  apply Keeps.ite
  intro _
  with_reducible assumption
  intro _
  apply Keeps.ite
  intro _
  apply Keeps.ite
  intro _
  apply regulatorDead_keeps
  apply noteStart_keeps
  with_reducible assumption
  intro _
  apply noteStart_keeps
  with_reducible assumption
  intro _
  apply Keeps.ite
  intro _
  with_reducible assumption
  intro _
  apply Keeps.ite
  intro _
  with_reducible apply Keeps.fields
  apply freeze_keeps
  with_reducible assumption
  intro _
  apply startRecovery_keeps
  with_reducible assumption

theorem jobWork_keeps {s : State} {j : Nat} (k0 : Keeps d s0 s) : Keeps d s0 (jobWork s j) := by
  unfold jobWork
  apply Keeps.ite
  intro _
  with_reducible assumption
  intro _
  apply Keeps.ite
  intro _
  with_reducible apply Keeps.fields
  split
  apply setJob_keeps
  with_reducible assumption
  apply Keeps.ite
  intro _
  apply setJob_keeps
  with_reducible assumption
  intro _
  apply Keeps.ite
  intro _
  with_reducible assumption
  intro _
  apply setJob_keeps
  apply evictModel_keeps
  with_reducible assumption
  intro _
  apply Keeps.ite
  intro _
  apply Keeps.ite
  intro _
  apply setJob_keeps
  with_reducible assumption
  intro _
  apply Keeps.ite
  intro _
  with_reducible assumption
  intro _
  apply setJob_keeps
  apply unloadModel_keeps
  with_reducible assumption
  intro _
  apply Keeps.ite
  intro _
  apply quotaEvict_keeps
  with_reducible assumption
  intro _
  apply Keeps.ite
  intro _
  apply Keeps.ite
  intro _
  apply setJob_keeps
  apply exportRun_keeps
  with_reducible assumption
  intro _
  apply exportRun_keeps
  with_reducible assumption
  intro _
  apply Keeps.ite
  intro _
  apply setJob_keeps
  with_reducible assumption
  intro _
  apply Keeps.ite
  intro _
  apply Keeps.ite
  intro _
  apply closeEnum_keeps
  with_reducible assumption
  intro _
  apply Keeps.ite
  intro _
  apply startFabJob_keeps
  with_reducible assumption
  intro _
  with_reducible assumption
  intro _
  with_reducible assumption

theorem takePkt_keeps {s : State} {p : Nat} {i : Ingest} {raw : Bool} {k : MediaPkt} (k0 : Keeps d s0 s) : Keeps d s0 (takePkt s p i raw k) := by
  unfold takePkt
  apply Keeps.ite
  intro _
  apply setFlag_keeps
  apply countReg_keeps
  apply setIngest_keeps
  with_reducible assumption
  intro _
  apply Keeps.ite
  intro _
  apply setIngest_keeps
  with_reducible assumption
  intro _
  apply drainPkts_keeps
  with_reducible assumption

theorem execMediaPacketReceive_keeps {port : Nat} {pk : MediaPkt} {s : State} (k2 : Keeps d s0 s) : KeepsO d s0 (execMediaPacketReceive port pk s) := by
  unfold execMediaPacketReceive
  apply KeepsO.next
  apply Keeps.ite
  intro _
  with_reducible assumption
  intro _
  apply Keeps.ite
  intro _
  apply countReg_keeps
  with_reducible assumption
  intro _
  apply Keeps.ite
  intro _
  apply countReg_keeps
  with_reducible assumption
  intro _
  with_reducible apply Keeps.fields
  split
  apply countReg_keeps
  with_reducible assumption
  with_reducible apply Keeps.fields
  split
  apply setMp_keeps
  with_reducible assumption
  apply Keeps.ite
  intro _
  apply setMp_keeps
  with_reducible assumption
  intro _
  with_reducible apply Keeps.fields
  split
  apply Keeps.ite
  intro _
  apply takePkt_keeps
  apply setMp_keeps
  with_reducible assumption
  intro _
  apply setMp_keeps
  with_reducible assumption
  apply Keeps.ite
  intro _
  apply takePkt_keeps
  apply setMp_keeps
  with_reducible assumption
  intro _
  apply setIngest_keeps
  apply setMp_keeps
  with_reducible assumption

theorem reportCycles_keeps {s : State} (k0 : Keeps d s0 s) : Keeps d s0 (reportCycles s) := by
  unfold reportCycles
  apply Keeps.foldl
  with_reducible assumption
  intro _ _ _
  apply reportCycle_keeps
  with_reducible assumption

theorem hostWrite_keeps {s : State} {off : Nat} {val : Word} (k0 : Keeps d s0 s) : Keeps d s0 (hostWrite s off val) := by
  unfold hostWrite
  apply Keeps.ite
  intro _
  with_reducible assumption
  intro _
  with_reducible apply Keeps.fields
  split
  apply Keeps.ite
  intro _
  with_reducible assumption
  intro _
  apply noteSource_keeps
  apply actWrite_keeps
  with_reducible assumption
  apply markFault_keeps
  with_reducible assumption

theorem execAdmission_keeps {s : State} (k0 : Keeps d s0 s) : KeepsO d s0 (execAdmission s) := by
  unfold execAdmission
  apply KeepsO.next
  with_reducible apply Keeps.fields
  split
  apply Keeps.ite
  intro _
  with_reducible assumption
  intro _
  apply judgeAdm_keeps
  with_reducible assumption
  with_reducible assumption

theorem blockIn_keeps {s : State} {i : Nat} {m : Model} {data : List Byte} (k0 : Keeps d s0 s) : Keeps d s0 (blockIn s i m data) := by
  unfold blockIn
  with_reducible apply Keeps.fields
  split
  with_reducible assumption
  apply Keeps.ite
  intro _
  apply endWaiters_keeps
  with_reducible apply Keeps.fields
  apply wakeOps_keeps
  apply recordEv_keeps
  with_reducible apply Keeps.fields
  apply addWide_keeps
  apply tickFor_keeps
  apply setModel_keeps
  with_reducible apply Keeps.fields
  apply setFrame_keeps
  with_reducible assumption
  intro _
  apply wakeOps_keeps
  apply recordEv_keeps
  with_reducible apply Keeps.fields
  apply addWide_keeps
  apply tickFor_keeps
  apply setModel_keeps
  with_reducible apply Keeps.fields
  apply setFrame_keeps
  with_reducible assumption

theorem execBlockResident_keeps {s : State} (k0 : Keeps d s0 s) : KeepsO d s0 (execBlockResident s) := by
  unfold execBlockResident
  apply KeepsO.next
  with_reducible apply Keeps.fields
  split
  with_reducible assumption
  with_reducible apply Keeps.fields
  split
  with_reducible assumption
  apply Keeps.ite
  intro _
  with_reducible assumption
  intro _
  with_reducible apply Keeps.fields
  split
  apply failAdm_keeps
  with_reducible assumption
  apply Keeps.ite
  intro _
  apply withMem_keeps
  with_reducible assumption
  intro _ _ _
  apply Keeps.ite
  intro _
  apply markAdm_keeps
  with_reducible assumption
  intro _
  apply blockIn_keeps
  with_reducible assumption
  intro _ _ _
  apply markAdm_keeps
  with_reducible assumption
  intro _
  apply Keeps.ite
  intro _
  with_reducible assumption
  intro _
  with_reducible apply Keeps.fields
  split
  refine prepare_wait (by assumption) ?_
  with_reducible assumption
  apply markAdm_keeps
  refine prepare_fault (by assumption) ?_
  with_reducible assumption
  apply withMem_keeps
  with_reducible assumption
  intro _ _ _
  apply Keeps.ite
  intro _
  apply markAdm_keeps
  with_reducible assumption
  intro _
  apply Keeps.ite
  intro _
  apply blockIn_keeps
  apply addWide_keeps
  with_reducible assumption
  intro _
  apply markAdm_keeps
  apply addWide_keeps
  with_reducible assumption
  intro _ _ _
  apply markAdm_keeps
  with_reducible assumption

theorem execHoldEndAdmissionResume_keeps {s : State} (k0 : Keeps d s0 s) : KeepsO d s0 (execHoldEndAdmissionResume s) := by
  unfold execHoldEndAdmissionResume
  apply KeepsO.next
  with_reducible apply Keeps.fields
  split
  apply Keeps.ite
  intro _
  apply judgeAdm_keeps
  apply releaseHeld_keeps
  with_reducible assumption
  intro _
  apply releaseHeld_keeps
  with_reducible assumption
  apply releaseHeld_keeps
  with_reducible assumption

theorem execCompress_keeps {desc : Nat} {s : State} (k1 : Keeps d s0 s) : KeepsO d s0 (execCompress desc s) := by
  unfold execCompress
  apply KeepsO.next
  apply startDf_keeps
  with_reducible assumption

theorem execFlush_keeps {desc : Nat} {s : State} (k1 : Keeps d s0 s) : KeepsO d s0 (execFlush desc s) := by
  unfold execFlush
  apply KeepsO.next
  apply startDf_keeps
  with_reducible assumption

theorem execDeflateJobComplete_keeps {desc : Nat} {s : State} (k1 : Keeps d s0 s) : KeepsO d s0 (execDeflateJobComplete desc s) := by
  unfold execDeflateJobComplete
  apply KeepsO.next
  with_reducible apply Keeps.fields
  split
  with_reducible assumption
  with_reducible apply Keeps.fields
  split
  with_reducible apply Keeps.fields
  split
  apply refuseDf_keeps
  with_reducible assumption
  apply Keeps.ite
  intro _
  apply refuseDf_keeps
  with_reducible assumption
  intro _
  with_reducible assumption
  with_reducible apply Keeps.fields
  split
  apply finishDf_keeps
  with_reducible assumption
  apply Keeps.ite
  intro _
  apply finishDf_keeps
  with_reducible assumption
  intro _
  with_reducible apply Keeps.fields
  split
  refine prepare_wait (by assumption) ?_
  with_reducible assumption
  apply finishDf_keeps
  refine prepare_fault (by assumption) ?_
  with_reducible assumption
  apply Keeps.ite
  intro _
  apply finishDf_keeps
  refine prepare_ok (by assumption) ?_
  with_reducible assumption
  intro _
  with_reducible apply Keeps.fields
  split
  refine layOut_wait (by assumption) ?_
  with_reducible assumption
  apply finishDf_keeps
  apply writePieces_keeps
  refine layOut_fault (by assumption) ?_
  with_reducible assumption
  with_reducible apply Keeps.fields
  split
  refine piecesWait_eq (by assumption) ?_
  with_reducible assumption
  apply finishDf_keeps
  apply writePieces_keeps
  refine prepare_ok (by assumption) ?_
  with_reducible assumption

theorem execDecompress_keeps {desc : Nat} {s : State} (k1 : Keeps d s0 s) : KeepsO d s0 (execDecompress desc s) := by
  unfold execDecompress
  apply KeepsO.next
  apply startDf_keeps
  with_reducible assumption

theorem binOne_keeps {s : State} {id : Nat} {p : BinPass} {shaded : List Vtx} {num : Nat} {vs : List Nat} {rest : List (Nat × List Nat)} (k0 : Keeps d s0 s) : Keeps d s0 (binOne s id p shaded num vs rest) := by
  unfold binOne
  apply Keeps.ite
  intro _
  apply closeSegment_keeps
  with_reducible assumption
  intro _
  apply heapWrite_keeps
  with_reducible assumption
  intro _ _
  apply Keeps.ite
  intro _
  apply addWide_keeps
  apply setSegMap_keeps
  apply setBin_keeps
  with_reducible assumption
  intro _
  apply tickFor_keeps
  apply addWide_keeps
  apply setSegMap_keeps
  apply setBin_keeps
  with_reducible assumption

theorem execBinBatch_keeps {s : State} (k0 : Keeps d s0 s) : KeepsO d s0 (execBinBatch s) := by
  unfold execBinBatch
  apply KeepsO.next
  with_reducible apply Keeps.fields
  split
  with_reducible assumption
  with_reducible apply Keeps.fields
  split
  apply abortBin_keeps
  with_reducible assumption
  with_reducible apply Keeps.fields
  split
  apply binOne_keeps
  with_reducible assumption
  apply Keeps.ite
  intro _
  apply setBin_keeps
  apply dropWgs_keeps
  with_reducible assumption
  intro _
  with_reducible assumption
  apply Keeps.ite
  intro _
  apply closeSegment_keeps
  with_reducible assumption
  intro _
  apply formBatch_keeps
  with_reducible assumption

theorem acceptFab_keeps {s : State} {mb : Nat} {total : Nat} (k0 : Keeps d s0 s) : Keeps d s0 (acceptFab s mb total) := by
  unfold acceptFab
  with_reducible apply Keeps.fields
  split
  apply refuse_keeps
  with_reducible assumption
  apply Keeps.ite
  intro _
  apply acceptJob_keeps
  with_reducible assumption
  intro _
  apply startFabJob_keeps
  apply acceptJob_keeps
  with_reducible assumption

theorem execFabRejoin_keeps {mb : Nat} {s : State} (k1 : Keeps d s0 s) : KeepsO d s0 (execFabRejoin mb s) := by
  unfold execFabRejoin
  apply KeepsO.next
  with_reducible apply Keeps.fields
  split
  with_reducible assumption
  apply Keeps.ite
  intro _
  apply refuse_keeps
  with_reducible assumption
  intro _
  apply acceptFab_keeps
  with_reducible assumption

theorem execQuorumVote_keeps {s : State} (k0 : Keeps d s0 s) : KeepsO d s0 (execQuorumVote s) := by
  unfold execQuorumVote
  apply KeepsO.next
  with_reducible apply Keeps.fields
  split
  with_reducible assumption
  apply Keeps.ite
  intro _
  with_reducible assumption
  intro _
  apply Keeps.ite
  intro _
  apply Keeps.ite
  intro _
  with_reducible apply Keeps.fields
  with_reducible assumption
  intro _
  apply winVote_keeps
  with_reducible apply Keeps.fields
  with_reducible assumption
  intro _
  apply Keeps.ite
  intro _
  apply chrono_keeps
  apply nlErr_keeps
  with_reducible apply Keeps.fields
  with_reducible apply Keeps.fields
  with_reducible assumption
  intro _
  with_reducible apply Keeps.fields
  with_reducible assumption

theorem gotEnumAnswer_keeps {s : State} {port : Nat} {role : Nat} {keep : Nat} {path : List Nat} {links : List (Nat × Nat × Nat)} (k0 : Keeps d s0 s) : Keeps d s0 (gotEnumAnswer s port role keep path links) := by
  unfold gotEnumAnswer
  with_reducible apply Keeps.fields
  split
  with_reducible apply Keeps.fields
  split
  apply Keeps.ite
  intro _
  with_reducible assumption
  intro _
  apply sendHop_keeps
  with_reducible assumption
  with_reducible assumption
  apply Keeps.ite
  intro _
  with_reducible assumption
  intro _
  apply Keeps.ite
  intro _
  apply nlErr_keeps
  with_reducible assumption
  intro _
  apply Keeps.ite
  intro _
  apply nlErr_keeps
  with_reducible assumption
  intro _
  apply Keeps.ite
  intro _
  apply closeEnum_keeps
  apply queueOut_keeps
  apply setJob_keeps
  with_reducible apply Keeps.fields
  apply Keeps.ite
  intro _
  apply nlErr_keeps
  with_reducible assumption
  intro _
  with_reducible assumption
  intro _
  apply queueOut_keeps
  apply setJob_keeps
  with_reducible apply Keeps.fields
  apply Keeps.ite
  intro _
  apply nlErr_keeps
  with_reducible assumption
  intro _
  with_reducible assumption

theorem execEnumAnswer_keeps {port : Nat} {role : Nat} {keep : Nat} {path : List Nat} {links : List (Nat × Nat × Nat)} {s : State} (k5 : Keeps d s0 s) : KeepsO d s0 (execEnumAnswer port role keep path links s) := by
  unfold execEnumAnswer
  apply KeepsO.next
  apply gotEnumAnswer_keeps
  with_reducible assumption

theorem outBoundary_keeps {s : State} {o : Nat} {n : Nat} (k0 : Keeps d s0 s) : Keeps d s0 (outBoundary s o n) := by
  unfold outBoundary
  apply setOut_keeps
  apply Keeps.ite
  intro _
  apply addWide_keeps
  apply dropDying_keeps
  apply Keeps.ite
  intro _
  with_reducible assumption
  intro _
  apply latchOut_keeps
  with_reducible assumption
  intro _
  apply dropDying_keeps
  apply Keeps.ite
  intro _
  with_reducible assumption
  intro _
  apply latchOut_keeps
  with_reducible assumption

theorem execFrameBoundary_keeps {gen : Nat} {s : State} (k1 : Keeps d s0 s) : KeepsO d s0 (execFrameBoundary gen s) := by
  unfold execFrameBoundary
  apply KeepsO.next
  apply Keeps.ite
  intro _
  with_reducible assumption
  intro _
  apply setGen_keeps
  apply Keeps.ite
  intro _
  apply fetchAhead_keeps
  apply outBoundary_keeps
  apply Keeps.ite
  intro _
  apply recordEv_keeps
  with_reducible assumption
  intro _
  with_reducible assumption
  intro _
  apply Keeps.ite
  intro _
  apply recordEv_keeps
  with_reducible assumption
  intro _
  with_reducible assumption

theorem waveOf_keeps {s : State} {id : Nat} {o : GwOp} {fault : Nat} {group : Nat} (k0 : Keeps d s0 s) : Keeps d s0 (waveOf s id o fault group) := by
  unfold waveOf
  apply Keeps.ite
  intro _
  with_reducible apply Keeps.fields
  split
  apply Keeps.ite
  intro _
  apply endOnArray_keeps
  apply gwFault_keeps
  apply countWave_keeps
  with_reducible assumption
  intro _
  apply gwFault_keeps
  apply countWave_keeps
  with_reducible assumption
  apply gwFault_keeps
  apply countWave_keeps
  with_reducible assumption
  intro _
  apply Keeps.ite
  intro _
  apply gwFault_keeps
  apply countWave_keeps
  with_reducible assumption
  intro _
  apply Keeps.ite
  intro _
  apply stallOn_keeps
  apply feedReady_keeps
  with_reducible assumption
  intro _
  apply Keeps.ite
  intro _
  apply stallOn_keeps
  apply outReady_keeps
  apply feedReady_keeps
  with_reducible assumption
  intro _
  apply Keeps.ite
  intro _
  apply Keeps.ite
  intro _
  apply endOnArray_keeps
  apply outReady_keeps
  apply feedReady_keeps
  with_reducible assumption
  intro _
  apply stallOn_keeps
  apply outReady_keeps
  apply feedReady_keeps
  with_reducible assumption
  intro _
  with_reducible apply Keeps.fields
  split
  apply gwFault_keeps
  apply countWave_keeps
  apply runVec_keeps
  apply setGwOp_keeps
  apply outReady_keeps
  apply feedReady_keeps
  with_reducible assumption
  apply runVec_keeps
  apply setGwOp_keeps
  apply outReady_keeps
  apply feedReady_keeps
  with_reducible assumption

theorem execWavefront_keeps {fault : Nat} {group : Nat} {s : State} (k2 : Keeps d s0 s) : KeepsO d s0 (execWavefront fault group s) := by
  unfold execWavefront
  apply KeepsO.next
  with_reducible apply Keeps.fields
  split
  apply startSel_keeps
  with_reducible assumption
  with_reducible apply Keeps.fields
  split
  apply startSel_keeps
  with_reducible assumption
  apply waveOf_keeps
  apply startSel_keeps
  with_reducible assumption

theorem execFunctionFence_keeps {fn : Nat} {source : Nat} {s : State} (k2 : Keeps d s0 s) : KeepsO d s0 (execFunctionFence fn source s) := by
  unfold execFunctionFence
  apply KeepsO.next
  apply Keeps.ite
  intro _
  with_reducible assumption
  intro _
  apply fenceUnit_keeps
  with_reducible assumption

theorem resetFn_keeps {s : State} {n : Nat} (k0 : Keeps d s0 s) : Keeps d s0 (resetFn s n) := by
  unfold resetFn
  apply drainFn_keeps
  apply countSource_keeps
  with_reducible apply Keeps.fields
  apply fenceUnit_keeps
  with_reducible assumption

theorem execBringupStepComplete_keeps {pass : Bool} {s : State} (k1 : Keeps d s0 s) : KeepsO d s0 (execBringupStepComplete pass s) := by
  unfold execBringupStepComplete
  apply KeepsO.next
  apply Keeps.ite
  intro _
  with_reducible assumption
  intro _
  with_reducible apply Keeps.fields
  split
  with_reducible assumption
  with_reducible assumption
  apply Keeps.ite
  intro _
  apply buAt_keeps
  apply takeRetained_keeps
  apply checkBackup_keeps
  apply loadOptions_keeps
  with_reducible assumption
  intro _
  apply Keeps.ite
  intro _
  apply buAt_keeps
  with_reducible assumption
  intro _
  apply Keeps.ite
  intro _
  apply stepRemontoire_keeps
  with_reducible assumption
  intro _
  apply Keeps.ite
  intro _
  apply stepMemory_keeps
  with_reducible assumption
  intro _
  apply Keeps.ite
  intro _
  apply stepFirmware_keeps
  with_reducible assumption
  intro _
  with_reducible assumption
  apply Keeps.ite
  intro _
  with_reducible assumption
  intro _
  apply checkDone_keeps
  apply buAt_keeps
  apply Keeps.ite
  intro _
  apply unitUp_keeps
  with_reducible assumption
  intro _
  apply failUnit_keeps
  with_reducible assumption

theorem resetRegulator_keeps {s : State} (k0 : Keeps d s0 s) : Keeps d s0 (resetRegulator s) := by
  unfold resetRegulator
  with_reducible apply Keeps.fields
  apply freeze_keeps
  apply countSource_keeps
  with_reducible assumption

theorem execRegulatorStall_keeps {s : State} (k0 : Keeps d s0 s) : KeepsO d s0 (execRegulatorStall s) := by
  unfold execRegulatorStall
  apply KeepsO.next
  apply Keeps.ite
  intro _
  apply startRecovery_keeps
  with_reducible assumption
  intro _
  with_reducible assumption

theorem execReloadComplete_keeps {s : State} (k0 : Keeps d s0 s) : KeepsO d s0 (execReloadComplete s) := by
  unfold execReloadComplete
  apply KeepsO.next
  with_reducible apply Keeps.fields
  split
  with_reducible assumption
  with_reducible apply Keeps.fields
  split
  with_reducible assumption
  apply Keeps.ite
  intro _
  with_reducible assumption
  intro _
  apply checkDone_keeps
  apply afterReload_keeps
  apply Keeps.ite
  intro _
  apply chrono_keeps
  apply setFlag_keeps
  apply driveAlarm_keeps
  apply setFlag_keeps
  with_reducible apply Keeps.fields
  apply countReg_keeps
  apply regulatorUp_keeps
  with_reducible apply Keeps.fields
  split
  apply runImage_keeps
  with_reducible assumption
  with_reducible assumption
  intro _
  apply setFlag_keeps
  apply chrono_keeps
  apply putReg_keeps
  apply countReg_keeps
  with_reducible apply Keeps.fields
  apply countReg_keeps
  apply regulatorUp_keeps
  with_reducible apply Keeps.fields
  split
  apply runImage_keeps
  with_reducible assumption
  with_reducible assumption

theorem resetAny_keeps {s : State} {n : Nat} (k0 : Keeps d s0 s) : Keeps d s0 (resetAny s n) := by
  unfold resetAny
  apply Keeps.ite
  intro _
  apply resetRegulator_keeps
  with_reducible assumption
  intro _
  apply resetFn_keeps
  with_reducible assumption

theorem execResetFunction_keeps {mb : Nat} {s : State} (k1 : Keeps d s0 s) : KeepsO d s0 (execResetFunction mb s) := by
  unfold execResetFunction
  apply KeepsO.next
  with_reducible apply Keeps.fields
  split
  with_reducible assumption
  apply Keeps.ite
  intro _
  apply refuse_keeps
  with_reducible assumption
  intro _
  apply resetAny_keeps
  apply answerOk_keeps
  with_reducible apply Keeps.fields
  split
  apply setJob_keeps
  with_reducible assumption
  with_reducible assumption

theorem execJobDone_keeps {job : Nat} {s : State} (k1 : Keeps d s0 s) : KeepsO d s0 (execJobDone job s) := by
  unfold execJobDone
  apply KeepsO.next
  apply Keeps.ite
  intro _
  with_reducible assumption
  intro _
  with_reducible apply Keeps.fields
  split
  apply endJob_keeps
  apply jobWork_keeps
  with_reducible assumption
  apply jobWork_keeps
  with_reducible assumption

theorem execTickSample_keeps {s : State} (k0 : Keeps d s0 s) : KeepsO d s0 (execTickSample s) := by
  unfold execTickSample
  apply KeepsO.next
  apply Keeps.ite
  intro _
  with_reducible assumption
  intro _
  apply reportCycles_keeps
  apply Keeps.foldl
  with_reducible apply Keeps.fields
  apply Keeps.foldl
  apply markDone_keeps
  with_reducible assumption
  intro _ _ _
  apply setCtx_keeps
  with_reducible assumption
  intro _ _ _
  apply reportStuck_keeps
  apply reportHang_keeps
  with_reducible assumption

theorem hostWriteBytes_keeps {s : State} {off : Nat} {n : Nat} {val : Dword} (k0 : Keeps d s0 s) : Keeps d s0 (hostWriteBytes s off n val) := by
  unfold hostWriteBytes
  apply Keeps.ite
  intro _
  with_reducible assumption
  intro _
  apply Keeps.ite
  intro _
  apply hostWrite_keeps
  with_reducible assumption
  intro _
  apply Keeps.ite
  intro _
  apply hostWrite_keeps
  apply hostWrite_keeps
  with_reducible assumption
  intro _
  with_reducible apply Keeps.fields
  split
  apply Keeps.ite
  intro _
  with_reducible assumption
  intro _
  apply markFault_keeps
  with_reducible assumption
  apply markFault_keeps
  with_reducible assumption

theorem hostAccess_keeps {s : State} {write : Bool} {off : Nat} {val : Word} (k0 : Keeps d s0 s) : Keeps d s0 (hostAccess s write off val) := by
  unfold hostAccess
  apply Keeps.ite
  intro _
  apply hostWriteBytes_keeps
  with_reducible assumption
  intro _
  apply hostRead_keeps
  with_reducible assumption

theorem execRegisterWrite_keeps {off : Nat} {val : Word} {s : State} (k2 : Keeps d s0 s) : KeepsO d s0 (execRegisterWrite off val s) := by
  unfold execRegisterWrite
  apply KeepsO.next
  apply hostWriteBytes_keeps
  with_reducible assumption

theorem execUnmappedAccess_keeps {write : Bool} {off : Nat} {val : Word} {s : State} (k3 : Keeps d s0 s) : KeepsO d s0 (execUnmappedAccess write off val s) := by
  unfold execUnmappedAccess
  apply KeepsO.next
  apply hostAccess_keeps
  with_reducible assumption

theorem execAbsentUnitAccess_keeps {write : Bool} {off : Nat} {val : Word} {s : State} (k3 : Keeps d s0 s) : KeepsO d s0 (execAbsentUnitAccess write off val s) := by
  unfold execAbsentUnitAccess
  apply KeepsO.next
  apply hostAccess_keeps
  with_reducible assumption

theorem execFabEnumerate_keeps {mb : Nat} {s : State} (k1 : Keeps d s0 s) : KeepsO d s0 (execFabEnumerate mb s) := by
  unfold execFabEnumerate
  apply KeepsO.next
  with_reducible apply Keeps.fields
  split
  with_reducible assumption
  apply Keeps.ite
  intro _
  apply refuse_keeps
  with_reducible assumption
  intro _
  apply acceptFab_keeps
  with_reducible assumption

theorem execFabEpochSwitch_keeps {mb : Nat} {s : State} (k1 : Keeps d s0 s) : KeepsO d s0 (execFabEpochSwitch mb s) := by
  unfold execFabEpochSwitch
  apply KeepsO.next
  with_reducible apply Keeps.fields
  split
  with_reducible assumption
  apply Keeps.ite
  intro _
  apply refuse_keeps
  with_reducible assumption
  intro _
  apply acceptFab_keeps
  with_reducible assumption

theorem sinkMgmt_keeps {s : State} {port : Nat} {k : Packet} (k0 : Keeps d s0 s) : Keeps d s0 (sinkMgmt s port k) := by
  unfold sinkMgmt
  with_reducible apply Keeps.fields
  split
  apply gotEnum_keeps
  with_reducible assumption
  apply gotEnumAnswer_keeps
  with_reducible assumption
  apply gotNumber_keeps
  with_reducible assumption
  apply gotRoutes_keeps
  with_reducible assumption
  apply Keeps.ite
  intro _
  apply beginSwitch_keeps
  with_reducible assumption
  intro _
  with_reducible assumption
  apply Keeps.ite
  intro _
  apply swapBanks_keeps
  with_reducible assumption
  intro _
  with_reducible assumption
  apply flowEchoed_keeps
  with_reducible assumption
  apply switchReported_keeps
  with_reducible assumption
  apply gotLoss_keeps
  with_reducible assumption
  apply gotProbe_keeps
  with_reducible assumption
  apply gotProbeAnswer_keeps
  with_reducible assumption
  apply Keeps.ite
  intro _
  apply mcArrive_keeps
  with_reducible assumption
  intro _
  with_reducible assumption
  apply mcDone_keeps
  with_reducible assumption
  with_reducible assumption

theorem gotPacket_keeps {s : State} {port : Nat} {k : Packet} (k0 : Keeps d s0 s) : Keeps d s0 (gotPacket s port k) := by
  unfold gotPacket
  with_reducible apply Keeps.fields
  split
  apply queueOut_keeps
  with_reducible assumption
  apply sinkMgmt_keeps
  with_reducible assumption
  apply Keeps.ite
  intro _
  apply sinkMgmt_keeps
  with_reducible assumption
  intro _
  apply Keeps.ite
  intro _
  apply sinkMgmt_keeps
  with_reducible assumption
  intro _
  with_reducible apply Keeps.fields
  split
  apply Keeps.ite
  intro _
  apply sendMgmt_keeps
  with_reducible assumption
  intro _
  with_reducible apply Keeps.fields
  with_reducible assumption
  with_reducible apply Keeps.fields
  with_reducible assumption

theorem testFrom_keeps {s : State} {j : Nat} {k : Nat} (k0 : Keeps d s0 s) : Keeps d s0 (testFrom s j k) := by
  unfold testFrom
  with_reducible apply Keeps.fields
  split
  apply resetAny_keeps
  apply setJob_keeps
  with_reducible assumption
  apply setJob_keeps
  with_reducible assumption

theorem execFunctionRestored_keeps {fn : Nat} {pass : Bool} {s : State} (k2 : Keeps d s0 s) : KeepsO d s0 (execFunctionRestored fn pass s) := by
  unfold execFunctionRestored
  apply KeepsO.next
  apply Keeps.ite
  intro _
  with_reducible assumption
  intro _
  with_reducible apply Keeps.fields
  split
  apply testFrom_keeps
  apply setJob_keeps
  apply chrono_keeps
  with_reducible apply Keeps.fields
  apply Keeps.ite
  intro _
  apply unitUp_keeps
  with_reducible assumption
  intro _
  apply setFlag_keeps
  apply setFn_keeps
  with_reducible assumption
  apply chrono_keeps
  with_reducible apply Keeps.fields
  apply Keeps.ite
  intro _
  apply unitUp_keeps
  with_reducible assumption
  intro _
  apply setFlag_keeps
  apply setFn_keeps
  with_reducible assumption

theorem execSelfTest_keeps {mb : Nat} {s : State} (k1 : Keeps d s0 s) : KeepsO d s0 (execSelfTest mb s) := by
  unfold execSelfTest
  apply KeepsO.next
  with_reducible apply Keeps.fields
  split
  with_reducible assumption
  with_reducible apply Keeps.fields
  split
  apply refuse_keeps
  with_reducible assumption
  apply Keeps.ite
  intro _
  apply endJob_keeps
  apply acceptJob_keeps
  with_reducible assumption
  intro _
  apply testFrom_keeps
  apply acceptJob_keeps
  with_reducible assumption

theorem execBadWidthWrite_keeps {off : Nat} {bytes : Nat} {val : Dword} {s : State} (k3 : Keeps d s0 s) : KeepsO d s0 (execBadWidthWrite off bytes val s) := by
  unfold execBadWidthWrite
  apply KeepsO.next
  apply hostWriteBytes_keeps
  with_reducible assumption

theorem execFlitReceive_keeps {port : Nat} {good : Bool} {pkt : Packet} {s : State} (k3 : Keeps d s0 s) : KeepsO d s0 (execFlitReceive port good pkt s) := by
  unfold execFlitReceive
  apply KeepsO.next
  apply Keeps.ite
  intro _
  with_reducible assumption
  intro _
  apply Keeps.ite
  intro _
  apply gotPacket_keeps
  apply setPort_keeps
  with_reducible assumption
  intro _
  apply Keeps.ite
  intro _
  apply portDown_keeps
  apply setPort_keeps
  with_reducible assumption
  intro _
  apply countReg_keeps
  apply setPort_keeps
  with_reducible assumption

end Sys2Proof.Machine
end

