-- ==== Sys2Proof/Laws/State.lean ====
section
/-! SUPPORT. What each elementary update leaves alone, one lemma for each other field of the state, and what it puts
where it acts. -/

namespace Sys2Proof.Machine

@[simp] theorem putReg_fuse (s : State) (off : Nat) (w : Word) : (putReg s off w).fuse = s.fuse := rfl
@[simp] theorem putReg_time (s : State) (off : Nat) (w : Word) : (putReg s off w).time = s.time := rfl
@[simp] theorem putReg_wide (s : State) (off : Nat) (w : Word) : (putReg s off w).wide = s.wide := rfl
@[simp] theorem putReg_fns (s : State) (off : Nat) (w : Word) : (putReg s off w).fns = s.fns := rfl
@[simp] theorem putReg_mem (s : State) (off : Nat) (w : Word) : (putReg s off w).mem = s.mem := rfl
@[simp] theorem putReg_esc (s : State) (off : Nat) (w : Word) : (putReg s off w).esc = s.esc := rfl
@[simp] theorem putReg_evs (s : State) (off : Nat) (w : Word) : (putReg s off w).evs = s.evs := rfl
@[simp] theorem putReg_ctxs (s : State) (off : Nat) (w : Word) : (putReg s off w).ctxs = s.ctxs := rfl
@[simp] theorem putReg_tu (s : State) (off : Nat) (w : Word) : (putReg s off w).tu = s.tu := rfl
@[simp] theorem putReg_ca (s : State) (off : Nat) (w : Word) : (putReg s off w).ca = s.ca := rfl
@[simp] theorem putReg_rg (s : State) (off : Nat) (w : Word) : (putReg s off w).rg = s.rg := rfl
@[simp] theorem putReg_sched (s : State) (off : Nat) (w : Word) : (putReg s off w).sched = s.sched := rfl
@[simp] theorem putReg_hl (s : State) (off : Nat) (w : Word) : (putReg s off w).hl = s.hl := rfl
@[simp] theorem putReg_nl (s : State) (off : Nat) (w : Word) : (putReg s off w).nl = s.nl := rfl
@[simp] theorem putReg_pk (s : State) (off : Nat) (w : Word) : (putReg s off w).pk = s.pk := rfl
@[simp] theorem putReg_bu (s : State) (off : Nat) (w : Word) : (putReg s off w).bu = s.bu := rfl
@[simp] theorem putReg_er (s : State) (off : Nat) (w : Word) : (putReg s off w).er = s.er := rfl
@[simp] theorem putReg_ch (s : State) (off : Nat) (w : Word) : (putReg s off w).ch = s.ch := rfl
@[simp] theorem putReg_df (s : State) (off : Nat) (w : Word) : (putReg s off w).df = s.df := rfl
@[simp] theorem putReg_pl (s : State) (off : Nat) (w : Word) : (putReg s off w).pl = s.pl := rfl
@[simp] theorem putReg_ba (s : State) (off : Nat) (w : Word) : (putReg s off w).ba = s.ba := rfl
@[simp] theorem putReg_gw (s : State) (off : Nat) (w : Word) : (putReg s off w).gw = s.gw := rfl
@[simp] theorem putReg_pn (s : State) (off : Nat) (w : Word) : (putReg s off w).pn = s.pn := rfl
@[simp] theorem putReg_al (s : State) (off : Nat) (w : Word) : (putReg s off w).al = s.al := rfl
@[simp] theorem putReg_ra (s : State) (off : Nat) (w : Word) : (putReg s off w).ra = s.ra := rfl
@[simp] theorem putReg_cr (s : State) (off : Nat) (w : Word) : (putReg s off w).cr = s.cr := rfl
@[simp] theorem putReg_mp (s : State) (off : Nat) (w : Word) : (putReg s off w).mp = s.mp := rfl
@[simp] theorem putReg_free (s : State) (off : Nat) (w : Word) : (putReg s off w).free = s.free := rfl
@[simp] theorem putReg_pending (s : State) (off : Nat) (w : Word) : (putReg s off w).pending = s.pending := rfl

@[simp] theorem setFld_fuse (s : State) (off lo len v : Nat) : (setFld s off lo len v).fuse = s.fuse := rfl
@[simp] theorem setFld_time (s : State) (off lo len v : Nat) : (setFld s off lo len v).time = s.time := rfl
@[simp] theorem setFld_wide (s : State) (off lo len v : Nat) : (setFld s off lo len v).wide = s.wide := rfl
@[simp] theorem setFld_fns (s : State) (off lo len v : Nat) : (setFld s off lo len v).fns = s.fns := rfl
@[simp] theorem setFld_mem (s : State) (off lo len v : Nat) : (setFld s off lo len v).mem = s.mem := rfl
@[simp] theorem setFld_esc (s : State) (off lo len v : Nat) : (setFld s off lo len v).esc = s.esc := rfl
@[simp] theorem setFld_evs (s : State) (off lo len v : Nat) : (setFld s off lo len v).evs = s.evs := rfl
@[simp] theorem setFld_ctxs (s : State) (off lo len v : Nat) : (setFld s off lo len v).ctxs = s.ctxs := rfl
@[simp] theorem setFld_tu (s : State) (off lo len v : Nat) : (setFld s off lo len v).tu = s.tu := rfl
@[simp] theorem setFld_ca (s : State) (off lo len v : Nat) : (setFld s off lo len v).ca = s.ca := rfl
@[simp] theorem setFld_rg (s : State) (off lo len v : Nat) : (setFld s off lo len v).rg = s.rg := rfl
@[simp] theorem setFld_sched (s : State) (off lo len v : Nat) : (setFld s off lo len v).sched = s.sched := rfl
@[simp] theorem setFld_hl (s : State) (off lo len v : Nat) : (setFld s off lo len v).hl = s.hl := rfl
@[simp] theorem setFld_nl (s : State) (off lo len v : Nat) : (setFld s off lo len v).nl = s.nl := rfl
@[simp] theorem setFld_pk (s : State) (off lo len v : Nat) : (setFld s off lo len v).pk = s.pk := rfl
@[simp] theorem setFld_bu (s : State) (off lo len v : Nat) : (setFld s off lo len v).bu = s.bu := rfl
@[simp] theorem setFld_er (s : State) (off lo len v : Nat) : (setFld s off lo len v).er = s.er := rfl
@[simp] theorem setFld_ch (s : State) (off lo len v : Nat) : (setFld s off lo len v).ch = s.ch := rfl
@[simp] theorem setFld_df (s : State) (off lo len v : Nat) : (setFld s off lo len v).df = s.df := rfl
@[simp] theorem setFld_pl (s : State) (off lo len v : Nat) : (setFld s off lo len v).pl = s.pl := rfl
@[simp] theorem setFld_ba (s : State) (off lo len v : Nat) : (setFld s off lo len v).ba = s.ba := rfl
@[simp] theorem setFld_gw (s : State) (off lo len v : Nat) : (setFld s off lo len v).gw = s.gw := rfl
@[simp] theorem setFld_pn (s : State) (off lo len v : Nat) : (setFld s off lo len v).pn = s.pn := rfl
@[simp] theorem setFld_al (s : State) (off lo len v : Nat) : (setFld s off lo len v).al = s.al := rfl
@[simp] theorem setFld_ra (s : State) (off lo len v : Nat) : (setFld s off lo len v).ra = s.ra := rfl
@[simp] theorem setFld_cr (s : State) (off lo len v : Nat) : (setFld s off lo len v).cr = s.cr := rfl
@[simp] theorem setFld_mp (s : State) (off lo len v : Nat) : (setFld s off lo len v).mp = s.mp := rfl
@[simp] theorem setFld_free (s : State) (off lo len v : Nat) : (setFld s off lo len v).free = s.free := rfl
@[simp] theorem setFld_pending (s : State) (off lo len v : Nat) : (setFld s off lo len v).pending = s.pending := rfl

@[simp] theorem setFlag_fuse (s : State) (off i : Nat) (b : Bool) : (setFlag s off i b).fuse = s.fuse := rfl
@[simp] theorem setFlag_time (s : State) (off i : Nat) (b : Bool) : (setFlag s off i b).time = s.time := rfl
@[simp] theorem setFlag_wide (s : State) (off i : Nat) (b : Bool) : (setFlag s off i b).wide = s.wide := rfl
@[simp] theorem setFlag_fns (s : State) (off i : Nat) (b : Bool) : (setFlag s off i b).fns = s.fns := rfl
@[simp] theorem setFlag_mem (s : State) (off i : Nat) (b : Bool) : (setFlag s off i b).mem = s.mem := rfl
@[simp] theorem setFlag_esc (s : State) (off i : Nat) (b : Bool) : (setFlag s off i b).esc = s.esc := rfl
@[simp] theorem setFlag_evs (s : State) (off i : Nat) (b : Bool) : (setFlag s off i b).evs = s.evs := rfl
@[simp] theorem setFlag_ctxs (s : State) (off i : Nat) (b : Bool) : (setFlag s off i b).ctxs = s.ctxs := rfl
@[simp] theorem setFlag_tu (s : State) (off i : Nat) (b : Bool) : (setFlag s off i b).tu = s.tu := rfl
@[simp] theorem setFlag_ca (s : State) (off i : Nat) (b : Bool) : (setFlag s off i b).ca = s.ca := rfl
@[simp] theorem setFlag_rg (s : State) (off i : Nat) (b : Bool) : (setFlag s off i b).rg = s.rg := rfl
@[simp] theorem setFlag_sched (s : State) (off i : Nat) (b : Bool) : (setFlag s off i b).sched = s.sched := rfl
@[simp] theorem setFlag_hl (s : State) (off i : Nat) (b : Bool) : (setFlag s off i b).hl = s.hl := rfl
@[simp] theorem setFlag_nl (s : State) (off i : Nat) (b : Bool) : (setFlag s off i b).nl = s.nl := rfl
@[simp] theorem setFlag_pk (s : State) (off i : Nat) (b : Bool) : (setFlag s off i b).pk = s.pk := rfl
@[simp] theorem setFlag_bu (s : State) (off i : Nat) (b : Bool) : (setFlag s off i b).bu = s.bu := rfl
@[simp] theorem setFlag_er (s : State) (off i : Nat) (b : Bool) : (setFlag s off i b).er = s.er := rfl
@[simp] theorem setFlag_ch (s : State) (off i : Nat) (b : Bool) : (setFlag s off i b).ch = s.ch := rfl
@[simp] theorem setFlag_df (s : State) (off i : Nat) (b : Bool) : (setFlag s off i b).df = s.df := rfl
@[simp] theorem setFlag_pl (s : State) (off i : Nat) (b : Bool) : (setFlag s off i b).pl = s.pl := rfl
@[simp] theorem setFlag_ba (s : State) (off i : Nat) (b : Bool) : (setFlag s off i b).ba = s.ba := rfl
@[simp] theorem setFlag_gw (s : State) (off i : Nat) (b : Bool) : (setFlag s off i b).gw = s.gw := rfl
@[simp] theorem setFlag_pn (s : State) (off i : Nat) (b : Bool) : (setFlag s off i b).pn = s.pn := rfl
@[simp] theorem setFlag_al (s : State) (off i : Nat) (b : Bool) : (setFlag s off i b).al = s.al := rfl
@[simp] theorem setFlag_ra (s : State) (off i : Nat) (b : Bool) : (setFlag s off i b).ra = s.ra := rfl
@[simp] theorem setFlag_cr (s : State) (off i : Nat) (b : Bool) : (setFlag s off i b).cr = s.cr := rfl
@[simp] theorem setFlag_mp (s : State) (off i : Nat) (b : Bool) : (setFlag s off i b).mp = s.mp := rfl
@[simp] theorem setFlag_free (s : State) (off i : Nat) (b : Bool) : (setFlag s off i b).free = s.free := rfl
@[simp] theorem setFlag_pending (s : State) (off i : Nat) (b : Bool) : (setFlag s off i b).pending = s.pending := rfl

@[simp] theorem countReg_fuse (s : State) (off len n : Nat) : (countReg s off len n).fuse = s.fuse := rfl
@[simp] theorem countReg_time (s : State) (off len n : Nat) : (countReg s off len n).time = s.time := rfl
@[simp] theorem countReg_wide (s : State) (off len n : Nat) : (countReg s off len n).wide = s.wide := rfl
@[simp] theorem countReg_fns (s : State) (off len n : Nat) : (countReg s off len n).fns = s.fns := rfl
@[simp] theorem countReg_mem (s : State) (off len n : Nat) : (countReg s off len n).mem = s.mem := rfl
@[simp] theorem countReg_esc (s : State) (off len n : Nat) : (countReg s off len n).esc = s.esc := rfl
@[simp] theorem countReg_evs (s : State) (off len n : Nat) : (countReg s off len n).evs = s.evs := rfl
@[simp] theorem countReg_ctxs (s : State) (off len n : Nat) : (countReg s off len n).ctxs = s.ctxs := rfl
@[simp] theorem countReg_tu (s : State) (off len n : Nat) : (countReg s off len n).tu = s.tu := rfl
@[simp] theorem countReg_ca (s : State) (off len n : Nat) : (countReg s off len n).ca = s.ca := rfl
@[simp] theorem countReg_rg (s : State) (off len n : Nat) : (countReg s off len n).rg = s.rg := rfl
@[simp] theorem countReg_sched (s : State) (off len n : Nat) : (countReg s off len n).sched = s.sched := rfl
@[simp] theorem countReg_hl (s : State) (off len n : Nat) : (countReg s off len n).hl = s.hl := rfl
@[simp] theorem countReg_nl (s : State) (off len n : Nat) : (countReg s off len n).nl = s.nl := rfl
@[simp] theorem countReg_pk (s : State) (off len n : Nat) : (countReg s off len n).pk = s.pk := rfl
@[simp] theorem countReg_bu (s : State) (off len n : Nat) : (countReg s off len n).bu = s.bu := rfl
@[simp] theorem countReg_er (s : State) (off len n : Nat) : (countReg s off len n).er = s.er := rfl
@[simp] theorem countReg_ch (s : State) (off len n : Nat) : (countReg s off len n).ch = s.ch := rfl
@[simp] theorem countReg_df (s : State) (off len n : Nat) : (countReg s off len n).df = s.df := rfl
@[simp] theorem countReg_pl (s : State) (off len n : Nat) : (countReg s off len n).pl = s.pl := rfl
@[simp] theorem countReg_ba (s : State) (off len n : Nat) : (countReg s off len n).ba = s.ba := rfl
@[simp] theorem countReg_gw (s : State) (off len n : Nat) : (countReg s off len n).gw = s.gw := rfl
@[simp] theorem countReg_pn (s : State) (off len n : Nat) : (countReg s off len n).pn = s.pn := rfl
@[simp] theorem countReg_al (s : State) (off len n : Nat) : (countReg s off len n).al = s.al := rfl
@[simp] theorem countReg_ra (s : State) (off len n : Nat) : (countReg s off len n).ra = s.ra := rfl
@[simp] theorem countReg_cr (s : State) (off len n : Nat) : (countReg s off len n).cr = s.cr := rfl
@[simp] theorem countReg_mp (s : State) (off len n : Nat) : (countReg s off len n).mp = s.mp := rfl
@[simp] theorem countReg_free (s : State) (off len n : Nat) : (countReg s off len n).free = s.free := rfl
@[simp] theorem countReg_pending (s : State) (off len n : Nat) : (countReg s off len n).pending = s.pending := rfl

@[simp] theorem addWide_fuse (s : State) (lo n : Nat) : (addWide s lo n).fuse = s.fuse := rfl
@[simp] theorem addWide_time (s : State) (lo n : Nat) : (addWide s lo n).time = s.time := rfl
@[simp] theorem addWide_regs (s : State) (lo n : Nat) : (addWide s lo n).regs = s.regs := rfl
@[simp] theorem addWide_fns (s : State) (lo n : Nat) : (addWide s lo n).fns = s.fns := rfl
@[simp] theorem addWide_mem (s : State) (lo n : Nat) : (addWide s lo n).mem = s.mem := rfl
@[simp] theorem addWide_esc (s : State) (lo n : Nat) : (addWide s lo n).esc = s.esc := rfl
@[simp] theorem addWide_evs (s : State) (lo n : Nat) : (addWide s lo n).evs = s.evs := rfl
@[simp] theorem addWide_ctxs (s : State) (lo n : Nat) : (addWide s lo n).ctxs = s.ctxs := rfl
@[simp] theorem addWide_tu (s : State) (lo n : Nat) : (addWide s lo n).tu = s.tu := rfl
@[simp] theorem addWide_ca (s : State) (lo n : Nat) : (addWide s lo n).ca = s.ca := rfl
@[simp] theorem addWide_rg (s : State) (lo n : Nat) : (addWide s lo n).rg = s.rg := rfl
@[simp] theorem addWide_sched (s : State) (lo n : Nat) : (addWide s lo n).sched = s.sched := rfl
@[simp] theorem addWide_hl (s : State) (lo n : Nat) : (addWide s lo n).hl = s.hl := rfl
@[simp] theorem addWide_nl (s : State) (lo n : Nat) : (addWide s lo n).nl = s.nl := rfl
@[simp] theorem addWide_pk (s : State) (lo n : Nat) : (addWide s lo n).pk = s.pk := rfl
@[simp] theorem addWide_bu (s : State) (lo n : Nat) : (addWide s lo n).bu = s.bu := rfl
@[simp] theorem addWide_er (s : State) (lo n : Nat) : (addWide s lo n).er = s.er := rfl
@[simp] theorem addWide_ch (s : State) (lo n : Nat) : (addWide s lo n).ch = s.ch := rfl
@[simp] theorem addWide_df (s : State) (lo n : Nat) : (addWide s lo n).df = s.df := rfl
@[simp] theorem addWide_pl (s : State) (lo n : Nat) : (addWide s lo n).pl = s.pl := rfl
@[simp] theorem addWide_ba (s : State) (lo n : Nat) : (addWide s lo n).ba = s.ba := rfl
@[simp] theorem addWide_gw (s : State) (lo n : Nat) : (addWide s lo n).gw = s.gw := rfl
@[simp] theorem addWide_pn (s : State) (lo n : Nat) : (addWide s lo n).pn = s.pn := rfl
@[simp] theorem addWide_al (s : State) (lo n : Nat) : (addWide s lo n).al = s.al := rfl
@[simp] theorem addWide_ra (s : State) (lo n : Nat) : (addWide s lo n).ra = s.ra := rfl
@[simp] theorem addWide_cr (s : State) (lo n : Nat) : (addWide s lo n).cr = s.cr := rfl
@[simp] theorem addWide_mp (s : State) (lo n : Nat) : (addWide s lo n).mp = s.mp := rfl
@[simp] theorem addWide_free (s : State) (lo n : Nat) : (addWide s lo n).free = s.free := rfl
@[simp] theorem addWide_pending (s : State) (lo n : Nat) : (addWide s lo n).pending = s.pending := rfl

@[simp] theorem markDone_fuse (s : State) (id : Nat) : (markDone s id).fuse = s.fuse := rfl
@[simp] theorem markDone_regs (s : State) (id : Nat) : (markDone s id).regs = s.regs := rfl
@[simp] theorem markDone_wide (s : State) (id : Nat) : (markDone s id).wide = s.wide := rfl
@[simp] theorem markDone_fns (s : State) (id : Nat) : (markDone s id).fns = s.fns := rfl
@[simp] theorem markDone_mem (s : State) (id : Nat) : (markDone s id).mem = s.mem := rfl
@[simp] theorem markDone_esc (s : State) (id : Nat) : (markDone s id).esc = s.esc := rfl
@[simp] theorem markDone_evs (s : State) (id : Nat) : (markDone s id).evs = s.evs := rfl
@[simp] theorem markDone_ctxs (s : State) (id : Nat) : (markDone s id).ctxs = s.ctxs := rfl
@[simp] theorem markDone_tu (s : State) (id : Nat) : (markDone s id).tu = s.tu := rfl
@[simp] theorem markDone_ca (s : State) (id : Nat) : (markDone s id).ca = s.ca := rfl
@[simp] theorem markDone_rg (s : State) (id : Nat) : (markDone s id).rg = s.rg := rfl
@[simp] theorem markDone_sched (s : State) (id : Nat) : (markDone s id).sched = s.sched := rfl
@[simp] theorem markDone_hl (s : State) (id : Nat) : (markDone s id).hl = s.hl := rfl
@[simp] theorem markDone_nl (s : State) (id : Nat) : (markDone s id).nl = s.nl := rfl
@[simp] theorem markDone_pk (s : State) (id : Nat) : (markDone s id).pk = s.pk := rfl
@[simp] theorem markDone_bu (s : State) (id : Nat) : (markDone s id).bu = s.bu := rfl
@[simp] theorem markDone_er (s : State) (id : Nat) : (markDone s id).er = s.er := rfl
@[simp] theorem markDone_ch (s : State) (id : Nat) : (markDone s id).ch = s.ch := rfl
@[simp] theorem markDone_df (s : State) (id : Nat) : (markDone s id).df = s.df := rfl
@[simp] theorem markDone_pl (s : State) (id : Nat) : (markDone s id).pl = s.pl := rfl
@[simp] theorem markDone_ba (s : State) (id : Nat) : (markDone s id).ba = s.ba := rfl
@[simp] theorem markDone_gw (s : State) (id : Nat) : (markDone s id).gw = s.gw := rfl
@[simp] theorem markDone_pn (s : State) (id : Nat) : (markDone s id).pn = s.pn := rfl
@[simp] theorem markDone_al (s : State) (id : Nat) : (markDone s id).al = s.al := rfl
@[simp] theorem markDone_ra (s : State) (id : Nat) : (markDone s id).ra = s.ra := rfl
@[simp] theorem markDone_cr (s : State) (id : Nat) : (markDone s id).cr = s.cr := rfl
@[simp] theorem markDone_mp (s : State) (id : Nat) : (markDone s id).mp = s.mp := rfl
@[simp] theorem markDone_free (s : State) (id : Nat) : (markDone s id).free = s.free := rfl
@[simp] theorem markDone_pending (s : State) (id : Nat) : (markDone s id).pending = s.pending := rfl

@[simp] theorem setFn_fuse (s : State) (n : Nat) (f : Fn) : (setFn s n f).fuse = s.fuse := rfl
@[simp] theorem setFn_time (s : State) (n : Nat) (f : Fn) : (setFn s n f).time = s.time := rfl
@[simp] theorem setFn_regs (s : State) (n : Nat) (f : Fn) : (setFn s n f).regs = s.regs := rfl
@[simp] theorem setFn_wide (s : State) (n : Nat) (f : Fn) : (setFn s n f).wide = s.wide := rfl
@[simp] theorem setFn_mem (s : State) (n : Nat) (f : Fn) : (setFn s n f).mem = s.mem := rfl
@[simp] theorem setFn_esc (s : State) (n : Nat) (f : Fn) : (setFn s n f).esc = s.esc := rfl
@[simp] theorem setFn_evs (s : State) (n : Nat) (f : Fn) : (setFn s n f).evs = s.evs := rfl
@[simp] theorem setFn_ctxs (s : State) (n : Nat) (f : Fn) : (setFn s n f).ctxs = s.ctxs := rfl
@[simp] theorem setFn_tu (s : State) (n : Nat) (f : Fn) : (setFn s n f).tu = s.tu := rfl
@[simp] theorem setFn_ca (s : State) (n : Nat) (f : Fn) : (setFn s n f).ca = s.ca := rfl
@[simp] theorem setFn_rg (s : State) (n : Nat) (f : Fn) : (setFn s n f).rg = s.rg := rfl
@[simp] theorem setFn_sched (s : State) (n : Nat) (f : Fn) : (setFn s n f).sched = s.sched := rfl
@[simp] theorem setFn_hl (s : State) (n : Nat) (f : Fn) : (setFn s n f).hl = s.hl := rfl
@[simp] theorem setFn_nl (s : State) (n : Nat) (f : Fn) : (setFn s n f).nl = s.nl := rfl
@[simp] theorem setFn_pk (s : State) (n : Nat) (f : Fn) : (setFn s n f).pk = s.pk := rfl
@[simp] theorem setFn_bu (s : State) (n : Nat) (f : Fn) : (setFn s n f).bu = s.bu := rfl
@[simp] theorem setFn_er (s : State) (n : Nat) (f : Fn) : (setFn s n f).er = s.er := rfl
@[simp] theorem setFn_ch (s : State) (n : Nat) (f : Fn) : (setFn s n f).ch = s.ch := rfl
@[simp] theorem setFn_df (s : State) (n : Nat) (f : Fn) : (setFn s n f).df = s.df := rfl
@[simp] theorem setFn_pl (s : State) (n : Nat) (f : Fn) : (setFn s n f).pl = s.pl := rfl
@[simp] theorem setFn_ba (s : State) (n : Nat) (f : Fn) : (setFn s n f).ba = s.ba := rfl
@[simp] theorem setFn_gw (s : State) (n : Nat) (f : Fn) : (setFn s n f).gw = s.gw := rfl
@[simp] theorem setFn_pn (s : State) (n : Nat) (f : Fn) : (setFn s n f).pn = s.pn := rfl
@[simp] theorem setFn_al (s : State) (n : Nat) (f : Fn) : (setFn s n f).al = s.al := rfl
@[simp] theorem setFn_ra (s : State) (n : Nat) (f : Fn) : (setFn s n f).ra = s.ra := rfl
@[simp] theorem setFn_cr (s : State) (n : Nat) (f : Fn) : (setFn s n f).cr = s.cr := rfl
@[simp] theorem setFn_mp (s : State) (n : Nat) (f : Fn) : (setFn s n f).mp = s.mp := rfl
@[simp] theorem setFn_free (s : State) (n : Nat) (f : Fn) : (setFn s n f).free = s.free := rfl
@[simp] theorem setFn_pending (s : State) (n : Nat) (f : Fn) : (setFn s n f).pending = s.pending := rfl

@[simp] theorem setCtx_fuse (s : State) (c : Nat) (x : Ctx) : (setCtx s c x).fuse = s.fuse := rfl
@[simp] theorem setCtx_time (s : State) (c : Nat) (x : Ctx) : (setCtx s c x).time = s.time := rfl
@[simp] theorem setCtx_regs (s : State) (c : Nat) (x : Ctx) : (setCtx s c x).regs = s.regs := rfl
@[simp] theorem setCtx_wide (s : State) (c : Nat) (x : Ctx) : (setCtx s c x).wide = s.wide := rfl
@[simp] theorem setCtx_fns (s : State) (c : Nat) (x : Ctx) : (setCtx s c x).fns = s.fns := rfl
@[simp] theorem setCtx_mem (s : State) (c : Nat) (x : Ctx) : (setCtx s c x).mem = s.mem := rfl
@[simp] theorem setCtx_esc (s : State) (c : Nat) (x : Ctx) : (setCtx s c x).esc = s.esc := rfl
@[simp] theorem setCtx_evs (s : State) (c : Nat) (x : Ctx) : (setCtx s c x).evs = s.evs := rfl
@[simp] theorem setCtx_tu (s : State) (c : Nat) (x : Ctx) : (setCtx s c x).tu = s.tu := rfl
@[simp] theorem setCtx_ca (s : State) (c : Nat) (x : Ctx) : (setCtx s c x).ca = s.ca := rfl
@[simp] theorem setCtx_rg (s : State) (c : Nat) (x : Ctx) : (setCtx s c x).rg = s.rg := rfl
@[simp] theorem setCtx_sched (s : State) (c : Nat) (x : Ctx) : (setCtx s c x).sched = s.sched := rfl
@[simp] theorem setCtx_hl (s : State) (c : Nat) (x : Ctx) : (setCtx s c x).hl = s.hl := rfl
@[simp] theorem setCtx_nl (s : State) (c : Nat) (x : Ctx) : (setCtx s c x).nl = s.nl := rfl
@[simp] theorem setCtx_pk (s : State) (c : Nat) (x : Ctx) : (setCtx s c x).pk = s.pk := rfl
@[simp] theorem setCtx_bu (s : State) (c : Nat) (x : Ctx) : (setCtx s c x).bu = s.bu := rfl
@[simp] theorem setCtx_er (s : State) (c : Nat) (x : Ctx) : (setCtx s c x).er = s.er := rfl
@[simp] theorem setCtx_ch (s : State) (c : Nat) (x : Ctx) : (setCtx s c x).ch = s.ch := rfl
@[simp] theorem setCtx_df (s : State) (c : Nat) (x : Ctx) : (setCtx s c x).df = s.df := rfl
@[simp] theorem setCtx_pl (s : State) (c : Nat) (x : Ctx) : (setCtx s c x).pl = s.pl := rfl
@[simp] theorem setCtx_ba (s : State) (c : Nat) (x : Ctx) : (setCtx s c x).ba = s.ba := rfl
@[simp] theorem setCtx_gw (s : State) (c : Nat) (x : Ctx) : (setCtx s c x).gw = s.gw := rfl
@[simp] theorem setCtx_pn (s : State) (c : Nat) (x : Ctx) : (setCtx s c x).pn = s.pn := rfl
@[simp] theorem setCtx_al (s : State) (c : Nat) (x : Ctx) : (setCtx s c x).al = s.al := rfl
@[simp] theorem setCtx_ra (s : State) (c : Nat) (x : Ctx) : (setCtx s c x).ra = s.ra := rfl
@[simp] theorem setCtx_cr (s : State) (c : Nat) (x : Ctx) : (setCtx s c x).cr = s.cr := rfl
@[simp] theorem setCtx_mp (s : State) (c : Nat) (x : Ctx) : (setCtx s c x).mp = s.mp := rfl
@[simp] theorem setCtx_free (s : State) (c : Nat) (x : Ctx) : (setCtx s c x).free = s.free := rfl
@[simp] theorem setCtx_pending (s : State) (c : Nat) (x : Ctx) : (setCtx s c x).pending = s.pending := rfl

@[simp] theorem setEv_fuse (s : State) (e : Nat) (x : Ev) : (setEv s e x).fuse = s.fuse := rfl
@[simp] theorem setEv_time (s : State) (e : Nat) (x : Ev) : (setEv s e x).time = s.time := rfl
@[simp] theorem setEv_regs (s : State) (e : Nat) (x : Ev) : (setEv s e x).regs = s.regs := rfl
@[simp] theorem setEv_wide (s : State) (e : Nat) (x : Ev) : (setEv s e x).wide = s.wide := rfl
@[simp] theorem setEv_fns (s : State) (e : Nat) (x : Ev) : (setEv s e x).fns = s.fns := rfl
@[simp] theorem setEv_mem (s : State) (e : Nat) (x : Ev) : (setEv s e x).mem = s.mem := rfl
@[simp] theorem setEv_esc (s : State) (e : Nat) (x : Ev) : (setEv s e x).esc = s.esc := rfl
@[simp] theorem setEv_ctxs (s : State) (e : Nat) (x : Ev) : (setEv s e x).ctxs = s.ctxs := rfl
@[simp] theorem setEv_tu (s : State) (e : Nat) (x : Ev) : (setEv s e x).tu = s.tu := rfl
@[simp] theorem setEv_ca (s : State) (e : Nat) (x : Ev) : (setEv s e x).ca = s.ca := rfl
@[simp] theorem setEv_rg (s : State) (e : Nat) (x : Ev) : (setEv s e x).rg = s.rg := rfl
@[simp] theorem setEv_sched (s : State) (e : Nat) (x : Ev) : (setEv s e x).sched = s.sched := rfl
@[simp] theorem setEv_hl (s : State) (e : Nat) (x : Ev) : (setEv s e x).hl = s.hl := rfl
@[simp] theorem setEv_nl (s : State) (e : Nat) (x : Ev) : (setEv s e x).nl = s.nl := rfl
@[simp] theorem setEv_pk (s : State) (e : Nat) (x : Ev) : (setEv s e x).pk = s.pk := rfl
@[simp] theorem setEv_bu (s : State) (e : Nat) (x : Ev) : (setEv s e x).bu = s.bu := rfl
@[simp] theorem setEv_er (s : State) (e : Nat) (x : Ev) : (setEv s e x).er = s.er := rfl
@[simp] theorem setEv_ch (s : State) (e : Nat) (x : Ev) : (setEv s e x).ch = s.ch := rfl
@[simp] theorem setEv_df (s : State) (e : Nat) (x : Ev) : (setEv s e x).df = s.df := rfl
@[simp] theorem setEv_pl (s : State) (e : Nat) (x : Ev) : (setEv s e x).pl = s.pl := rfl
@[simp] theorem setEv_ba (s : State) (e : Nat) (x : Ev) : (setEv s e x).ba = s.ba := rfl
@[simp] theorem setEv_gw (s : State) (e : Nat) (x : Ev) : (setEv s e x).gw = s.gw := rfl
@[simp] theorem setEv_pn (s : State) (e : Nat) (x : Ev) : (setEv s e x).pn = s.pn := rfl
@[simp] theorem setEv_al (s : State) (e : Nat) (x : Ev) : (setEv s e x).al = s.al := rfl
@[simp] theorem setEv_ra (s : State) (e : Nat) (x : Ev) : (setEv s e x).ra = s.ra := rfl
@[simp] theorem setEv_cr (s : State) (e : Nat) (x : Ev) : (setEv s e x).cr = s.cr := rfl
@[simp] theorem setEv_mp (s : State) (e : Nat) (x : Ev) : (setEv s e x).mp = s.mp := rfl
@[simp] theorem setEv_free (s : State) (e : Nat) (x : Ev) : (setEv s e x).free = s.free := rfl
@[simp] theorem setEv_pending (s : State) (e : Nat) (x : Ev) : (setEv s e x).pending = s.pending := rfl

@[simp] theorem setPort_fuse (s : State) (p : Nat) (x : Port) : (setPort s p x).fuse = s.fuse := rfl
@[simp] theorem setPort_time (s : State) (p : Nat) (x : Port) : (setPort s p x).time = s.time := rfl
@[simp] theorem setPort_regs (s : State) (p : Nat) (x : Port) : (setPort s p x).regs = s.regs := rfl
@[simp] theorem setPort_wide (s : State) (p : Nat) (x : Port) : (setPort s p x).wide = s.wide := rfl
@[simp] theorem setPort_fns (s : State) (p : Nat) (x : Port) : (setPort s p x).fns = s.fns := rfl
@[simp] theorem setPort_mem (s : State) (p : Nat) (x : Port) : (setPort s p x).mem = s.mem := rfl
@[simp] theorem setPort_esc (s : State) (p : Nat) (x : Port) : (setPort s p x).esc = s.esc := rfl
@[simp] theorem setPort_evs (s : State) (p : Nat) (x : Port) : (setPort s p x).evs = s.evs := rfl
@[simp] theorem setPort_ctxs (s : State) (p : Nat) (x : Port) : (setPort s p x).ctxs = s.ctxs := rfl
@[simp] theorem setPort_tu (s : State) (p : Nat) (x : Port) : (setPort s p x).tu = s.tu := rfl
@[simp] theorem setPort_ca (s : State) (p : Nat) (x : Port) : (setPort s p x).ca = s.ca := rfl
@[simp] theorem setPort_rg (s : State) (p : Nat) (x : Port) : (setPort s p x).rg = s.rg := rfl
@[simp] theorem setPort_sched (s : State) (p : Nat) (x : Port) : (setPort s p x).sched = s.sched := rfl
@[simp] theorem setPort_hl (s : State) (p : Nat) (x : Port) : (setPort s p x).hl = s.hl := rfl
@[simp] theorem setPort_pk (s : State) (p : Nat) (x : Port) : (setPort s p x).pk = s.pk := rfl
@[simp] theorem setPort_bu (s : State) (p : Nat) (x : Port) : (setPort s p x).bu = s.bu := rfl
@[simp] theorem setPort_er (s : State) (p : Nat) (x : Port) : (setPort s p x).er = s.er := rfl
@[simp] theorem setPort_ch (s : State) (p : Nat) (x : Port) : (setPort s p x).ch = s.ch := rfl
@[simp] theorem setPort_df (s : State) (p : Nat) (x : Port) : (setPort s p x).df = s.df := rfl
@[simp] theorem setPort_pl (s : State) (p : Nat) (x : Port) : (setPort s p x).pl = s.pl := rfl
@[simp] theorem setPort_ba (s : State) (p : Nat) (x : Port) : (setPort s p x).ba = s.ba := rfl
@[simp] theorem setPort_gw (s : State) (p : Nat) (x : Port) : (setPort s p x).gw = s.gw := rfl
@[simp] theorem setPort_pn (s : State) (p : Nat) (x : Port) : (setPort s p x).pn = s.pn := rfl
@[simp] theorem setPort_al (s : State) (p : Nat) (x : Port) : (setPort s p x).al = s.al := rfl
@[simp] theorem setPort_ra (s : State) (p : Nat) (x : Port) : (setPort s p x).ra = s.ra := rfl
@[simp] theorem setPort_cr (s : State) (p : Nat) (x : Port) : (setPort s p x).cr = s.cr := rfl
@[simp] theorem setPort_mp (s : State) (p : Nat) (x : Port) : (setPort s p x).mp = s.mp := rfl
@[simp] theorem setPort_free (s : State) (p : Nat) (x : Port) : (setPort s p x).free = s.free := rfl
@[simp] theorem setPort_pending (s : State) (p : Nat) (x : Port) : (setPort s p x).pending = s.pending := rfl

@[simp] theorem retainedDirty_fuse (s : State) : (retainedDirty s).fuse = s.fuse := rfl
@[simp] theorem retainedDirty_time (s : State) : (retainedDirty s).time = s.time := rfl
@[simp] theorem retainedDirty_regs (s : State) : (retainedDirty s).regs = s.regs := rfl
@[simp] theorem retainedDirty_wide (s : State) : (retainedDirty s).wide = s.wide := rfl
@[simp] theorem retainedDirty_fns (s : State) : (retainedDirty s).fns = s.fns := rfl
@[simp] theorem retainedDirty_mem (s : State) : (retainedDirty s).mem = s.mem := rfl
@[simp] theorem retainedDirty_esc (s : State) : (retainedDirty s).esc = s.esc := rfl
@[simp] theorem retainedDirty_evs (s : State) : (retainedDirty s).evs = s.evs := rfl
@[simp] theorem retainedDirty_ctxs (s : State) : (retainedDirty s).ctxs = s.ctxs := rfl
@[simp] theorem retainedDirty_tu (s : State) : (retainedDirty s).tu = s.tu := rfl
@[simp] theorem retainedDirty_ca (s : State) : (retainedDirty s).ca = s.ca := rfl
@[simp] theorem retainedDirty_rg (s : State) : (retainedDirty s).rg = s.rg := rfl
@[simp] theorem retainedDirty_sched (s : State) : (retainedDirty s).sched = s.sched := rfl
@[simp] theorem retainedDirty_hl (s : State) : (retainedDirty s).hl = s.hl := rfl
@[simp] theorem retainedDirty_nl (s : State) : (retainedDirty s).nl = s.nl := rfl
@[simp] theorem retainedDirty_pk (s : State) : (retainedDirty s).pk = s.pk := rfl
@[simp] theorem retainedDirty_er (s : State) : (retainedDirty s).er = s.er := rfl
@[simp] theorem retainedDirty_ch (s : State) : (retainedDirty s).ch = s.ch := rfl
@[simp] theorem retainedDirty_df (s : State) : (retainedDirty s).df = s.df := rfl
@[simp] theorem retainedDirty_pl (s : State) : (retainedDirty s).pl = s.pl := rfl
@[simp] theorem retainedDirty_ba (s : State) : (retainedDirty s).ba = s.ba := rfl
@[simp] theorem retainedDirty_gw (s : State) : (retainedDirty s).gw = s.gw := rfl
@[simp] theorem retainedDirty_pn (s : State) : (retainedDirty s).pn = s.pn := rfl
@[simp] theorem retainedDirty_al (s : State) : (retainedDirty s).al = s.al := rfl
@[simp] theorem retainedDirty_ra (s : State) : (retainedDirty s).ra = s.ra := rfl
@[simp] theorem retainedDirty_cr (s : State) : (retainedDirty s).cr = s.cr := rfl
@[simp] theorem retainedDirty_mp (s : State) : (retainedDirty s).mp = s.mp := rfl
@[simp] theorem retainedDirty_free (s : State) : (retainedDirty s).free = s.free := rfl
@[simp] theorem retainedDirty_pending (s : State) : (retainedDirty s).pending = s.pending := rfl

@[simp] theorem setRing_fuse (s : State) (n : Nat) (x : Ring) : (setRing s n x).fuse = s.fuse := rfl
@[simp] theorem setRing_time (s : State) (n : Nat) (x : Ring) : (setRing s n x).time = s.time := rfl
@[simp] theorem setRing_regs (s : State) (n : Nat) (x : Ring) : (setRing s n x).regs = s.regs := rfl
@[simp] theorem setRing_wide (s : State) (n : Nat) (x : Ring) : (setRing s n x).wide = s.wide := rfl
@[simp] theorem setRing_fns (s : State) (n : Nat) (x : Ring) : (setRing s n x).fns = s.fns := rfl
@[simp] theorem setRing_mem (s : State) (n : Nat) (x : Ring) : (setRing s n x).mem = s.mem := rfl
@[simp] theorem setRing_evs (s : State) (n : Nat) (x : Ring) : (setRing s n x).evs = s.evs := rfl
@[simp] theorem setRing_ctxs (s : State) (n : Nat) (x : Ring) : (setRing s n x).ctxs = s.ctxs := rfl
@[simp] theorem setRing_tu (s : State) (n : Nat) (x : Ring) : (setRing s n x).tu = s.tu := rfl
@[simp] theorem setRing_ca (s : State) (n : Nat) (x : Ring) : (setRing s n x).ca = s.ca := rfl
@[simp] theorem setRing_rg (s : State) (n : Nat) (x : Ring) : (setRing s n x).rg = s.rg := rfl
@[simp] theorem setRing_sched (s : State) (n : Nat) (x : Ring) : (setRing s n x).sched = s.sched := rfl
@[simp] theorem setRing_hl (s : State) (n : Nat) (x : Ring) : (setRing s n x).hl = s.hl := rfl
@[simp] theorem setRing_nl (s : State) (n : Nat) (x : Ring) : (setRing s n x).nl = s.nl := rfl
@[simp] theorem setRing_pk (s : State) (n : Nat) (x : Ring) : (setRing s n x).pk = s.pk := rfl
@[simp] theorem setRing_bu (s : State) (n : Nat) (x : Ring) : (setRing s n x).bu = s.bu := rfl
@[simp] theorem setRing_er (s : State) (n : Nat) (x : Ring) : (setRing s n x).er = s.er := rfl
@[simp] theorem setRing_ch (s : State) (n : Nat) (x : Ring) : (setRing s n x).ch = s.ch := rfl
@[simp] theorem setRing_df (s : State) (n : Nat) (x : Ring) : (setRing s n x).df = s.df := rfl
@[simp] theorem setRing_pl (s : State) (n : Nat) (x : Ring) : (setRing s n x).pl = s.pl := rfl
@[simp] theorem setRing_ba (s : State) (n : Nat) (x : Ring) : (setRing s n x).ba = s.ba := rfl
@[simp] theorem setRing_gw (s : State) (n : Nat) (x : Ring) : (setRing s n x).gw = s.gw := rfl
@[simp] theorem setRing_pn (s : State) (n : Nat) (x : Ring) : (setRing s n x).pn = s.pn := rfl
@[simp] theorem setRing_al (s : State) (n : Nat) (x : Ring) : (setRing s n x).al = s.al := rfl
@[simp] theorem setRing_ra (s : State) (n : Nat) (x : Ring) : (setRing s n x).ra = s.ra := rfl
@[simp] theorem setRing_cr (s : State) (n : Nat) (x : Ring) : (setRing s n x).cr = s.cr := rfl
@[simp] theorem setRing_mp (s : State) (n : Nat) (x : Ring) : (setRing s n x).mp = s.mp := rfl
@[simp] theorem setRing_free (s : State) (n : Nat) (x : Ring) : (setRing s n x).free = s.free := rfl
@[simp] theorem setRing_pending (s : State) (n : Nat) (x : Ring) : (setRing s n x).pending = s.pending := rfl

@[simp] theorem setDesc_fuse (s : State) (d : Nat) (x : Desc) : (setDesc s d x).fuse = s.fuse := rfl
@[simp] theorem setDesc_time (s : State) (d : Nat) (x : Desc) : (setDesc s d x).time = s.time := rfl
@[simp] theorem setDesc_regs (s : State) (d : Nat) (x : Desc) : (setDesc s d x).regs = s.regs := rfl
@[simp] theorem setDesc_wide (s : State) (d : Nat) (x : Desc) : (setDesc s d x).wide = s.wide := rfl
@[simp] theorem setDesc_fns (s : State) (d : Nat) (x : Desc) : (setDesc s d x).fns = s.fns := rfl
@[simp] theorem setDesc_mem (s : State) (d : Nat) (x : Desc) : (setDesc s d x).mem = s.mem := rfl
@[simp] theorem setDesc_evs (s : State) (d : Nat) (x : Desc) : (setDesc s d x).evs = s.evs := rfl
@[simp] theorem setDesc_ctxs (s : State) (d : Nat) (x : Desc) : (setDesc s d x).ctxs = s.ctxs := rfl
@[simp] theorem setDesc_tu (s : State) (d : Nat) (x : Desc) : (setDesc s d x).tu = s.tu := rfl
@[simp] theorem setDesc_ca (s : State) (d : Nat) (x : Desc) : (setDesc s d x).ca = s.ca := rfl
@[simp] theorem setDesc_rg (s : State) (d : Nat) (x : Desc) : (setDesc s d x).rg = s.rg := rfl
@[simp] theorem setDesc_sched (s : State) (d : Nat) (x : Desc) : (setDesc s d x).sched = s.sched := rfl
@[simp] theorem setDesc_hl (s : State) (d : Nat) (x : Desc) : (setDesc s d x).hl = s.hl := rfl
@[simp] theorem setDesc_nl (s : State) (d : Nat) (x : Desc) : (setDesc s d x).nl = s.nl := rfl
@[simp] theorem setDesc_pk (s : State) (d : Nat) (x : Desc) : (setDesc s d x).pk = s.pk := rfl
@[simp] theorem setDesc_bu (s : State) (d : Nat) (x : Desc) : (setDesc s d x).bu = s.bu := rfl
@[simp] theorem setDesc_er (s : State) (d : Nat) (x : Desc) : (setDesc s d x).er = s.er := rfl
@[simp] theorem setDesc_ch (s : State) (d : Nat) (x : Desc) : (setDesc s d x).ch = s.ch := rfl
@[simp] theorem setDesc_df (s : State) (d : Nat) (x : Desc) : (setDesc s d x).df = s.df := rfl
@[simp] theorem setDesc_pl (s : State) (d : Nat) (x : Desc) : (setDesc s d x).pl = s.pl := rfl
@[simp] theorem setDesc_ba (s : State) (d : Nat) (x : Desc) : (setDesc s d x).ba = s.ba := rfl
@[simp] theorem setDesc_gw (s : State) (d : Nat) (x : Desc) : (setDesc s d x).gw = s.gw := rfl
@[simp] theorem setDesc_pn (s : State) (d : Nat) (x : Desc) : (setDesc s d x).pn = s.pn := rfl
@[simp] theorem setDesc_al (s : State) (d : Nat) (x : Desc) : (setDesc s d x).al = s.al := rfl
@[simp] theorem setDesc_ra (s : State) (d : Nat) (x : Desc) : (setDesc s d x).ra = s.ra := rfl
@[simp] theorem setDesc_cr (s : State) (d : Nat) (x : Desc) : (setDesc s d x).cr = s.cr := rfl
@[simp] theorem setDesc_mp (s : State) (d : Nat) (x : Desc) : (setDesc s d x).mp = s.mp := rfl
@[simp] theorem setDesc_free (s : State) (d : Nat) (x : Desc) : (setDesc s d x).free = s.free := rfl
@[simp] theorem setDesc_pending (s : State) (d : Nat) (x : Desc) : (setDesc s d x).pending = s.pending := rfl

@[simp] theorem setMbox_fuse (s : State) (m : Nat) (x : Mbox) : (setMbox s m x).fuse = s.fuse := rfl
@[simp] theorem setMbox_time (s : State) (m : Nat) (x : Mbox) : (setMbox s m x).time = s.time := rfl
@[simp] theorem setMbox_regs (s : State) (m : Nat) (x : Mbox) : (setMbox s m x).regs = s.regs := rfl
@[simp] theorem setMbox_wide (s : State) (m : Nat) (x : Mbox) : (setMbox s m x).wide = s.wide := rfl
@[simp] theorem setMbox_fns (s : State) (m : Nat) (x : Mbox) : (setMbox s m x).fns = s.fns := rfl
@[simp] theorem setMbox_mem (s : State) (m : Nat) (x : Mbox) : (setMbox s m x).mem = s.mem := rfl
@[simp] theorem setMbox_esc (s : State) (m : Nat) (x : Mbox) : (setMbox s m x).esc = s.esc := rfl
@[simp] theorem setMbox_evs (s : State) (m : Nat) (x : Mbox) : (setMbox s m x).evs = s.evs := rfl
@[simp] theorem setMbox_ctxs (s : State) (m : Nat) (x : Mbox) : (setMbox s m x).ctxs = s.ctxs := rfl
@[simp] theorem setMbox_tu (s : State) (m : Nat) (x : Mbox) : (setMbox s m x).tu = s.tu := rfl
@[simp] theorem setMbox_ca (s : State) (m : Nat) (x : Mbox) : (setMbox s m x).ca = s.ca := rfl
@[simp] theorem setMbox_sched (s : State) (m : Nat) (x : Mbox) : (setMbox s m x).sched = s.sched := rfl
@[simp] theorem setMbox_hl (s : State) (m : Nat) (x : Mbox) : (setMbox s m x).hl = s.hl := rfl
@[simp] theorem setMbox_nl (s : State) (m : Nat) (x : Mbox) : (setMbox s m x).nl = s.nl := rfl
@[simp] theorem setMbox_pk (s : State) (m : Nat) (x : Mbox) : (setMbox s m x).pk = s.pk := rfl
@[simp] theorem setMbox_bu (s : State) (m : Nat) (x : Mbox) : (setMbox s m x).bu = s.bu := rfl
@[simp] theorem setMbox_er (s : State) (m : Nat) (x : Mbox) : (setMbox s m x).er = s.er := rfl
@[simp] theorem setMbox_ch (s : State) (m : Nat) (x : Mbox) : (setMbox s m x).ch = s.ch := rfl
@[simp] theorem setMbox_df (s : State) (m : Nat) (x : Mbox) : (setMbox s m x).df = s.df := rfl
@[simp] theorem setMbox_pl (s : State) (m : Nat) (x : Mbox) : (setMbox s m x).pl = s.pl := rfl
@[simp] theorem setMbox_ba (s : State) (m : Nat) (x : Mbox) : (setMbox s m x).ba = s.ba := rfl
@[simp] theorem setMbox_gw (s : State) (m : Nat) (x : Mbox) : (setMbox s m x).gw = s.gw := rfl
@[simp] theorem setMbox_pn (s : State) (m : Nat) (x : Mbox) : (setMbox s m x).pn = s.pn := rfl
@[simp] theorem setMbox_al (s : State) (m : Nat) (x : Mbox) : (setMbox s m x).al = s.al := rfl
@[simp] theorem setMbox_ra (s : State) (m : Nat) (x : Mbox) : (setMbox s m x).ra = s.ra := rfl
@[simp] theorem setMbox_cr (s : State) (m : Nat) (x : Mbox) : (setMbox s m x).cr = s.cr := rfl
@[simp] theorem setMbox_mp (s : State) (m : Nat) (x : Mbox) : (setMbox s m x).mp = s.mp := rfl
@[simp] theorem setMbox_free (s : State) (m : Nat) (x : Mbox) : (setMbox s m x).free = s.free := rfl
@[simp] theorem setMbox_pending (s : State) (m : Nat) (x : Mbox) : (setMbox s m x).pending = s.pending := rfl

@[simp] theorem setJob_fuse (s : State) (j : Nat) (x : Job) : (setJob s j x).fuse = s.fuse := rfl
@[simp] theorem setJob_time (s : State) (j : Nat) (x : Job) : (setJob s j x).time = s.time := rfl
@[simp] theorem setJob_regs (s : State) (j : Nat) (x : Job) : (setJob s j x).regs = s.regs := rfl
@[simp] theorem setJob_wide (s : State) (j : Nat) (x : Job) : (setJob s j x).wide = s.wide := rfl
@[simp] theorem setJob_fns (s : State) (j : Nat) (x : Job) : (setJob s j x).fns = s.fns := rfl
@[simp] theorem setJob_mem (s : State) (j : Nat) (x : Job) : (setJob s j x).mem = s.mem := rfl
@[simp] theorem setJob_esc (s : State) (j : Nat) (x : Job) : (setJob s j x).esc = s.esc := rfl
@[simp] theorem setJob_evs (s : State) (j : Nat) (x : Job) : (setJob s j x).evs = s.evs := rfl
@[simp] theorem setJob_ctxs (s : State) (j : Nat) (x : Job) : (setJob s j x).ctxs = s.ctxs := rfl
@[simp] theorem setJob_tu (s : State) (j : Nat) (x : Job) : (setJob s j x).tu = s.tu := rfl
@[simp] theorem setJob_ca (s : State) (j : Nat) (x : Job) : (setJob s j x).ca = s.ca := rfl
@[simp] theorem setJob_sched (s : State) (j : Nat) (x : Job) : (setJob s j x).sched = s.sched := rfl
@[simp] theorem setJob_hl (s : State) (j : Nat) (x : Job) : (setJob s j x).hl = s.hl := rfl
@[simp] theorem setJob_nl (s : State) (j : Nat) (x : Job) : (setJob s j x).nl = s.nl := rfl
@[simp] theorem setJob_pk (s : State) (j : Nat) (x : Job) : (setJob s j x).pk = s.pk := rfl
@[simp] theorem setJob_bu (s : State) (j : Nat) (x : Job) : (setJob s j x).bu = s.bu := rfl
@[simp] theorem setJob_er (s : State) (j : Nat) (x : Job) : (setJob s j x).er = s.er := rfl
@[simp] theorem setJob_ch (s : State) (j : Nat) (x : Job) : (setJob s j x).ch = s.ch := rfl
@[simp] theorem setJob_df (s : State) (j : Nat) (x : Job) : (setJob s j x).df = s.df := rfl
@[simp] theorem setJob_pl (s : State) (j : Nat) (x : Job) : (setJob s j x).pl = s.pl := rfl
@[simp] theorem setJob_ba (s : State) (j : Nat) (x : Job) : (setJob s j x).ba = s.ba := rfl
@[simp] theorem setJob_gw (s : State) (j : Nat) (x : Job) : (setJob s j x).gw = s.gw := rfl
@[simp] theorem setJob_pn (s : State) (j : Nat) (x : Job) : (setJob s j x).pn = s.pn := rfl
@[simp] theorem setJob_al (s : State) (j : Nat) (x : Job) : (setJob s j x).al = s.al := rfl
@[simp] theorem setJob_ra (s : State) (j : Nat) (x : Job) : (setJob s j x).ra = s.ra := rfl
@[simp] theorem setJob_cr (s : State) (j : Nat) (x : Job) : (setJob s j x).cr = s.cr := rfl
@[simp] theorem setJob_mp (s : State) (j : Nat) (x : Job) : (setJob s j x).mp = s.mp := rfl
@[simp] theorem setJob_free (s : State) (j : Nat) (x : Job) : (setJob s j x).free = s.free := rfl
@[simp] theorem setJob_pending (s : State) (j : Nat) (x : Job) : (setJob s j x).pending = s.pending := rfl

@[simp] theorem setWg_fuse (s : State) (w : Nat) (x : Wg) : (setWg s w x).fuse = s.fuse := rfl
@[simp] theorem setWg_time (s : State) (w : Nat) (x : Wg) : (setWg s w x).time = s.time := rfl
@[simp] theorem setWg_regs (s : State) (w : Nat) (x : Wg) : (setWg s w x).regs = s.regs := rfl
@[simp] theorem setWg_wide (s : State) (w : Nat) (x : Wg) : (setWg s w x).wide = s.wide := rfl
@[simp] theorem setWg_fns (s : State) (w : Nat) (x : Wg) : (setWg s w x).fns = s.fns := rfl
@[simp] theorem setWg_mem (s : State) (w : Nat) (x : Wg) : (setWg s w x).mem = s.mem := rfl
@[simp] theorem setWg_esc (s : State) (w : Nat) (x : Wg) : (setWg s w x).esc = s.esc := rfl
@[simp] theorem setWg_evs (s : State) (w : Nat) (x : Wg) : (setWg s w x).evs = s.evs := rfl
@[simp] theorem setWg_ctxs (s : State) (w : Nat) (x : Wg) : (setWg s w x).ctxs = s.ctxs := rfl
@[simp] theorem setWg_tu (s : State) (w : Nat) (x : Wg) : (setWg s w x).tu = s.tu := rfl
@[simp] theorem setWg_ca (s : State) (w : Nat) (x : Wg) : (setWg s w x).ca = s.ca := rfl
@[simp] theorem setWg_rg (s : State) (w : Nat) (x : Wg) : (setWg s w x).rg = s.rg := rfl
@[simp] theorem setWg_sched (s : State) (w : Nat) (x : Wg) : (setWg s w x).sched = s.sched := rfl
@[simp] theorem setWg_hl (s : State) (w : Nat) (x : Wg) : (setWg s w x).hl = s.hl := rfl
@[simp] theorem setWg_nl (s : State) (w : Nat) (x : Wg) : (setWg s w x).nl = s.nl := rfl
@[simp] theorem setWg_pk (s : State) (w : Nat) (x : Wg) : (setWg s w x).pk = s.pk := rfl
@[simp] theorem setWg_bu (s : State) (w : Nat) (x : Wg) : (setWg s w x).bu = s.bu := rfl
@[simp] theorem setWg_er (s : State) (w : Nat) (x : Wg) : (setWg s w x).er = s.er := rfl
@[simp] theorem setWg_ch (s : State) (w : Nat) (x : Wg) : (setWg s w x).ch = s.ch := rfl
@[simp] theorem setWg_df (s : State) (w : Nat) (x : Wg) : (setWg s w x).df = s.df := rfl
@[simp] theorem setWg_pl (s : State) (w : Nat) (x : Wg) : (setWg s w x).pl = s.pl := rfl
@[simp] theorem setWg_ba (s : State) (w : Nat) (x : Wg) : (setWg s w x).ba = s.ba := rfl
@[simp] theorem setWg_gw (s : State) (w : Nat) (x : Wg) : (setWg s w x).gw = s.gw := rfl
@[simp] theorem setWg_al (s : State) (w : Nat) (x : Wg) : (setWg s w x).al = s.al := rfl
@[simp] theorem setWg_ra (s : State) (w : Nat) (x : Wg) : (setWg s w x).ra = s.ra := rfl
@[simp] theorem setWg_cr (s : State) (w : Nat) (x : Wg) : (setWg s w x).cr = s.cr := rfl
@[simp] theorem setWg_mp (s : State) (w : Nat) (x : Wg) : (setWg s w x).mp = s.mp := rfl
@[simp] theorem setWg_free (s : State) (w : Nat) (x : Wg) : (setWg s w x).free = s.free := rfl
@[simp] theorem setWg_pending (s : State) (w : Nat) (x : Wg) : (setWg s w x).pending = s.pending := rfl

@[simp] theorem setModel_fuse (s : State) (i : Nat) (m : Model) : (setModel s i m).fuse = s.fuse := rfl
@[simp] theorem setModel_time (s : State) (i : Nat) (m : Model) : (setModel s i m).time = s.time := rfl
@[simp] theorem setModel_regs (s : State) (i : Nat) (m : Model) : (setModel s i m).regs = s.regs := rfl
@[simp] theorem setModel_wide (s : State) (i : Nat) (m : Model) : (setModel s i m).wide = s.wide := rfl
@[simp] theorem setModel_fns (s : State) (i : Nat) (m : Model) : (setModel s i m).fns = s.fns := rfl
@[simp] theorem setModel_mem (s : State) (i : Nat) (m : Model) : (setModel s i m).mem = s.mem := rfl
@[simp] theorem setModel_esc (s : State) (i : Nat) (m : Model) : (setModel s i m).esc = s.esc := rfl
@[simp] theorem setModel_evs (s : State) (i : Nat) (m : Model) : (setModel s i m).evs = s.evs := rfl
@[simp] theorem setModel_ctxs (s : State) (i : Nat) (m : Model) : (setModel s i m).ctxs = s.ctxs := rfl
@[simp] theorem setModel_tu (s : State) (i : Nat) (m : Model) : (setModel s i m).tu = s.tu := rfl
@[simp] theorem setModel_ca (s : State) (i : Nat) (m : Model) : (setModel s i m).ca = s.ca := rfl
@[simp] theorem setModel_rg (s : State) (i : Nat) (m : Model) : (setModel s i m).rg = s.rg := rfl
@[simp] theorem setModel_sched (s : State) (i : Nat) (m : Model) : (setModel s i m).sched = s.sched := rfl
@[simp] theorem setModel_hl (s : State) (i : Nat) (m : Model) : (setModel s i m).hl = s.hl := rfl
@[simp] theorem setModel_nl (s : State) (i : Nat) (m : Model) : (setModel s i m).nl = s.nl := rfl
@[simp] theorem setModel_pk (s : State) (i : Nat) (m : Model) : (setModel s i m).pk = s.pk := rfl
@[simp] theorem setModel_bu (s : State) (i : Nat) (m : Model) : (setModel s i m).bu = s.bu := rfl
@[simp] theorem setModel_er (s : State) (i : Nat) (m : Model) : (setModel s i m).er = s.er := rfl
@[simp] theorem setModel_ch (s : State) (i : Nat) (m : Model) : (setModel s i m).ch = s.ch := rfl
@[simp] theorem setModel_df (s : State) (i : Nat) (m : Model) : (setModel s i m).df = s.df := rfl
@[simp] theorem setModel_pl (s : State) (i : Nat) (m : Model) : (setModel s i m).pl = s.pl := rfl
@[simp] theorem setModel_gw (s : State) (i : Nat) (m : Model) : (setModel s i m).gw = s.gw := rfl
@[simp] theorem setModel_pn (s : State) (i : Nat) (m : Model) : (setModel s i m).pn = s.pn := rfl
@[simp] theorem setModel_al (s : State) (i : Nat) (m : Model) : (setModel s i m).al = s.al := rfl
@[simp] theorem setModel_ra (s : State) (i : Nat) (m : Model) : (setModel s i m).ra = s.ra := rfl
@[simp] theorem setModel_cr (s : State) (i : Nat) (m : Model) : (setModel s i m).cr = s.cr := rfl
@[simp] theorem setModel_mp (s : State) (i : Nat) (m : Model) : (setModel s i m).mp = s.mp := rfl
@[simp] theorem setModel_free (s : State) (i : Nat) (m : Model) : (setModel s i m).free = s.free := rfl
@[simp] theorem setModel_pending (s : State) (i : Nat) (m : Model) : (setModel s i m).pending = s.pending := rfl

@[simp] theorem hostData_fuse (s : State) (d : Nat) : (hostData s d).fuse = s.fuse := rfl
@[simp] theorem hostData_time (s : State) (d : Nat) : (hostData s d).time = s.time := rfl
@[simp] theorem hostData_regs (s : State) (d : Nat) : (hostData s d).regs = s.regs := rfl
@[simp] theorem hostData_wide (s : State) (d : Nat) : (hostData s d).wide = s.wide := rfl
@[simp] theorem hostData_fns (s : State) (d : Nat) : (hostData s d).fns = s.fns := rfl
@[simp] theorem hostData_mem (s : State) (d : Nat) : (hostData s d).mem = s.mem := rfl
@[simp] theorem hostData_esc (s : State) (d : Nat) : (hostData s d).esc = s.esc := rfl
@[simp] theorem hostData_evs (s : State) (d : Nat) : (hostData s d).evs = s.evs := rfl
@[simp] theorem hostData_ctxs (s : State) (d : Nat) : (hostData s d).ctxs = s.ctxs := rfl
@[simp] theorem hostData_tu (s : State) (d : Nat) : (hostData s d).tu = s.tu := rfl
@[simp] theorem hostData_ca (s : State) (d : Nat) : (hostData s d).ca = s.ca := rfl
@[simp] theorem hostData_rg (s : State) (d : Nat) : (hostData s d).rg = s.rg := rfl
@[simp] theorem hostData_sched (s : State) (d : Nat) : (hostData s d).sched = s.sched := rfl
@[simp] theorem hostData_nl (s : State) (d : Nat) : (hostData s d).nl = s.nl := rfl
@[simp] theorem hostData_pk (s : State) (d : Nat) : (hostData s d).pk = s.pk := rfl
@[simp] theorem hostData_bu (s : State) (d : Nat) : (hostData s d).bu = s.bu := rfl
@[simp] theorem hostData_er (s : State) (d : Nat) : (hostData s d).er = s.er := rfl
@[simp] theorem hostData_ch (s : State) (d : Nat) : (hostData s d).ch = s.ch := rfl
@[simp] theorem hostData_df (s : State) (d : Nat) : (hostData s d).df = s.df := rfl
@[simp] theorem hostData_pl (s : State) (d : Nat) : (hostData s d).pl = s.pl := rfl
@[simp] theorem hostData_ba (s : State) (d : Nat) : (hostData s d).ba = s.ba := rfl
@[simp] theorem hostData_gw (s : State) (d : Nat) : (hostData s d).gw = s.gw := rfl
@[simp] theorem hostData_pn (s : State) (d : Nat) : (hostData s d).pn = s.pn := rfl
@[simp] theorem hostData_al (s : State) (d : Nat) : (hostData s d).al = s.al := rfl
@[simp] theorem hostData_ra (s : State) (d : Nat) : (hostData s d).ra = s.ra := rfl
@[simp] theorem hostData_cr (s : State) (d : Nat) : (hostData s d).cr = s.cr := rfl
@[simp] theorem hostData_mp (s : State) (d : Nat) : (hostData s d).mp = s.mp := rfl
@[simp] theorem hostData_free (s : State) (d : Nat) : (hostData s d).free = s.free := rfl
@[simp] theorem hostData_pending (s : State) (d : Nat) : (hostData s d).pending = s.pending := rfl

@[simp] theorem dropArrived_fuse (s : State) (k c : Nat) : (dropArrived s k c).fuse = s.fuse := rfl
@[simp] theorem dropArrived_time (s : State) (k c : Nat) : (dropArrived s k c).time = s.time := rfl
@[simp] theorem dropArrived_regs (s : State) (k c : Nat) : (dropArrived s k c).regs = s.regs := rfl
@[simp] theorem dropArrived_wide (s : State) (k c : Nat) : (dropArrived s k c).wide = s.wide := rfl
@[simp] theorem dropArrived_fns (s : State) (k c : Nat) : (dropArrived s k c).fns = s.fns := rfl
@[simp] theorem dropArrived_mem (s : State) (k c : Nat) : (dropArrived s k c).mem = s.mem := rfl
@[simp] theorem dropArrived_esc (s : State) (k c : Nat) : (dropArrived s k c).esc = s.esc := rfl
@[simp] theorem dropArrived_evs (s : State) (k c : Nat) : (dropArrived s k c).evs = s.evs := rfl
@[simp] theorem dropArrived_ctxs (s : State) (k c : Nat) : (dropArrived s k c).ctxs = s.ctxs := rfl
@[simp] theorem dropArrived_tu (s : State) (k c : Nat) : (dropArrived s k c).tu = s.tu := rfl
@[simp] theorem dropArrived_ca (s : State) (k c : Nat) : (dropArrived s k c).ca = s.ca := rfl
@[simp] theorem dropArrived_rg (s : State) (k c : Nat) : (dropArrived s k c).rg = s.rg := rfl
@[simp] theorem dropArrived_sched (s : State) (k c : Nat) : (dropArrived s k c).sched = s.sched := rfl
@[simp] theorem dropArrived_hl (s : State) (k c : Nat) : (dropArrived s k c).hl = s.hl := rfl
@[simp] theorem dropArrived_pk (s : State) (k c : Nat) : (dropArrived s k c).pk = s.pk := rfl
@[simp] theorem dropArrived_bu (s : State) (k c : Nat) : (dropArrived s k c).bu = s.bu := rfl
@[simp] theorem dropArrived_er (s : State) (k c : Nat) : (dropArrived s k c).er = s.er := rfl
@[simp] theorem dropArrived_ch (s : State) (k c : Nat) : (dropArrived s k c).ch = s.ch := rfl
@[simp] theorem dropArrived_df (s : State) (k c : Nat) : (dropArrived s k c).df = s.df := rfl
@[simp] theorem dropArrived_pl (s : State) (k c : Nat) : (dropArrived s k c).pl = s.pl := rfl
@[simp] theorem dropArrived_ba (s : State) (k c : Nat) : (dropArrived s k c).ba = s.ba := rfl
@[simp] theorem dropArrived_gw (s : State) (k c : Nat) : (dropArrived s k c).gw = s.gw := rfl
@[simp] theorem dropArrived_pn (s : State) (k c : Nat) : (dropArrived s k c).pn = s.pn := rfl
@[simp] theorem dropArrived_al (s : State) (k c : Nat) : (dropArrived s k c).al = s.al := rfl
@[simp] theorem dropArrived_ra (s : State) (k c : Nat) : (dropArrived s k c).ra = s.ra := rfl
@[simp] theorem dropArrived_cr (s : State) (k c : Nat) : (dropArrived s k c).cr = s.cr := rfl
@[simp] theorem dropArrived_mp (s : State) (k c : Nat) : (dropArrived s k c).mp = s.mp := rfl
@[simp] theorem dropArrived_free (s : State) (k c : Nat) : (dropArrived s k c).free = s.free := rfl
@[simp] theorem dropArrived_pending (s : State) (k c : Nat) : (dropArrived s k c).pending = s.pending := rfl

end Sys2Proof.Machine
end

