-- ==== Sys2Proof/Laws/Registers.lean ====
section
/-! SUPPORT. Laws of bit fields and of the registers that hold values: a field just written reads as the value, and
every other field and register as before. -/

namespace Sys2Proof

theorem natBits_testBit (x lo len i : Nat) : (natBits x lo len).testBit i = (decide (i < len) && x.testBit (lo + i)) := by
  simp [natBits, Nat.testBit_mod_two_pow, Nat.testBit_shiftRight]

theorem maskAt_testBit (lo len i : Nat) : (maskAt lo len).testBit i = (decide (lo ≤ i) && decide (i < lo + len)) := by
  simp only [maskAt, Nat.testBit_shiftLeft, Nat.testBit_two_pow_sub_one]
  by_cases h : lo ≤ i <;> simp [h]
  omega

theorem setBits_getLsbD {n : Nat} (w : BitVec n) (lo len v i : Nat) (h : i < n) :
    (setBits w lo len v).getLsbD i = if lo ≤ i ∧ i < lo + len then v.testBit (i - lo) else w.getLsbD i := by
  simp only [setBits, BitVec.getLsbD_or, BitVec.getLsbD_and, BitVec.getLsbD_not, BitVec.getLsbD_ofNat, maskAt_testBit,
    Nat.testBit_shiftLeft, h, decide_true, Bool.true_and]
  by_cases h1 : lo ≤ i <;> by_cases h2 : i < lo + len <;> simp [h1, h2]

/-- A field just written reads as the value. -/
theorem bits_setBits_same {n : Nat} (w : BitVec n) (lo len v : Nat) (h : lo + len ≤ n) :
    bits (setBits w lo len v) lo len = v % 2 ^ len := by
  apply Nat.eq_of_testBit_eq
  intro i
  simp only [bits, natBits_testBit, Nat.testBit_mod_two_pow]
  by_cases hi : i < len
  · rw [← BitVec.getLsbD, setBits_getLsbD _ _ _ _ _ (by omega)]
    simp [hi]
  · simp [hi]

/-- A field apart from the one written reads as before. -/
theorem bits_setBits_other {n : Nat} (w : BitVec n) (lo len v lo' len' : Nat) (h : lo' + len' ≤ lo ∨ lo + len ≤ lo') :
    bits (setBits w lo len v) lo' len' = bits w lo' len' := by
  apply Nat.eq_of_testBit_eq
  intro i
  simp only [bits, natBits_testBit]
  by_cases hi : i < len'
  · by_cases hn : lo' + i < n
    · rw [← BitVec.getLsbD, ← BitVec.getLsbD, setBits_getLsbD _ _ _ _ _ hn, if_neg (by omega)]
    · rw [← BitVec.getLsbD, ← BitVec.getLsbD, BitVec.getLsbD_of_ge _ _ (by omega), BitVec.getLsbD_of_ge _ _ (by omega)]
  · simp [hi]

namespace Machine

theorem getReg_putReg (s : State) (off off' : Nat) (w : Word) :
    getReg (putReg s off w) off' = if off' = off then w else getReg s off' := by
  simp only [getReg, putReg, tfind_tput]
  by_cases h : off' = off
  · subst h
    by_cases h2 : w = regReset s.fuse.variant off' <;> simp [h2]
  · simp [h]

@[simp] theorem getReg_putReg_same (s : State) (off : Nat) (w : Word) : getReg (putReg s off w) off = w := by
  simp [getReg_putReg]

theorem getReg_putReg_other (s : State) {off off' : Nat} (w : Word) (h : off' ≠ off) :
    getReg (putReg s off w) off' = getReg s off' := by simp [getReg_putReg, h]

theorem getReg_setFld (s : State) (off lo len v off' : Nat) :
    getReg (setFld s off lo len v) off' = if off' = off then setBits (getReg s off) lo len v else getReg s off' :=
  getReg_putReg s off off' _

theorem rfld_setFld_same (s : State) (off lo len v : Nat) (h : lo + len ≤ 32) :
    rfld (setFld s off lo len v) off lo len = v % 2 ^ len := by
  simp only [rfld, getReg_setFld, if_true]
  exact bits_setBits_same _ _ _ _ h

theorem rfld_setFld_other (s : State) (off lo len v off' lo' len' : Nat)
    (h : off' ≠ off ∨ lo' + len' ≤ lo ∨ lo + len ≤ lo') :
    rfld (setFld s off lo len v) off' lo' len' = rfld s off' lo' len' := by
  simp only [rfld, getReg_setFld]
  split
  · subst_vars
    exact bits_setBits_other _ _ _ _ _ _ (h.resolve_left (by simp))
  · rfl

theorem rbit_setFlag (s : State) (off i : Nat) (b : Bool) (off' i' : Nat) (h : i < 32) :
    rbit (setFlag s off i b) off' i' = if off' = off ∧ i' = i then b else rbit s off' i' := by
  have e : ∀ (t : State) (o j : Nat), rbit t o j = (rfld t o j 1 == 1) := fun _ _ _ => rfl
  rw [e, e, setFlag]
  split
  · rename_i hh
    obtain ⟨rfl, rfl⟩ := hh
    rw [rfld_setFld_same _ _ _ _ _ (by omega)]
    cases b <;> rfl
  · rw [rfld_setFld_other _ _ _ _ _ _ _ _ (by omega)]

theorem rfld_setFlag_other (s : State) (off i : Nat) (b : Bool) (off' lo len : Nat)
    (h : off' ≠ off ∨ lo + len ≤ i ∨ i + 1 ≤ lo) : rfld (setFlag s off i b) off' lo len = rfld s off' lo len :=
  rfld_setFld_other _ _ _ _ _ _ _ _ h

theorem getReg_setFlag_other (s : State) {off off' : Nat} (i : Nat) (b : Bool) (h : off' ≠ off) :
    getReg (setFlag s off i b) off' = getReg s off' := by simp [setFlag, getReg_setFld, h]

theorem getReg_countReg_other (s : State) {off off' : Nat} (len n : Nat) (h : off' ≠ off) :
    getReg (countReg s off len n) off' = getReg s off' := by simp [countReg, getReg_setFld, h]

/-- A counter counts, saturating (R7). -/
theorem rfld_countReg (s : State) (off len n : Nat) (h : len ≤ 32) :
    rfld (countReg s off len n) off 0 len = satTo (2 ^ len - 1) (rfld s off 0 len + n) := by
  rw [countReg, rfld_setFld_same _ _ _ _ _ (by omega), Nat.mod_eq_of_lt]
  have : 0 < 2 ^ len := Nat.two_pow_pos len
  unfold satTo
  split <;> omega

theorem getWide_addWide (s : State) (lo n lo' : Nat) :
    getWide (addWide s lo n) lo' = if lo' = lo then (getWide s lo + n) % 2 ^ 64 else getWide s lo' :=
  tget_tput 0 _ _ _ _

theorem fnOf_setFn (s : State) (n m : Nat) (f : Fn) : fnOf (setFn s n f) m = if m = n then f else fnOf s m := by
  apply tget_tput
theorem ctxOf_setCtx (s : State) (c c' : Nat) (x : Ctx) : ctxOf (setCtx s c x) c' = if c' = c then x else ctxOf s c' := by
  apply tget_tput
theorem evOf_setEv (s : State) (e e' : Nat) (x : Ev) : evOf (setEv s e x) e' = if e' = e then x else evOf s e' := by
  apply tget_tput
theorem portOf_setPort (s : State) (p q : Nat) (x : Port) : portOf (setPort s p x) q = if q = p then x else portOf s q := by
  apply tget_tput
theorem mboxOf_setMbox (s : State) (m n : Nat) (x : Mbox) : mboxOf (setMbox s m x) n = if n = m then x else mboxOf s n := by
  apply tget_tput
theorem jobOf_setJob (s : State) (j k : Nat) (x : Job) : jobOf (setJob s j x) k = if k = j then x else jobOf s k := by
  apply tget_tput
theorem ringOf_setRing (s : State) (r q : Nat) (x : Ring) : ringOf (setRing s r x) q = if q = r then some x else ringOf s q :=
  tfind_tset _ _ _ _
theorem wgOf_setWg (s : State) (w v : Nat) (x : Wg) : wgOf (setWg s w x) v = if v = w then some x else wgOf s v :=
  tfind_tset _ _ _ _
theorem modelOf_setModel (s : State) (i k : Nat) (m : Model) :
    modelOf (setModel s i m) k = if k = i then some m else modelOf s k := tfind_tset _ _ _ _

end Machine

end Sys2Proof
end

