-- ==== Sys2Proof/Laws/Pinion.lean ====
section
/-! SUPPORT. Laws of the Pinions: registers and predicates of a beat after a write, what a prepared access, a fetched
instruction and a beat that has issued leave alone. -/

namespace Sys2Proof.Machine

/-! ### Registers and predicates of a beat -/

theorem Beat.reg_setReg (b : Beat) (r l : Nat) (w : Word) (r' l' : Nat) (h : l < 32) (h' : l' < 32) :
    (b.setReg r l w).reg r' l' = if r' = r ∧ l' = l then w else b.reg r' l' := by
  simp only [Beat.reg, Beat.setReg, tfind_tset]
  by_cases e : 32 * r' + l' = 32 * r + l
  · have : r' = r ∧ l' = l := by omega
    simp [this]
  · have : ¬(r' = r ∧ l' = l) := fun x => e (by rw [x.1, x.2])
    simp [e, this]

@[simp] theorem Beat.setReg_pc (b : Beat) (r l : Nat) (w : Word) : (b.setReg r l w).pc = b.pc := rfl
@[simp] theorem Beat.setReg_active (b : Beat) (r l : Nat) (w : Word) : (b.setReg r l w).active = b.active := rfl
@[simp] theorem Beat.setReg_preds (b : Beat) (r l : Nat) (w : Word) : (b.setReg r l w).preds = b.preds := rfl
@[simp] theorem Beat.setReg_seed (b : Beat) (r l : Nat) (w : Word) : (b.setReg r l w).seed = b.seed := rfl
@[simp] theorem Beat.setReg_ended (b : Beat) (r l : Nat) (w : Word) : (b.setReg r l w).ended = b.ended := rfl
@[simp] theorem Beat.setReg_stack (b : Beat) (r l : Nat) (w : Word) : (b.setReg r l w).stack = b.stack := rfl
@[simp] theorem Beat.setReg_atBar (b : Beat) (r l : Nat) (w : Word) : (b.setReg r l w).atBar = b.atBar := rfl
@[simp] theorem Beat.setReg_waiting (b : Beat) (r l : Nat) (w : Word) : (b.setReg r l w).waiting = b.waiting := rfl

theorem mem_lanesOf (m l : Nat) : l ∈ lanesOf m ↔ l < 32 ∧ inMask m l = true := by
  simp [lanesOf, inMask]

theorem reg_foldl_setReg (r : Nat) (f : Nat → Word) (ls : List Nat) (b : Beat) (hl : ∀ l ∈ ls, l < 32) (r' l' : Nat) (h' : l' < 32) :
    (ls.foldl (fun c l => c.setReg r l (f l)) b).reg r' l' = if r' = r ∧ l' ∈ ls then f l' else b.reg r' l' := by
  induction ls generalizing b with
  | nil => simp
  | cons l ls ih =>
    rw [List.foldl_cons, ih _ (fun x hx => hl x (List.mem_cons_of_mem _ hx)), Beat.reg_setReg _ _ _ _ _ _ (hl l List.mem_cons_self) h']
    by_cases h1 : r' = r <;> by_cases h2 : l' ∈ ls <;> by_cases h3 : l' = l <;> simp_all

/-- A register written in the lanes of a mask: in those lanes the values given, elsewhere as before. -/
theorem reg_writeLanes (b : Beat) (m r : Nat) (f : Nat → Word) (r' l' : Nat) (h' : l' < 32) :
    (writeLanes b m r f).reg r' l' = if r' = r ∧ inMask m l' = true then f l' else b.reg r' l' := by
  rw [writeLanes, reg_foldl_setReg r f _ b (fun l hl => ((mem_lanesOf m l).1 hl).1) r' l' h']
  simp only [mem_lanesOf, h', true_and]

/-- Writing registers leaves everything else of a beat alone. -/
theorem writeLanes_frame (b : Beat) (m r : Nat) (f : Nat → Word) :
    writeLanes b m r f = { b with regs := (writeLanes b m r f).regs } := by
  have gen : ∀ (ls : List Nat) (b : Beat), ls.foldl (fun c l => c.setReg r l (f l)) b =
      { b with regs := (ls.foldl (fun c l => c.setReg r l (f l)) b).regs } := by
    intro ls
    induction ls with
    | nil => intro b; rfl
    | cons l ls ih =>
      intro b
      rw [List.foldl_cons, ih]
      rfl
  exact gen _ b

theorem pred_setPred (b : Beat) (n m k : Nat) :
    (b.setPred n m).pred k = if k = n ∧ n ≠ 0 then m % 2 ^ 32 else b.pred k := by
  unfold Beat.setPred
  by_cases hn : n = 0
  · simp [hn]
  · rw [if_neg hn]
    simp only [Beat.pred, tfind_tset]
    by_cases hk : k = n
    · subst hk; simp [hn]
    · simp [hk]

theorem setPred_keeps_regs (b : Beat) (n m r l : Nat) : (b.setPred n m).reg r l = b.reg r l := by
  unfold Beat.setPred
  split <;> rfl

/-! ### Prepared accesses -/

/-- An access whose translations are known and whose data is at hand changes nothing but the hit counters and the
Translation Unit's stores. -/
theorem prepare_ok_frame {s t : State} {w : Who} {accs : List Acc} {m : PageMap} (h : prepare s w accs = .ok t m) :
    t = { s with regs := t.regs, tu := t.tu } := by
  unfold prepare at h
  dsimp only at h
  split at h
  · exact nomatch h
  · split at h
    · exact nomatch h
    · split at h
      · injection h with h1 h2
        rw [← h1]
        rfl
      · exact nomatch h

theorem failEntry_frame (s : State) (r : FaultRec) :
    failEntry s r = { s with ctxs := (failEntry s r).ctxs, tu := (failEntry s r).tu } := by
  unfold failEntry
  split <;> rfl

theorem takeFault_frame (s : State) (w : Who) (f : (Nat × Nat × Nat) × Nat × Bool) :
    takeFault s w f = { s with ctxs := (takeFault s w f).ctxs, tu := (takeFault s w f).tu } := by
  unfold takeFault
  split
  · rfl
  · exact failEntry_frame s _

theorem noteFail_frame (s : State) (id code : Nat) :
    noteFail s id code = { s with gw := (noteFail s id code).gw, esc := (noteFail s id code).esc } := by
  unfold noteFail
  dsimp only
  split
  · split <;> rfl
  · rfl

/-! ### A beat that issues -/

/-- What the fetch of an instruction that issues says: the beat, and what of the machine it may have changed. -/
theorem fetchIns_here {s t : State} {id bi op : Nat} {h : Here} (e : fetchIns s id bi op = .here t h) :
    h.id = id ∧ h.bi = bi ∧ wgOf s id = some h.w ∧ h.w.beats[bi]? = some h.b ∧ beatReady h.w h.b = true ∧
    8 * h.b.pc < h.w.codeBytes ∧ h.i.op = op ∧ h.g = guardLanes h.b h.i.guard ∧
    t = { s with regs := t.regs, tu := t.tu, ctxs := t.ctxs, gw := t.gw, esc := t.esc } := by
  unfold fetchIns at e
  split at e
  · exact nomatch e
  rename_i w hw
  split at e
  · exact nomatch e
  rename_i b hb
  split at e
  · exact nomatch e
  rename_i hr
  split at e
  · exact nomatch e
  rename_i hc
  have key : ∀ (s0 s1 : State) (word : Dword),
      (if opAssigned (insOf word).op = false then Fetched.no (endWgErr s1 id St.ILLEGAL_OP)
        else if (insOf word).op ≠ op then Fetched.no s0
        else Fetched.here s1 { id := id, bi := bi, w := w, b := b, i := insOf word, g := guardLanes b (insOf word).guard }) = .here t h →
      s1 = { s with regs := s1.regs, tu := s1.tu, ctxs := s1.ctxs, gw := s1.gw, esc := s1.esc } →
      h.id = id ∧ h.bi = bi ∧ wgOf s id = some h.w ∧ h.w.beats[bi]? = some h.b ∧ beatReady h.w h.b = true ∧
      8 * h.b.pc < h.w.codeBytes ∧ h.i.op = op ∧ h.g = guardLanes h.b h.i.guard ∧
      t = { s with regs := t.regs, tu := t.tu, ctxs := t.ctxs, gw := t.gw, esc := t.esc } := by
    intro s0 s1 word e hs
    split at e
    · exact nomatch e
    split at e
    · exact nomatch e
    rename_i ho
    injection e with e1 e2
    subst e1 e2
    exact ⟨rfl, rfl, hw, hb, by simpa using hr, by simpa using hc, by simpa using ho, rfl, hs⟩
  dsimp only at e
  split at e
  · exact nomatch e
  · rename_i s' c hp
    refine key _ _ _ e ?_
    have h1 : s' = { s with ctxs := s'.ctxs, tu := s'.tu } := by
      unfold codeWord prepare at hp
      dsimp only at hp
      split at hp
      · injection hp with hp _
        rw [← hp]
        exact takeFault_frame s _ _
      · split at hp
        · exact nomatch hp
        · split at hp <;> exact nomatch hp
    rw [noteFail_frame]
    rw [h1]
  · rename_i s' m hp
    refine key _ _ _ e ?_
    have h1 := prepare_ok_frame hp
    rw [h1]

theorem tickFor_frame (s : State) (c e : Nat) : tickFor s c e = { s with evs := (tickFor s c e).evs } := by
  unfold tickFor
  split <;> rfl

theorem putBeat_frame (s : State) (id bi : Nat) (b : Beat) : putBeat s id bi b = { s with pn := (putBeat s id bi b).pn } := by
  unfold putBeat
  split <;> rfl

theorem countIssue_frame (s : State) (w : Wg) : countIssue s w =
    { s with pn := (countIssue s w).pn, wide := (countIssue s w).wide, evs := (countIssue s w).evs } := by
  have h1 := tickFor_frame (addWide (addWide s Reg.PN_TICKS_LO 1) (Reg.PN_TRAIN_TICKS_LO w.train) 1) w.ctx 2
  unfold countIssue
  dsimp only
  generalize tickFor _ _ _ = u at h1 ⊢
  split
  · split
    · rw [h1]; rfl
    · rw [h1]; rfl
  · rw [h1]; rfl

theorem countIssue_wgs (s : State) (w : Wg) : (countIssue s w).pn.wgs = s.pn.wgs := by
  have h1 : (tickFor (addWide (addWide s Reg.PN_TICKS_LO 1) (Reg.PN_TRAIN_TICKS_LO w.train) 1) w.ctx 2).pn = s.pn := by
    rw [tickFor_frame]
    rfl
  unfold countIssue
  dsimp only
  generalize tickFor _ _ _ = u at h1 ⊢
  rw [← h1]
  split
  · split <;> rfl
  · rfl

/-- What a beat that has issued leaves alone. -/
theorem retireTo_frame (s : State) (h : Here) (b : Beat) (pc : Nat) :
    retireTo s h b pc = { s with
      pn := (retireTo s h b pc).pn, nl := (retireTo s h b pc).nl, wide := (retireTo s h b pc).wide, evs := (retireTo s h b pc).evs } := by
  have h1 := putBeat_frame s h.id h.bi { b with pc := pc }
  unfold retireTo
  dsimp only
  generalize putBeat _ _ _ _ = u at h1 ⊢
  have h2 := countIssue_frame (dropArrived (dropArrived u (loadWho h.w).stream h.w.ctx) (storeWho h.w).stream h.w.ctx) h.w
  generalize countIssue _ _ = v at h2 ⊢
  rw [h2, h1]
  rfl

/-- The workgroup of a beat that has issued holds its new state; every other workgroup stands. -/
theorem wgOf_retireTo (s : State) (h : Here) (b : Beat) (pc : Nat) (w : Wg) (hw : wgOf s h.id = some w) (k : Nat) :
    wgOf (retireTo s h b pc) k = if k = h.id then some { w with beats := w.beats.set h.bi { b with pc := pc } } else wgOf s k := by
  unfold retireTo
  dsimp only
  unfold wgOf
  rw [countIssue_wgs]
  show wgOf (putBeat s h.id h.bi { b with pc := pc }) k = _
  unfold putBeat
  rw [hw]
  exact wgOf_setWg _ _ _ _

end Sys2Proof.Machine
end

