-- ==== Sys2Proof/Tests/Slice0.lean ====
section
/-! SUPPORT. Tests: states that meet the hypotheses of each statement together, ill-formed commands refused, and single
steps on fixed values worked out by hand from the rules. -/

namespace Sys2Proof.Tests

open Sys2Proof.Machine

set_option Elab.async false

/-! ### States the witnesses start from -/

/-- A context at work: PASID 5, one heap of 1 MiB served by the device. -/
def wCtx : Ctx :=
  { st := .active, pasid := 5, mode := 1, heapVa := 0x100000, heapBytes := 0x100000, quota := 4, granules := [some 0], client := 2 }

/-- Every function ready, the link up, the pins in their working state, one context, two events and one ring of each
mode, a translation that maps 16 MiB of PASID 5 to host memory one to one, and an hour of device time. -/
def up : State := { State.reset with
  fns := (List.range 19).map (fun n => (n, { ready := true }))
  regs := [(Reg.GLOBAL_PINS, 0x7D), (Reg.RG_STATUS, 1), (Reg.HL_LINK, 1)]
  hl := { memSpace := true, busMaster := true, atsEn := true, pasidEn := true, priEn := true, priAlloc := 32, cacheEn := true, cfgReady := true }
  bu := { pos := .done, uncounted := false, backup := { lost := false } }
  time := { dev := 3600000000000, cal := 3600000000000 }
  ctxs := [(1, wCtx)]
  evs := { ev := [(3, { alloc := true, ctx := 1 }), (4, { alloc := true, ctx := 1, count := 7 })] }
  tu := { tlb := [{ set := 0, pasid := 5, base := 0, log2 := 24, hpa := 0, r := true, w := true, n := false }] }
  esc := { rings := [(0, { ctx := 1, eng := 2, va := 0x1000 }), (1, { ctx := 1, eng := 2, mode := 1, va := 0x2000, tail := 1 }),
                     (2, { ctx := 1, eng := 2, mode := 2, va := 0x3000, tail := 3 })], nextRing := 3 } }

/-- Mailbox `mb` of a working part carries out a request: CODE and its arguments from word 4 on. -/
def askOf (s : State) (mb code : Nat) (args : List Nat) : State :=
  { s with rg := { s.rg with mbox := [(mb, { st := .running, seq := 9, taken := ([code, 0, 0, 0] ++ args).map (BitVec.ofNat 32) })] } }

/-- The request of `askOf`. -/
def reqWords (code : Nat) (args : List Nat) : List Word := ([code, 0, 0, 0] ++ args).map (BitVec.ofNat 32)

/-- The bytes of a descriptor: its opcode, and fields of its body by offset and width. -/
def descBytes (op : Nat) (fields : List (Nat × Nat × Nat)) : List Byte :=
  fields.foldl (fun b f => b.take f.1 ++ toLe f.2.2 f.2.1 ++ b.drop (f.1 + f.2.1)) (toLe op 64)

/-- A started descriptor of context 1 on ring 0 at an engine. -/
def wDesc (eng op : Nat) (fields : List (Nat × Nat × Nat)) : Desc :=
  { ring := 0, ctx := 1, eng := eng, index := 0, bytes := descBytes op fields, phase := .started }

/-- A working part with one descriptor in flight, number 7. -/
def withDesc (s : State) (d : Desc) : State := { s with esc := { s.esc with descs := [(7, d)], nextDesc := 8 } }

/-- A prepared set of accesses may be made. -/
def prepGood : Prep → Bool
  | .ok _ _ => true
  | _ => false

theorem prepGood_exists {p : Prep} (h : prepGood p = true) : ∃ s m, p = .ok s m := by
  cases p with
  | ok s m => exact ⟨s, m, rfl⟩
  | wait s => cases h
  | fault s c => cases h

/-- The conditions of `Reaches`, as one truth value. -/
def reachesB (s : State) (off : Nat) : Bool := barsOn s && !absentOff s.fuse.variant off && !offDead s off

theorem reaches_of {s : State} {off : Nat} (h : reachesB s off = true) : Reaches s off := by
  simp [reachesB] at h; exact ⟨h.1.1, h.1.2, h.2⟩

/-- The conditions of `Asked`, as one truth value. -/
def askedB (s : State) (mb code : Nat) (r : List Word) : Bool :=
  decide (mb ≤ 15) && decide ((mboxOf s mb).st = .running) && decide ((mboxOf s mb).taken = r) && decide (reqCode r = code) && servicing s mb

theorem asked_of {s : State} {mb code : Nat} {r : List Word} (h : askedB s mb code r = true) : Asked s mb code r := by
  simp [askedB] at h; exact ⟨h.1.1.1.1, h.1.1.1.2, h.1.1.2, h.1.2, h.2⟩

/-- The conditions of `AtEngine`, as one truth value. -/
def atEngineB (s : State) (id op : Nat) (d : Desc) : Bool :=
  decide (tfind s.esc.descs id = some d) && decide (d.phase = .started) && decide (hOpcode d.bytes = op) && decide (d.record = none) &&
  !sysScopeHeld s d

theorem atEngine_of {s : State} {id op : Nat} {d : Desc} (h : atEngineB s id op d = true) : AtEngine s id op d := by
  simp [atEngineB] at h; exact ⟨h.1.1.1.1, h.1.1.1.2, h.1.1.2, h.1.2, h.2⟩

/-- A resident workgroup of context 1 with one beat, its code at VA `code`. -/
def wWg (code : Nat) (b : Beat) : Wg :=
  { kind := 0, owner := 7, ctx := 1, ring := 0, eng := 2, vregs := 32, loc := 1, code := code, codeBytes := 64, const := 0x9000, aff := 0, phase := .resident, beats := [b] }

/-- Bytes placed at an address of an empty memory. -/
def bytesAt (a : Nat) (d : List Byte) : Tbl Byte := ((List.range d.length).map (fun i => (a + i, d.getD i 0))).filter (fun p => p.2 != 0)

/-- Four zero bytes of a CRC at a time. -/
theorem crc_zeros {c d : BitVec 32} {n : Nat} (h : crcRun c [0, 0, 0, 0] = d) : crcRun c (List.replicate (n + 4) 0) = crcRun d (List.replicate n 0) := by
  subst h; rfl

theorem crc_of_image : crcRun 0xFFFFFFFF (List.replicate 16 0) = 0x1344B4AA :=
  (crc_zeros (by decide +kernel : crcRun 0xFFFFFFFF [0, 0, 0, 0] = 0xDEBB20E3)).trans <|
  (crc_zeros (by decide +kernel : crcRun 0xDEBB20E3 [0, 0, 0, 0] = 0x9ADD2096)).trans <|
  (crc_zeros (by decide +kernel : crcRun 0x9ADD2096 [0, 0, 0, 0] = 0x842A3990)).trans <|
  (crc_zeros (by decide +kernel : crcRun 0x842A3990 [0, 0, 0, 0] = 0x1344B4AA)).trans rfl

theorem crc_of_options : crcRun 0xE2670F49 (List.replicate 240 0) = 0x86298470 :=
  (crc_zeros (by decide +kernel : crcRun 0xE2670F49 [0, 0, 0, 0] = 0x89F82EBE)).trans <|
  (crc_zeros (by decide +kernel : crcRun 0x89F82EBE [0, 0, 0, 0] = 0x877F0272)).trans <|
  (crc_zeros (by decide +kernel : crcRun 0x877F0272 [0, 0, 0, 0] = 0x19C9CFC3)).trans <|
  (crc_zeros (by decide +kernel : crcRun 0x19C9CFC3 [0, 0, 0, 0] = 0x80585452)).trans <|
  (crc_zeros (by decide +kernel : crcRun 0x80585452 [0, 0, 0, 0] = 0x956B1539)).trans <|
  (crc_zeros (by decide +kernel : crcRun 0x956B1539 [0, 0, 0, 0] = 0x91A20317)).trans <|
  (crc_zeros (by decide +kernel : crcRun 0x91A20317 [0, 0, 0, 0] = 0xD4B1ACC6)).trans <|
  (crc_zeros (by decide +kernel : crcRun 0xD4B1ACC6 [0, 0, 0, 0] = 0xFF249CEA)).trans <|
  (crc_zeros (by decide +kernel : crcRun 0xFF249CEA [0, 0, 0, 0] = 0x9121EEE3)).trans <|
  (crc_zeros (by decide +kernel : crcRun 0x9121EEE3 [0, 0, 0, 0] = 0x6C21A54D)).trans <|
  (crc_zeros (by decide +kernel : crcRun 0x6C21A54D [0, 0, 0, 0] = 0x7E5627FB)).trans <|
  (crc_zeros (by decide +kernel : crcRun 0x7E5627FB [0, 0, 0, 0] = 0x3739672A)).trans <|
  (crc_zeros (by decide +kernel : crcRun 0x3739672A [0, 0, 0, 0] = 0x342EBA4A)).trans <|
  (crc_zeros (by decide +kernel : crcRun 0x342EBA4A [0, 0, 0, 0] = 0x16D33E06)).trans <|
  (crc_zeros (by decide +kernel : crcRun 0x16D33E06 [0, 0, 0, 0] = 0x555FB4CB)).trans <|
  (crc_zeros (by decide +kernel : crcRun 0x555FB4CB [0, 0, 0, 0] = 0x4539DB2B)).trans <|
  (crc_zeros (by decide +kernel : crcRun 0x4539DB2B [0, 0, 0, 0] = 0xFEDDCA4B)).trans <|
  (crc_zeros (by decide +kernel : crcRun 0xFEDDCA4B [0, 0, 0, 0] = 0xBEBEA8E3)).trans <|
  (crc_zeros (by decide +kernel : crcRun 0xBEBEA8E3 [0, 0, 0, 0] = 0x453EFFB3)).trans <|
  (crc_zeros (by decide +kernel : crcRun 0x453EFFB3 [0, 0, 0, 0] = 0xF62C7BFB)).trans <|
  (crc_zeros (by decide +kernel : crcRun 0xF62C7BFB [0, 0, 0, 0] = 0x642C2A90)).trans <|
  (crc_zeros (by decide +kernel : crcRun 0x642C2A90 [0, 0, 0, 0] = 0xFB74EC7D)).trans <|
  (crc_zeros (by decide +kernel : crcRun 0xFB74EC7D [0, 0, 0, 0] = 0x5891C6E3)).trans <|
  (crc_zeros (by decide +kernel : crcRun 0x5891C6E3 [0, 0, 0, 0] = 0x5C0266B9)).trans <|
  (crc_zeros (by decide +kernel : crcRun 0x5C0266B9 [0, 0, 0, 0] = 0x7CCBC9DF)).trans <|
  (crc_zeros (by decide +kernel : crcRun 0x7CCBC9DF [0, 0, 0, 0] = 0x91F43792)).trans <|
  (crc_zeros (by decide +kernel : crcRun 0x91F43792 [0, 0, 0, 0] = 0xC1B55D51)).trans <|
  (crc_zeros (by decide +kernel : crcRun 0xC1B55D51 [0, 0, 0, 0] = 0x62047DFF)).trans <|
  (crc_zeros (by decide +kernel : crcRun 0x62047DFF [0, 0, 0, 0] = 0x45FC3882)).trans <|
  (crc_zeros (by decide +kernel : crcRun 0x45FC3882 [0, 0, 0, 0] = 0xD397D136)).trans <|
  (crc_zeros (by decide +kernel : crcRun 0xD397D136 [0, 0, 0, 0] = 0x78D167C9)).trans <|
  (crc_zeros (by decide +kernel : crcRun 0x78D167C9 [0, 0, 0, 0] = 0x80207179)).trans <|
  (crc_zeros (by decide +kernel : crcRun 0x80207179 [0, 0, 0, 0] = 0x3B384AF3)).trans <|
  (crc_zeros (by decide +kernel : crcRun 0x3B384AF3 [0, 0, 0, 0] = 0x4F4AE480)).trans <|
  (crc_zeros (by decide +kernel : crcRun 0x4F4AE480 [0, 0, 0, 0] = 0xAF4735C9)).trans <|
  (crc_zeros (by decide +kernel : crcRun 0xAF4735C9 [0, 0, 0, 0] = 0xD0B4E14C)).trans <|
  (crc_zeros (by decide +kernel : crcRun 0xD0B4E14C [0, 0, 0, 0] = 0x7F98E47A)).trans <|
  (crc_zeros (by decide +kernel : crcRun 0x7F98E47A [0, 0, 0, 0] = 0xD34B543B)).trans <|
  (crc_zeros (by decide +kernel : crcRun 0xD34B543B [0, 0, 0, 0] = 0x40C8EC6C)).trans <|
  (crc_zeros (by decide +kernel : crcRun 0x40C8EC6C [0, 0, 0, 0] = 0xA4F77DA9)).trans <|
  (crc_zeros (by decide +kernel : crcRun 0xA4F77DA9 [0, 0, 0, 0] = 0xE60CBD07)).trans <|
  (crc_zeros (by decide +kernel : crcRun 0xE60CBD07 [0, 0, 0, 0] = 0xB58D5DBB)).trans <|
  (crc_zeros (by decide +kernel : crcRun 0xB58D5DBB [0, 0, 0, 0] = 0x9B31D57D)).trans <|
  (crc_zeros (by decide +kernel : crcRun 0x9B31D57D [0, 0, 0, 0] = 0xB397C2E4)).trans <|
  (crc_zeros (by decide +kernel : crcRun 0xB397C2E4 [0, 0, 0, 0] = 0xA75E6AAA)).trans <|
  (crc_zeros (by decide +kernel : crcRun 0xA75E6AAA [0, 0, 0, 0] = 0x0B1CF106)).trans <|
  (crc_zeros (by decide +kernel : crcRun 0x0B1CF106 [0, 0, 0, 0] = 0xE0C8C2EE)).trans <|
  (crc_zeros (by decide +kernel : crcRun 0xE0C8C2EE [0, 0, 0, 0] = 0x07A2CB1B)).trans <|
  (crc_zeros (by decide +kernel : crcRun 0x07A2CB1B [0, 0, 0, 0] = 0x18B7E2F7)).trans <|
  (crc_zeros (by decide +kernel : crcRun 0x18B7E2F7 [0, 0, 0, 0] = 0x093F8AF9)).trans <|
  (crc_zeros (by decide +kernel : crcRun 0x093F8AF9 [0, 0, 0, 0] = 0x36CE55E3)).trans <|
  (crc_zeros (by decide +kernel : crcRun 0x36CE55E3 [0, 0, 0, 0] = 0x347E6DD4)).trans <|
  (crc_zeros (by decide +kernel : crcRun 0x347E6DD4 [0, 0, 0, 0] = 0x7931D670)).trans <|
  (crc_zeros (by decide +kernel : crcRun 0x7931D670 [0, 0, 0, 0] = 0x0DBF2734)).trans <|
  (crc_zeros (by decide +kernel : crcRun 0x0DBF2734 [0, 0, 0, 0] = 0x5FA7F159)).trans <|
  (crc_zeros (by decide +kernel : crcRun 0x5FA7F159 [0, 0, 0, 0] = 0x18913F84)).trans <|
  (crc_zeros (by decide +kernel : crcRun 0x18913F84 [0, 0, 0, 0] = 0x363AA0CC)).trans <|
  (crc_zeros (by decide +kernel : crcRun 0x363AA0CC [0, 0, 0, 0] = 0x0FF0473E)).trans <|
  (crc_zeros (by decide +kernel : crcRun 0x0FF0473E [0, 0, 0, 0] = 0xE122E8FB)).trans <|
  (crc_zeros (by decide +kernel : crcRun 0xE122E8FB [0, 0, 0, 0] = 0x86298470)).trans rfl

/-- Option bytes with their CRC, and a firmware image of 16 zero bytes with its own. -/
def optHead : List Byte := toLe 0x3154504F 4 ++ [1, 0, 0, 0] ++ toLe 0x10000 4
def nvmOpt : List Byte := optHead ++ List.replicate 240 0 ++ toLe 0x79D67B8F 4
def fwImage : List Byte := toLe 0x31455245 4 ++ toLe 16 4 ++ toLe 0xECBB4B55 4 ++ toLe 0 4

theorem crcRun_append (c : BitVec 32) (a b : List Byte) : crcRun c (a ++ b) = crcRun (crcRun c a) b := by
  induction a generalizing c with
  | nil => rfl
  | cons x xs ih => exact ih _

theorem nvmOpt_crc : crc32 (nvmOpt.take 252) = leAt nvmOpt 252 4 := by
  have h : nvmOpt.take 252 = optHead ++ List.replicate 240 0 := by decide +kernel
  have e : crcRun 0xFFFFFFFF (optHead ++ List.replicate 240 0) = 0x86298470 := by
    rw [crcRun_append, show crcRun 0xFFFFFFFF optHead = 0xE2670F49 from (crcRun_append _ _ (toLe 0x10000 4)).trans (by decide +kernel)]
    exact crc_of_options
  rw [h, crc32, e]; decide +kernel

theorem fwImage_crc : crc32 (List.replicate 16 0) = 0xECBB4B55 := by
  rw [crc32, crc_of_image]; rfl

/-! ### Witnesses: states and operands that meet the hypotheses of the statements -/

theorem witness_StepTakesTheFrontCommand :
    ({ up with pending := [.go 3, .ack 3] } : State).pending = .go 3 :: [.ack 3] ∧ up.pending = [] := by decide +kernel

theorem witness_PhysicalMemoryReadsBack : MemOk up.mem := by
  refine ⟨?_, ?_, ?_, ?_⟩ <;> decide +kernel

theorem witness_EveryStepKeepsTheInvariant : Inv up ∧ ∃ t, step up = .next t := by
  refine ⟨⟨witness_PhysicalMemoryReadsBack, ?_, ?_, ?_, ?_, ?_⟩, ?_⟩
  · decide +kernel
  · decide +kernel
  · decide +kernel
  · decide +kernel
  · decide +kernel
  · exact ⟨_, rfl⟩

theorem witness_DurableRecordsStand : Inv up ∧ (∀ mb, Instr.nop 7 ≠ .chronoClear mb) ∧ ∃ t, exec (.nop 7) up = .next t :=
  ⟨witness_EveryStepKeepsTheInvariant.1, (by intro mb h; cases h), ⟨_, rfl⟩⟩

theorem witness_TheLargerFractionIsInForce : up.pk.capPace ≤ 15 ∧ up.pk.thermPace ≤ 15 ∧ up.bu.tripped = false ∧
    rbit up Reg.GLOBAL_PINS 1 = false ∧ dieTemp up < 120 ∧ stackTemp up < 105 ∧ isDue up 8 100000 = true ∧ isDue up 9 100000 = true := by
  decide +kernel

/-- A working DYA-7248, which lacks the Deflate engine and half the ports. -/
def up7248 : State := { up with fuse := { variant := .dya7248 } }

theorem witness_AccessesBeyondTheMap :
    (barsOn up7248 = true ∧ absentOff up7248.fuse.variant 0x01000140 = true ∧ absentOff up7248.fuse.variant 0x01000144 = true) ∧
    (barsOn up = true ∧ absentOff up.fuse.variant 0x03FFFFFC = false ∧ mapped 0x03FFFFFC = false) ∧
    (∀ n, n ≤ 2 → ¬(n = 4 ∧ Reg.GLOBAL_STATUS % 4 = 0) ∧ ¬(n = 8 ∧ Reg.GLOBAL_STATUS % 8 = 0)) ∧
    absentOff up.fuse.variant (Reg.GLOBAL_STATUS / 4 * 4) = false ∧ mapped (Reg.GLOBAL_STATUS / 4 * 4) = true ∧
    offDead up (Reg.GLOBAL_STATUS / 4 * 4) = false := by decide +kernel

theorem witness_RegisterAccessTypes : Reaches up Reg.GW_CONFIG ∧ noEngine Reg.GW_CONFIG = false ∧ (regRow Reg.GW_CONFIG).isSome = true ∧
    (regRow Reg.GW_CONFIG).any (fun r => !r.latch) = true ∧
    Reg.GW_CONFIG ∉ [Reg.EV_CFG, Reg.EV_LINK, Reg.EV_RECORD_HI, Reg.EV_RECORD_LO, Reg.EV_ADVANCE, Reg.TU_CTRL, Reg.TU_FRING_CFG, Reg.TU_FRING_HEAD,
      Reg.TU_FRING_STATUS, Reg.CA_CLASS_EN, Reg.CA_WAYS, Reg.CA_MAINT_CTRL, Reg.HL_BAR4_SLIDE, Reg.NL_MC_CTRL, Reg.GLOBAL_THERM_CFG,
      Reg.RS_FORGET, Reg.RS_NVM_CTRL, Reg.BK_CTRL, Reg.BK_RTC_SET_LO, Reg.BK_RTC_SET_HI, Reg.GW_REPAIR_CTRL] ∧
    instOf Reg.GW_CONFIG (Reg.RG_JOB_CTRL 0) 0x20 32 = none ∧ instOf Reg.GW_CONFIG (Reg.CR_OUT_CFG 0) 0x40 4 = none ∧
    instOf Reg.GW_CONFIG (Reg.CR_SLOT 0) 4 64 = none ∧ instOf Reg.GW_CONFIG (Reg.TM_GEN_CTRL 0) 0x10 8 = none ∧
    instOf Reg.GW_CONFIG (Reg.HL_MSIX 0) 4 32 = none ∧ instOf Reg.GW_CONFIG (Reg.HL_HDM_DPA 0) 4 2 = none :=
  ⟨reaches_of (by decide +kernel), by decide +kernel⟩

/-- A working part whose device-fed ring holds one published descriptor, a NOP, in host memory. -/
def upFetch : State := { up with
  mem := { host := [(0x2000, 1)] }
  esc := { rings := [(1, { ctx := 1, eng := 2, mode := 1, va := 0x2000, tail := 1, pub := 1, pubLog := [(1, 0)] })], clock := 1 } }

/-- A descriptor that waits for an indirect value: a DISPATCH whose grid height is read from VA 0x8000. -/
def indDesc : Desc := { wDesc 2 Op.DISPATCH [(0x28, 4, 2 ^ 28), (0x20, 4, 0x8000)] with phase := .reading }

theorem witness_DescriptorsMoveAlong :
    (barsOn up = true ∧ ringOf up 0 = some { ctx := 1, eng := 2, va := 0x1000 } ∧ ((5 : Word) - 0).toNat ≤ 64 ∧ 64 < ((65 : Word) - 0).toNat) ∧
    (∃ x, ringOf up 2 = some x ∧ x.mode = 2 ∧ publishable x 3 = false ∧ publishable x 2 = true ∧ (2 : Word) ≠ x.pub ∧
      publishable x x.pub = true ∧ x.published.contains (x.pub + 1).toNat = false ∧ (reserveIn x).isSome = true) ∧
    (fnNotReady upFetch (engFn 2) = false ∧ fnNotReady upFetch Fun.ESCAPEMENTS = false ∧ slotFree upFetch 2 = true ∧
      ∃ r x a es, pickRing upFetch 2 = some (r, x, .group a es) ∧ ringOf upFetch r = some x ∧ ∃ s m, prepare upFetch (ringWho x r) (groupAccs x es.length) = .ok s m) ∧
    (∃ d off fw vw, unstarted (withDesc up indDesc) 0 .reading = some (7, d) ∧ nextInd (withDesc up indDesc) d = some (off, fw, vw) ∧
      leAt d.bytes off fw % vw = 0 ∧ leAt d.bytes off fw < 2 ^ 57 ∧
      ∃ s m, prepare (withDesc up indDesc) { stream := 0, ctx := d.ctx, eng := d.eng, ring := some 0 } [{ va := leAt d.bytes off fw, len := vw, kind := 0 }] = .ok s m) ∧
    (unstarted (withDesc up { indDesc with phase := .ready }) 0 .ready = some (7, { indDesc with phase := .ready }) ∧
      startable (withDesc up { indDesc with phase := .ready }) { indDesc with phase := .ready } = true) := by
  refine ⟨?_, ?_, ⟨?_, ?_, ?_, ?_⟩, ?_, ?_⟩
  · decide +kernel
  · exact ⟨_, rfl, by decide +kernel⟩
  · decide +kernel
  · decide +kernel
  · decide +kernel
  · exact ⟨1, _, _, _, rfl, rfl, prepGood_exists (by decide +kernel)⟩
  · exact ⟨indDesc, 0x20, 4, 4, by decide +kernel, by decide +kernel, by decide +kernel, by decide +kernel, prepGood_exists (by decide +kernel)⟩
  · decide +kernel

/-- A descriptor at its engine, number 7, of a working part. -/
def atEng (eng op : Nat) (fields : List (Nat × Nat × Nat)) : State := withDesc up (wDesc eng op fields)

/-- Context 1 in another state. -/
def withCtx (s : State) (x : Ctx) : State := { s with ctxs := [(1, x)] }

/-- A working part whose first beat waits for memory from the allocator of context 1. -/
def upAlloc : State := { up with
  pn := { up.pn with wgs := [(5, wWg 0 { active := 0xFFFFFFFF, waiting := true })] }
  al := { queue := [{ ctx := 1, desc := none, isFree := false, arg := 256, wg := 5, beat := 0, lane := 31, dst := 2 }] } }

theorem witness_DescriptorsComplete :
    (∃ d, tfind (withDesc up { wDesc 2 Op.NOP [] with phase := .finished }).esc.descs 7 = some d ∧ d.phase = .finished ∧ d.record = none ∧
      sysScopeHeld (withDesc up d) d = false) ∧
    (∃ s m, prepare up { stream := 0, ctx := 1, eng := 2, ring := some 0 } [{ va := 0x4000, len := 32, kind := 1 }] = .ok s m) ∧
    AtEngine (atEng 2 Op.NOP []) 7 Op.NOP (wDesc 2 Op.NOP []) ∧ AtEngine (atEng 2 Op.NOP [(0x3F, 1, 1)]) 7 Op.NOP (wDesc 2 Op.NOP [(0x3F, 1, 1)]) ∧
    AtEngine (atEng 2 Op.EVENT_WAIT []) 7 Op.EVENT_WAIT (wDesc 2 Op.EVENT_WAIT []) ∧
    AtEngine (atEng 2 Op.EVENT_RECORD [(0x10, 2, 3), (0x16, 1, 1)]) 7 Op.EVENT_RECORD (wDesc 2 Op.EVENT_RECORD [(0x10, 2, 3), (0x16, 1, 1)]) ∧
    evBodyOk (wDesc 2 Op.EVENT_RECORD [(0x10, 2, 3), (0x16, 1, 1)]).bytes false = true ∧
    (AtEngine (atEng 2 Op.ALLOC [(0x10, 8, 4096)]) 7 Op.ALLOC (wDesc 2 Op.ALLOC [(0x10, 8, 4096)]) ∧ (ctxOf up 1).mode ≠ 0) ∧
    AtEngine (atEng 2 Op.FREE []) 7 Op.FREE (wDesc 2 Op.FREE []) ∧
    (∃ q, takeReq 1 upAlloc.al.queue = some (q, []) ∧ fenceStatus upAlloc 1 2 = none ∧ q.desc = none ∧ q.isFree = false ∧ q.lane = 31 ∧
      (placeAlloc (ctxOf upAlloc 1) q.arg).isSome = true) := by
  refine ⟨⟨_, rfl, by decide +kernel⟩, prepGood_exists (by decide +kernel), atEngine_of ?_, atEngine_of ?_, atEngine_of ?_, atEngine_of ?_, ?_,
    ⟨atEngine_of ?_, ?_⟩, atEngine_of ?_, _, rfl, ?_⟩ <;> decide +kernel

theorem witness_EventsAndPeriodsAdvance :
    Reaches up Reg.EV_RECORD_HI ∧ Reaches up Reg.EV_RECORD_LO ∧ Reaches up Reg.EV_ADVANCE ∧ bit (1 : Word) 0 = true ∧
    ((evOf up 3).alloc = true ∧ (evOf up 0).alloc = false) ∧
    ({ up.evs with fwd := [{ srcDev := 1, dst := 3, kind := .flag }] } : Events).fwd = [{ srcDev := 1, dst := 3, kind := .flag }] ∧
    (rgRunning up = true ∧ isDue up 4 10000000 = true ∧ ∀ p ∈ ({ up with ctxs := [] } : State).ctxs, p.2.st = .free) ∧
    up.sched.perEnd ≤ up.time.cal ∧ isDue up 2 100000 = true :=
  ⟨reaches_of (by decide +kernel), reaches_of (by decide +kernel), reaches_of (by decide +kernel), by decide +kernel⟩

/-- Mailbox `mb` of a working part with a request that waits. -/
def mbAt (mb : Nat) (st : MbSt) : State := { up with rg := { up.rg with mbox := [(mb, { st := st, req := reqWords Cmd.GET_INFO [] })] } }

theorem witness_MailboxProtocol :
    (Reaches up (Reg.RG_MB_CTRL 0) ∧ (mboxOf up 0).st = .idle ∧ up.er.heldFrozen = false ∧ up.er.rmFailed = false) ∧
    (Reaches (mbAt 15 .done) (Reg.RG_MB_CTRL 15) ∧ (mboxOf (mbAt 15 .done) 15).st = .done) ∧
    (Reaches (mbAt 14 .pending) (Reg.RG_MB_CTRL 14) ∧ (mboxOf (mbAt 14 .pending) 14).st = .pending ∧ isNext (mbAt 14 .pending) 14 = true ∧
      servicing (mbAt 14 .pending) 14 = true ∧ servicing (mbAt 15 .pending) 15 = true) ∧
    (Reaches up (Reg.RG_JOB_CTRL 31) ∧ (jobOf { up with rg := { up.rg with jobs := [(31, { st := .done })] } } 31).st = .done) := by
  refine ⟨⟨reaches_of ?_, ?_⟩, ⟨reaches_of ?_, ?_⟩, ⟨reaches_of ?_, ?_⟩, reaches_of ?_, ?_⟩ <;> decide +kernel

/-- A working part with a job whose status is decided. -/
def upJob : State := { up with rg := { up.rg with jobs := [(31, { st := .running, code := Cmd.SCRUB, final := some St.SUCCESS })] } }

theorem witness_JobDoneEndsTheJob : (jobOf upJob 31).st = .running ∧ rgRunning upJob = true ∧ jobBehind upJob (jobOf upJob 31) = false ∧
    (jobOf upJob 31).final = some St.SUCCESS := by decide +kernel

/-- A request of mailbox `mb` of a working part. -/
theorem asked_up {mb code : Nat} {args : List Nat} (h : askedB (askOf up mb code args) mb code (reqWords code args) = true) :
    Asked (askOf up mb code args) mb code (reqWords code args) := asked_of h

theorem witness_QueriesAnswerAndChangeNothing :
    Asked (askOf up 14 Cmd.GET_INFO []) 14 Cmd.GET_INFO (reqWords Cmd.GET_INFO []) ∧
    Asked (askOf up 0 Cmd.CTX_QUERY [1]) 0 Cmd.CTX_QUERY (reqWords Cmd.CTX_QUERY [1]) ∧
    Asked (askOf up 0 Cmd.RING_QUERY [2]) 0 Cmd.RING_QUERY (reqWords Cmd.RING_QUERY [2]) ∧
    Asked (askOf up 0 Cmd.MODEL_STATUS [0]) 0 Cmd.MODEL_STATUS (reqWords Cmd.MODEL_STATUS [0]) ∧
    Asked (askOf up 0 Cmd.RESV_QUERY []) 0 Cmd.RESV_QUERY (reqWords Cmd.RESV_QUERY []) ∧
    Asked (askOf up 0 Cmd.ACCT_READ [2]) 0 Cmd.ACCT_READ (reqWords Cmd.ACCT_READ [2]) ∧
    Asked (askOf up 0 Cmd.FAB_STATUS []) 0 Cmd.FAB_STATUS (reqWords Cmd.FAB_STATUS []) ∧
    Asked (askOf up 0 Cmd.CHRONO_INFO []) 0 Cmd.CHRONO_INFO (reqWords Cmd.CHRONO_INFO []) ∧
    Asked (askOf up 15 Cmd.CHRONO_READ [1, 0]) 15 Cmd.CHRONO_READ (reqWords Cmd.CHRONO_READ [1, 0]) ∧
    Asked (askOf up 15 Cmd.STATUS []) 15 Cmd.STATUS (reqWords Cmd.STATUS []) ∧
    Asked (askOf up 15 Cmd.READ_COUNTERS [4, 0]) 15 Cmd.READ_COUNTERS (reqWords Cmd.READ_COUNTERS [4, 0]) := by
  refine ⟨asked_up ?_, asked_up ?_, asked_up ?_, asked_up ?_, asked_up ?_, asked_up ?_, asked_up ?_, asked_up ?_, asked_up ?_, asked_up ?_, asked_up ?_⟩ <;>
    decide +kernel

/-- A truth value of a context's creation. -/
def createOk (s : State) (r : List Word) : Bool := match createCheck s r with
  | .ok _ => true
  | .error _ => false

theorem witness_ContextCommandsAct :
    (Asked (askOf up 0 Cmd.CTX_CREATE [9]) 0 Cmd.CTX_CREATE (reqWords Cmd.CTX_CREATE [9]) ∧ creating (askOf up 0 Cmd.CTX_CREATE [9]) = none ∧
      createOk (askOf up 0 Cmd.CTX_CREATE [9]) (reqWords Cmd.CTX_CREATE [9]) = true ∧ wd (reqWords Cmd.CTX_CREATE [9]) 5 = 0) ∧
    (Asked (askOf up 0 Cmd.CTX_CREATE [9, 0, 1025]) 0 Cmd.CTX_CREATE (reqWords Cmd.CTX_CREATE [9, 0, 1025]) ∧
      createOk (askOf up 0 Cmd.CTX_CREATE [9, 0, 1025]) (reqWords Cmd.CTX_CREATE [9, 0, 1025]) = false) ∧
    (Asked (askOf up 0 Cmd.CTX_DESTROY [1]) 0 Cmd.CTX_DESTROY (reqWords Cmd.CTX_DESTROY [1]) ∧ freeJob (askOf up 0 Cmd.CTX_DESTROY [1]) = some 0 ∧
      (ctxOf (askOf up 0 Cmd.CTX_DESTROY [1]) 1).st = .active) ∧
    Asked (askOf up 0 Cmd.CTX_UNFENCE [1]) 0 Cmd.CTX_UNFENCE (reqWords Cmd.CTX_UNFENCE [1]) ∧
    Asked (askOf up 0 Cmd.CTX_WEIGHT [1, 3]) 0 Cmd.CTX_WEIGHT (reqWords Cmd.CTX_WEIGHT [1, 3]) ∧
    Asked (askOf up 0 Cmd.HANG_POLICY [1, 50, 1]) 0 Cmd.HANG_POLICY (reqWords Cmd.HANG_POLICY [1, 50, 1]) ∧
    Asked (askOf up 15 Cmd.FENCE_CONTEXT [1]) 15 Cmd.FENCE_CONTEXT (reqWords Cmd.FENCE_CONTEXT [1]) ∧
    Asked (askOf up 15 Cmd.FENCE_ALL []) 15 Cmd.FENCE_ALL (reqWords Cmd.FENCE_ALL []) := by
  refine ⟨⟨asked_up ?_, ?_, ?_, ?_⟩, ⟨asked_up ?_, ?_⟩, ⟨asked_up ?_, ?_⟩, asked_up ?_, asked_up ?_, asked_up ?_, asked_up ?_, asked_up ?_⟩ <;>
    decide +kernel

theorem witness_ObjectCommandsAct :
    (Asked (askOf up 0 Cmd.EVENT_ALLOC [1, 2]) 0 Cmd.EVENT_ALLOC (reqWords Cmd.EVENT_ALLOC [1, 2]) ∧ (ctxOf up 1).st = .active) ∧
    (Asked (askOf up 0 Cmd.EVENT_FREE [1, 3, 2]) 0 Cmd.EVENT_FREE (reqWords Cmd.EVENT_FREE [1, 3, 2]) ∧ ∀ i, i < 2 → evOwned up 1 (3 + i) = true) ∧
    Asked (askOf up 0 Cmd.RING_CREATE [1, 2, 0x5000, 0, 64]) 0 Cmd.RING_CREATE (reqWords Cmd.RING_CREATE [1, 2, 0x5000, 0, 64]) ∧
    Asked (askOf up 0 Cmd.RING_DESTROY [2]) 0 Cmd.RING_DESTROY (reqWords Cmd.RING_DESTROY [2]) ∧
    Asked (askOf up 0 Cmd.RESV_SET [0, 0, 100]) 0 Cmd.RESV_SET (reqWords Cmd.RESV_SET [0, 0, 100]) ∧
    Asked (askOf up 0 Cmd.RESV_RELEASE [255]) 0 Cmd.RESV_RELEASE (reqWords Cmd.RESV_RELEASE [255]) ∧
    (Asked (askOf up 0 Cmd.ACCT_BIND [1, 3]) 0 Cmd.ACCT_BIND (reqWords Cmd.ACCT_BIND [1, 3]) ∧ ctxJobBusy (askOf up 0 Cmd.ACCT_BIND [1, 3]) 1 = false) ∧
    Asked (askOf up 0 Cmd.ACCT_PERIOD [60, 0, 0]) 0 Cmd.ACCT_PERIOD (reqWords Cmd.ACCT_PERIOD [60, 0, 0]) ∧
    Asked (askOf up 0 Cmd.FAB_ROUTE_WRITE [63, 7]) 0 Cmd.FAB_ROUTE_WRITE (reqWords Cmd.FAB_ROUTE_WRITE [63, 7]) ∧
    Asked (askOf up 0 Cmd.CHRONO_LIMIT [0x10, 5]) 0 Cmd.CHRONO_LIMIT (reqWords Cmd.CHRONO_LIMIT [0x10, 5]) ∧
    (Asked (askOf up 0 Cmd.CHRONO_CLEAR [3]) 0 Cmd.CHRONO_CLEAR (reqWords Cmd.CHRONO_CLEAR [3]) ∧ (askOf up 0 Cmd.CHRONO_CLEAR [3]).ch.erasing = none ∧
      ChOk (askOf up 0 Cmd.CHRONO_CLEAR [3]).ch) := by
  refine ⟨⟨asked_up ?_, ?_⟩, ⟨asked_up ?_, ?_⟩, asked_up ?_, asked_up ?_, asked_up ?_, asked_up ?_, ⟨asked_up ?_, ?_⟩, asked_up ?_, asked_up ?_, asked_up ?_,
    ⟨asked_up ?_, ?_, ?_, ?_, ?_, ?_, ?_⟩⟩ <;> decide +kernel

/-- The header of a model image of one block and one operation, whose list follows the header. -/
def imageHead : List Byte := toLe 0x314C5242 4 ++ toLe 1 4 ++ toLe 1 4 ++ toLe 1 4 ++ toLe 64 8 ++ List.replicate 40 0

/-- A working part with model 6 of context 1, of 4 blocks, none of them resident. -/
def upModel : State := { up with
  mem := { host := bytesAt 0x10000 imageHead }
  ba := { models := [(6, { ctx := 1, image := 0x10000, pbase := 0, ev := 3, blocks := 4, ops := 1 })] } }

theorem asked_model {mb code : Nat} {args : List Nat} (h : askedB (askOf upModel mb code args) mb code (reqWords code args) = true) :
    Asked (askOf upModel mb code args) mb code (reqWords code args) := asked_of h

theorem witness_ModelCommandsAct :
    (Asked (askOf upModel 0 Cmd.MODEL_LOAD [6]) 0 Cmd.MODEL_LOAD (reqWords Cmd.MODEL_LOAD [6]) ∧ (modelOf upModel 6).isSome = true ∧
      (ctxOf upModel 1).st = .active ∧ freeJob upModel = some 0) ∧
    (Asked (askOf upModel 0 Cmd.MODEL_PIN [6]) 0 Cmd.MODEL_PIN (reqWords Cmd.MODEL_PIN [6]) ∧ ctxPinned upModel 1 + 4 ≤ (ctxOf upModel 1).quota) ∧
    Asked (askOf upModel 0 Cmd.MODEL_UNPIN [6]) 0 Cmd.MODEL_UNPIN (reqWords Cmd.MODEL_UNPIN [6]) ∧
    Asked (askOf upModel 0 Cmd.MODEL_EVICT [6]) 0 Cmd.MODEL_EVICT (reqWords Cmd.MODEL_EVICT [6]) ∧
    Asked (askOf upModel 0 Cmd.MODEL_UNLOAD [6]) 0 Cmd.MODEL_UNLOAD (reqWords Cmd.MODEL_UNLOAD [6]) ∧
    Asked (askOf upModel 0 Cmd.BARREL_QUOTA [1, 1024]) 0 Cmd.BARREL_QUOTA (reqWords Cmd.BARREL_QUOTA [1, 1024]) ∧
    (Asked (askOf upModel 0 Cmd.PLATE_PARTITION [1, 2]) 0 Cmd.PLATE_PARTITION (reqWords Cmd.PLATE_PARTITION [1, 2]) ∧ backed upModel 1 ≤ 2 ∧
      2 - backed upModel 1 ≤ (freeGrans upModel).length) ∧
    (∃ s, s = askOf upModel 0 Cmd.MODEL_REGISTER [1, 3, 0x10000, 0, 0, 0] ∧
      Asked s 0 Cmd.MODEL_REGISTER (reqWords Cmd.MODEL_REGISTER [1, 3, 0x10000, 0, 0, 0]) ∧
      evOwned s 1 3 = true ∧ imageOk (vaRd s false [(0x10, 0x10000)] 0x10000 64) = true ∧ storeUsed s + 1 ≤ 65536 ∧
      nextWrap (fun i => (modelOf s i).isNone) s.ba.nextModel 4096 = some 0 ∧
      (∃ a m, prepare s { stream := 60, ctx := 1, eng := 0 } [{ va := 0x10000, len := 64, kind := 0 }] = .ok a m) ∧
      ∃ a m, prepare s { stream := 60, ctx := 1, eng := 0 } [{ va := 0x10000, len := 64, kind := 0 }, { va := 0x10040, len := 128, kind := 0 }] = .ok a m) := by
  refine ⟨⟨asked_model ?_, ?_⟩, ⟨asked_model ?_, ?_⟩, asked_model ?_, asked_model ?_, asked_model ?_, asked_model ?_, ⟨asked_model ?_, ?_⟩,
    _, rfl, asked_model ?_, ?_, ?_, ?_, ?_, prepGood_exists ?_, prepGood_exists ?_⟩ <;> decide +kernel

/-- A working part that manages a domain of two devices. -/
def upMgr : State := { up with nl := { roleOpt := 1, acting := 1, member := true, configured := 2, members := 3, mgrReach := true, active := [(1, 0)] } }

theorem asked_mgr {mb code : Nat} {args : List Nat} (h : askedB (askOf upMgr mb code args) mb code (reqWords code args) = true) :
    Asked (askOf upMgr mb code args) mb code (reqWords code args) := asked_of h

theorem witness_LongCommandsTakeJobs :
    (upMgr.nl.acting = 1 ∧ freeJob upMgr = some 0 ∧ Asked (askOf upMgr 0 Cmd.FAB_ENUMERATE [2]) 0 Cmd.FAB_ENUMERATE (reqWords Cmd.FAB_ENUMERATE [2]) ∧
      Asked (askOf upMgr 0 Cmd.FAB_EPOCH_SWITCH []) 0 Cmd.FAB_EPOCH_SWITCH (reqWords Cmd.FAB_EPOCH_SWITCH []) ∧
      Asked (askOf upMgr 0 Cmd.FAB_REJOIN []) 0 Cmd.FAB_REJOIN (reqWords Cmd.FAB_REJOIN [])) ∧
    (up.nl.acting ≠ 1 ∧ Asked (askOf up 0 Cmd.FAB_ENUMERATE [2]) 0 Cmd.FAB_ENUMERATE (reqWords Cmd.FAB_ENUMERATE [2])) ∧
    (Asked (askOf { up with ch := { circ := [{}] } } 0 Cmd.CHRONO_EXPORT [0x101, 0, 0x4000, 0, 1]) 0 Cmd.CHRONO_EXPORT (reqWords Cmd.CHRONO_EXPORT [0x101, 0, 0x4000, 0, 1]) ∧
      0 < Nat.min 1 (recCount { up with ch := { circ := [{}] } } true)) ∧
    (Asked (askOf up 0 Cmd.SCRUB [1, 0, 0, 0, 128, 0]) 0 Cmd.SCRUB (reqWords Cmd.SCRUB [1, 0, 0, 0, 128, 0]) ∧ 0 + 128 ≤ scrubSize up.fuse.variant 1) ∧
    Asked (askOf up 0 Cmd.SELF_TEST [0]) 0 Cmd.SELF_TEST (reqWords Cmd.SELF_TEST [0]) ∧
    (Asked (askOf up 15 Cmd.RESET_FUNCTION [10]) 15 Cmd.RESET_FUNCTION (reqWords Cmd.RESET_FUNCTION [10]) ∧ testJob up 10 = none) ∧
    Asked (askOf up 15 Cmd.RESET_DEVICE [0x5244]) 15 Cmd.RESET_DEVICE (reqWords Cmd.RESET_DEVICE [0x5244]) := by
  refine ⟨⟨?_, ?_, asked_mgr ?_, asked_mgr ?_, asked_mgr ?_⟩, ⟨?_, asked_up ?_⟩, ⟨asked_of ?_, ?_⟩, ⟨asked_up ?_, ?_⟩, asked_up ?_, ⟨asked_up ?_, ?_⟩,
    asked_up ?_⟩ <;> decide +kernel

/-- A working part that destroys context 1, at a stage. -/
def upDestroy (stage : Nat) : State := { up with
  ctxs := [(1, { wCtx with st := .destroying, stage := stage })]
  rg := { jobs := [(0, { st := .running, code := Cmd.CTX_DESTROY, ctx := some 1 })] } }

theorem witness_ContextsDrainAndEnd :
    ((ctxOf (withCtx up { wCtx with st := .fenced }) 1).st = .fenced ∧ ctxInFlight (withCtx up { wCtx with st := .fenced }) 1 = 0) ∧
    (destroyJobs (upDestroy 2) 1 ≠ [] ∧ rgRunning (upDestroy 2) = true ∧ (ctxOf (upDestroy 2) 1).st = .destroying ∧ (ctxOf (upDestroy 2) 1).stage = 2 ∧
      ctxDrained (upDestroy 2) 1 = true) ∧
    (destroyJobs (upDestroy 3) 1 ≠ [] ∧ rgRunning (upDestroy 3) = true ∧ (ctxOf (upDestroy 3) 1).stage = 3 ∧ crWaits (upDestroy 3) 1 = false) ∧
    (destroyJobs (upDestroy 4) 1 ≠ [] ∧ rgRunning (upDestroy 4) = true ∧ (ctxOf (upDestroy 4) 1).stage = 4 ∧ ∀ k ∈ (upDestroy 4).pl.claims, k.ctx ≠ 1) ∧
    (upMgr.nl.member = true ∧ upMgr.nl.mgrReach = true ∧ upMgr.er.rmFailed = false ∧ (mboxOf upMgr 16).st = .idle) ∧ up.nl.member = false := by
  decide +kernel

/-- A working part with a translation under way, and its context's fault record waiting. -/
def upMiss (st : MissSt) : State := { up with
  tu := { misses := [{ stream := 3, pasid := 5, page := 0x77, va := 0x77000, ctx := 1, eng := 0, ring := some 0, needR := true, needW := false, atomic := false, st := st }]
          recs := [{ va := 0x9000, ctx := 1, eng := 0, stream := 9, access := 0, cause := 1, pasid := 5, time := 0, ring := none }] } }

theorem witness_TranslationsAreMade :
    ((ctxOf up 1).st ≠ .free ∧ fnFenced up Fun.TRANSLATION = false ∧ pageRes up { stream := 3, ctx := 1, eng := 0 } (2 ^ 24 / 4096) true = .miss ∧
      pageRes up { stream := 3, ctx := 1, eng := 0 } ((2 ^ 24 - 1) / 4096) true = .ok (2 ^ 24 - 4096)) ∧
    ((∃ m, missOf (upMiss .sent1) 3 5 0x77 = some m ∧ m.st = .sent1) ∧ ∃ m, missOf (upMiss .sent2) 3 5 0x77 = some m ∧ m.st = .sent2) ∧
    (priOk (upMiss .needPage) = true ∧ ((upMiss .needPage).tu.misses.find? (fun m => m.st == .needPage)).isSome = true ∧
      priOut (upMiss .needPage) < Nat.min 512 (upMiss .needPage).hl.priAlloc) ∧
    (∃ m, missOf (upMiss .sentPri) 3 5 0x77 = some m ∧ m.st = .sentPri) ∧
    (((upMiss .sent1).tu.recs.find? (fun r => r.ctx == 1)).isSome = true ∧ ringFull (upMiss .sent1) 1 = false) ∧
    Reaches up Reg.TU_FRING_HEAD ∧ Reaches up Reg.TU_FRING_CFG ∧ Reaches up Reg.TU_CTRL ∧
    ((6 : Nat) ≤ bits (6 : Word) 0 4 ∧ bits (14 : Word) 0 4 ≤ 14 ∧ ringEmpty up 1 = true ∧ 6 ≠ (ctxOf up 1).fLog2 ∧ (resizeRing up 1 6).isSome = true ∧
      (resizeRing up 1 14).isNone = true) := by
  refine ⟨?_, ⟨⟨_, rfl, ?_⟩, ⟨_, rfl, ?_⟩⟩, ?_, ⟨_, rfl, ?_⟩, ?_, reaches_of ?_, reaches_of ?_, reaches_of ?_, ?_⟩ <;> decide +kernel

/-- A working part with a power cap of 100 W and a die at a temperature. -/
def upHot (t : Int) : State := { up with regs := (Reg.GLOBAL_PWR_CAP, 100) :: up.regs, pk := { temps := [(47, t)] } }

theorem witness_PowerAndThermalStatesFollow :
    (isDue up 7 10000 = true ∧ rbit up Reg.GLOBAL_PINS 1 = false) ∧ (isDue (upHot 25) 8 100000 = true ∧ 0 < 8 * capWatts (upHot 25)) ∧
    (isDue (upHot 120) 9 100000 = true ∧ (upHot 120).bu.tripped = false ∧ 120 ≤ dieTemp (upHot 120)) ∧
    (dieTemp (upHot 119) < 120 ∧ stackTemp (upHot 119) < 105 ∧ (rfld (upHot 119) Reg.GLOBAL_THERM_CFG 8 8 : Int) ≤ dieTemp (upHot 119)) ∧
    (dieTemp (upHot 25) < (rfld (upHot 25) Reg.GLOBAL_THERM_CFG 8 8 : Int) - 3 ∧ stackTemp (upHot 25) < 92) ∧ Reaches up Reg.GLOBAL_THERM_CFG := by
  refine ⟨?_, ?_, ?_, ?_, ?_, reaches_of ?_⟩ <;> decide +kernel

/-- A part held in reset with its pins free to start, and one held by a trip. -/
def upHeld : State := { up with bu := { pos := .held, backup := { lost := false } } }
def upTrip : State := { up with bu := { pos := .held, tripped := true } }

theorem witness_ResetsClearTheDevice :
    (rbit up Reg.GLOBAL_PINS 1 = false ∧ (549 : Nat) < [550, 820, 1030, 1650].getD 0 0 ∧ 1649 < [550, 820, 1030, 1650].getD 3 0 ∧
      [550, 820, 1030, 1650].getD 3 0 ≤ 1650) ∧
    (({ up with er := { wantReset := true } } : State).er.wantReset = true ∧ ({ up with er := { wantReset := true } } : State).er.rmFailed = false) ∧
    ((sensors up).contains 0 = true ∧ (sensors up).contains 51 = true ∧ (sensors up).contains 52 = false ∧ up.bu.tripped = false) ∧
    (upHeld.bu.pos = .held ∧ mayStart upHeld = true ∧ upTrip.bu.pos = .held ∧ mayStart upTrip = false ∧ upTrip.bu.tripped = true ∧
      ∀ i ∈ sensors upTrip, tempOf upTrip i ≤ 90) := by decide +kernel

/-- A part whose bring-up stands at a step. -/
def upStep (p : BuAt) : State := { up with
  bu := { pos := p, backup := { lost := false, copyA := { valid := true } } }
  mem := { nvm := bytesAt 0 nvmOpt ++ bytesAt 0x10000 fwImage }
  regs := (Reg.RS_OPT 2, 0x10000) :: up.regs }

theorem upStep_options (p : BuAt) : optionBytes (upStep p) = some nvmOpt := by
  have m : memRd (upStep p).mem.nvm 0 256 = nvmOpt :=
    show memRd (upStep .held).mem.nvm 0 256 = nvmOpt from by decide +kernel
  simp only [optionBytes, m]
  exact if_pos ⟨by decide +kernel, by decide +kernel, nvmOpt_crc⟩

theorem upStep_image (p : BuAt) : chooseImage (upStep p) = some (false, false, fwImage ++ List.replicate 16 0) := by
  have h : memRd (upStep p).mem.nvm 0x10000 16 = fwImage :=
    show memRd (upStep .held).mem.nvm 0x10000 16 = fwImage from by decide +kernel
  have b : memRd (upStep p).mem.nvm (0x10000 + 16) 16 = List.replicate 16 0 :=
    show memRd (upStep .held).mem.nvm (0x10000 + 16) 16 = List.replicate 16 0 from by decide +kernel
  have n : leAt fwImage 4 4 = 16 := by decide +kernel
  have i : imageAt (upStep p).mem.nvm 0x10000 = some (fwImage ++ List.replicate 16 0) := by
    simp only [imageAt, h, n, b]
    rw [if_neg (by decide +kernel), if_pos (fwImage_crc.trans (by decide +kernel))]
  have a : (optBootAltEn (upStep p) && rbit (upStep p) Reg.RS_STATUS 9) = false := by
    show (optBootAltEn (upStep .held) && rbit (upStep .held) Reg.RS_STATUS 9) = false
    decide +kernel
  have o : optFld (upStep p) 2 0 32 = 0x10000 := by
    show optFld (upStep .held) 2 0 32 = 0x10000
    decide +kernel
  simp [chooseImage, a, o, i]

theorem witness_BringUpTakesItsSteps :
    ((∃ b, optionBytes (upStep (.step 1)) = some b) ∧ ∃ x, chooseImage (upStep (.step 5)) = some x) ∧
    (mayStart (upStep (.step 1)) = true ∧ (upStep (.step 1)).bu.pos = .step 1 ∧
      optionBytes upHeld = none ∧ chooseCopy (upStep (.step 1)).bu.backup = some false ∧ (upStep (.step 1)).bu.backup.lost = false ∧
      State.reset.bu.backup.lost = true ∧ upHeld.bu.uncounted = true ∧ chooseCopy upHeld.bu.backup = none) ∧
    (upStep (.step 2)).bu.pos = .step 2 ∧ ((upStep (.step 30)).bu.pos = .step 30 ∧ (upStep (.step 30)).bu.flr = false) ∧
    (upStep (.step 4)).bu.pos = .step 4 ∧ ((upStep (.step 5)).bu.pos = .step 5 ∧ chooseImage upHeld = none) ∧
    ((upStep (.fn 18)).bu.pos = .fn 18 ∧ nextFn (upStep (.fn 18)) 18 = 19 ∧
      (∀ k, k < 19 → k ≠ 18 → present (upStep (.fn 18)) k = true → (fnOf (upStep (.fn 18)) k).ready = true) ∧ nextFn (upStep (.fn 5)) 5 = 6) :=
  ⟨⟨⟨_, upStep_options _⟩, ⟨_, upStep_image _⟩⟩, by decide +kernel⟩

theorem witness_RetainedStateIsWritten :
    (Reaches up Reg.RS_NVM_CTRL ∧ ({ up with bu := { nvmOp := some (true, 0, []) } } : State).bu.nvmOp ≠ none ∧ rbit up Reg.GLOBAL_PINS 3 = true ∧
      rbit { up with regs := [(Reg.GLOBAL_PINS, 0x75), (Reg.HL_LINK, 1)] } Reg.GLOBAL_PINS 3 = false ∧ up.bu.nvmOp = none) ∧
    Reaches { up with regs := [(Reg.GLOBAL_PINS, 0x75), (Reg.HL_LINK, 1)] } Reg.RS_NVM_CTRL ∧
    (Reaches up Reg.BK_CTRL ∧ bits (0x434C0001 : Word) 16 16 = 0x434C ∧ bit (0x434C0001 : Word) 0 = true) ∧ Reaches up Reg.BK_RTC_SET_LO ∧
    (({ up with bu := { dirty := true } } : State).bu.dirty = true ∧ rgRunning { up with bu := { dirty := true } } = true ∧ up.bu.dirty = false) ∧
    (Reaches up Reg.RS_FORGET ∧ bits (0x4647001F : Word) 16 16 = 0x4647 ∧ gwIdle up = true ∧ gwIdle { up with gw := { run := some 0 } } = false) := by
  refine ⟨⟨reaches_of ?_, ?_⟩, reaches_of ?_, ⟨reaches_of ?_, ?_⟩, reaches_of ?_, ?_, reaches_of ?_, ?_⟩ <;> decide +kernel

/-- A working part with function 10 in a state of Table ER-2. -/
def upFn (st : FnSt) : State := { up with fns := (10, { st := st }) :: up.fns, bu := { up.bu with restoring := [10] } }

theorem witness_FaultsAreConfined :
    (fnNotReady up 18 = false ∧ present up 18 = true ∧ (fnOf up 18).st = .up ∧ fnNotReady up 0 = false ∧ present up 0 = true) ∧
    ((fnOf (upFn .fencing) 10).st = .fencing ∧ fnInFlight (upFn .fencing) 10 = 0 ∧ (upFn .fencing).bu.restoring.contains 10 = true ∧
      fnInFlight (withDesc (upFn .fencing) (wDesc 0 Op.NOP [])) 10 ≠ 0) ∧
    ((fnOf (upFn .restoring) 10).st = .restoring ∧ testJob (upFn .restoring) 10 = none) ∧
    (up.er.rmFailed = false ∧ rbit { up with regs := [(Reg.RM_CFG, 0)] } Reg.RM_CFG 0 = false) ∧
    (96 * 2 ^ 30 - 1 < Config.memBytes up.fuse.variant ∧ (96 * 2 ^ 30 - 1) / 128 ∉ up.mem.poison ∧
      5 ∈ ({ up with mem := { poison := [5] } } : State).mem.poison) := by decide +kernel

/-- A working part whose Regulator recovers: from a lockstep mismatch, its image not yet chosen, or chosen. -/
def upRecov (image : Option Nat) : State := { up with
  er := { recov := some { cause := 1, frozenAt := 0, fencedCtx := 0, image := image } }
  mem := { dev := bytesAt 0x00800000 fwImage } }

theorem upRecov_copy : copyImage (upRecov none) = some (fwImage ++ List.replicate 16 0) := by
  have h : memRd (upRecov none).mem.dev 0x00800000 16 = fwImage := by decide +kernel
  have b : memRd (upRecov none).mem.dev (0x00800000 + 16) 16 = List.replicate 16 0 := by decide +kernel
  have n : leAt fwImage 4 4 = 16 := by decide +kernel
  have i : imageAt (upRecov none).mem.dev 0x00800000 = some (fwImage ++ List.replicate 16 0) := by
    simp only [imageAt, h, n, b]
    rw [if_neg (by decide +kernel), if_pos (fwImage_crc.trans (by decide +kernel))]
  rw [copyImage, i]; rfl

theorem witness_RegulatorRecovers :
    (∃ b, copyImage (upRecov none) = some b) ∧
    (rgAlive up = true ∧ up.er.rmFailed = false ∧ up.er.recov = none ∧ (fnOf up Fun.REGULATOR).st = .up ∧
      up.er.retiredAt + 100000000 ≤ up.time.dev ∧ unchecked up = false) ∧
    ((fnOf up Fun.REMONTOIRE).ready = true ∧ isDue up 10 50000000 = true) ∧
    ((upRecov none).er.recov = some { cause := 1, frozenAt := 0, fencedCtx := 0 } ∧ (upRecov none).er.rmFailed = false) ∧
    (upRecov (some 0)).er.recov = some { cause := 1, frozenAt := 0, fencedCtx := 0, image := some 0 } ∧
    (∃ t, ({ up with er := { copiedAt := some (3600000000000 - 999999, 3) } } : State).er.copiedAt = some (t, 3) ∧ up.time.dev < t + 1000000) :=
  ⟨⟨_, upRecov_copy⟩, by decide +kernel, by decide +kernel, by decide +kernel, by decide +kernel, _, rfl, by decide +kernel⟩

/-- A working part that erases its permanent store for mailbox 0. -/
def upErase : State := askOf { up with ch := { erasing := some 0, eraseMask := 1, circ := [{}] } } 0 Cmd.CHRONO_CLEAR [1]

theorem witness_ChronographKeepsRecords :
    (codeListed 0x10 = true ∧ codeListed Chr.BRINGUP = true ∧ (fnOf up Fun.CHRONOGRAPH).ready = true ∧
      (refill (tget {} up.ch.buckets 0x10) (calTime up)).rate ≠ 0 ∧ (refill (tget {} up.ch.buckets 0x10) (calTime up)).rate ≠ 0xFFFFFFFF ∧
      1000000000 ≤ (refill (tget {} up.ch.buckets 0x10) (calTime up)).nanoTokens ∧ (refill (tget {} up.ch.buckets 0x10) (calTime up)).pending = 0) ∧
    (refill { rate := 0 } 0).rate = 0 ∧ ((fnOf State.reset Fun.CHRONOGRAPH).ready = false ∧ State.reset.ch.held.length < 16) ∧
    (({ up with ch := { perm := [{}] } } : State).ch.erasing = none ∧ ({ up with ch := { perm := [{}] } } : State).ch.durable < ({ up with ch := { perm := [{}] } } : State).ch.perm.length) ∧
    (upErase.ch.erasing = some 0 ∧ Asked upErase 0 Cmd.CHRONO_CLEAR (reqWords Cmd.CHRONO_CLEAR [1]) ∧ natBits upErase.ch.eraseMask 0 1 = 1) := by
  refine ⟨?_, ?_, ?_, ?_, ?_, asked_of ?_, ?_⟩ <;> decide +kernel

theorem witness_LinkComesUpAndGoesDown :
    ((fnOf up Fun.REMONTOIRE).ready = true ∧ (fnOf up Fun.REGULATOR).ready = true ∧ (fnOf State.reset Fun.REMONTOIRE).ready = false) ∧
    (hostUp up = true ∧ up.hl.cfgReady = true ∧ up.bu.pos = .done) ∧
    (hostUp (upStep (.fn 5)) = true ∧ (upStep (.fn 5)).hl.cfgReady = true ∧ (upStep (.fn 5)).bu.pos ≠ .done ∧ (upStep (.fn 5)).bu.pos ≠ .step 6 ∧
      (upStep (.fn 5)).bu.flr = false ∧ mayStart (upStep (.fn 5)) = true) := by decide +kernel

/-- A working part with line 0 of device memory recorded for the host as Modified, and its lower half mapped by decoder 0. -/
def upHost : State := { up with hl := { up.hl with sf := [{ line := 0, modified := true }], hdm := [(0, { committed := true, base := 2 ^ 40, size := 2 ^ 28 })] } }

theorem witness_HostReachesDeviceMemory :
    (up.hl.cfgReady = true ∧ hostUp up = true ∧ (2 : Nat) ^ 37 = 2 ^ (28 + 9)) ∧
    (Reaches up Reg.HL_BAR4_SLIDE ∧ bits (383 : Word) 0 10 * up.hl.bar4Size < Config.memBytes up.fuse.variant ∧
      Config.memBytes up.fuse.variant ≤ bits (384 : Word) 0 10 * up.hl.bar4Size) ∧
    (barsOn up = true ∧ (2 ^ 28 - 8) + 8 ≤ up.hl.bar4Size ∧ (2 ^ 28 - 8) + rfld up Reg.HL_BAR4_SLIDE 0 10 * up.hl.bar4Size + 8 ≤ Config.memBytes up.fuse.variant ∧
      snoopLines up (2 ^ 28 - 8) 8 false = [] ∧ snoopLines up (2 ^ 28 - 8) 8 true = [] ∧ (2 ^ 28 - 8) % 8 = 0) ∧
    (barsOn upHost = true ∧ snoopLines upHost 0 8 false ≠ [] ∧ snoopLines upHost 0 8 true ≠ []) := by
  refine ⟨?_, ⟨reaches_of ?_, ?_⟩, ?_, ?_⟩ <;> decide +kernel

/-- Vector 5 with its level up, masked or not, and pending or not. -/
def upVec (masked pend : Bool) : State := { up with
  regs := [(Reg.CH_IRQ, 1), (Reg.CH_IRQ_EN, 1)] ++ up.regs, hl := { up.hl with vecs := [(5, { masked := masked, pend := pend, again := true })] } }

theorem witness_HostMemoryProtocolIsKept :
    (hostUp up = true ∧ up.hl.cfgReady = true ∧ ((2 : Nat) ^ 40 % 2 ^ 28 = 0 ∧ 2 ^ 28 % 2 ^ 28 = 0 ∧
      rfld up (Reg.HL_HDM_DPA 1) 0 9 * 2 ^ 28 + 2 ^ 28 ≤ Config.memBytes up.fuse.variant ∧ (tget {} up.hl.hdm 0).committed = false)) ∧
    (∃ b o, hdmOf upHost (2 ^ 40 + 2 ^ 28 - 1) = some (b, o) ∧ (b + o) / 64 * 64 + 64 ≤ Config.memBytes upHost.fuse.variant ∧ upHost.hl.sf.length < 262144 ∧
      ∀ x ∈ upHost.hl.snoops, x.line ≠ (b + o) / 64 * 64 / 128) ∧
    ((∃ f ∈ upHost.hl.sf, f.line = 0) ∧ (∀ f ∈ up.hl.sf, f.line ≠ 0)) ∧
    (hostUp { upHost with hl := { upHost.hl with snoops := [{ line := 0, write := some (0, [1]) }] } } = true ∧
      ({ upHost.hl with snoops := [{ line := 0, write := some (0, [1]) }] } : Hl).snoops = [{ line := 0, write := some (0, [1]) }]) ∧
    (vecLevel up 0 = false ∧ vecLevel up 7 = false ∧ vecLevel (upVec true false) 5 = true ∧ (vecOf (upVec true false) 5).masked = true ∧
      (vecOf (upVec true false) 5).again = true ∧ (vecOf (upVec false false) 5).masked = false ∧ (upVec false false).hl.busMaster = true ∧
      hostUp (upVec false false) = true ∧ (vecOf (upVec true true) 5).pend = true) ∧ Reaches up (Reg.HL_MSIX (4 * 7 + 3)) := by
  refine ⟨?_, ⟨_, _, rfl, ?_⟩, ?_, ?_, ?_, reaches_of ?_⟩ <;> decide +kernel

/-- A member of a domain whose port 0 leads to device 1, with packets received and read data awaited. -/
def upPort : State := { upMgr with nl := { upMgr.nl with
  ports := [(0, { up := true, waves := 4, peer := 1 })]
  inbox := [(0, { vc := 0, src := 1, dst := 2, hop := 62, body := .read 1 0 8 }), (0, { vc := 0, src := 1, dst := 0, body := .write 2 (2 ^ 20) [7] }),
            (0, { vc := 1, src := 1, dst := 0, body := .response 3 0 [9] })]
  active := [(1, 0), (2, 0)]
  reqs := [{ tag := 3, dev := 1, off := 0, len := 1, write := false, stream := 0, ctx := 1, page := 0 }] } }

theorem witness_PortsAndPacketsMove :
    (7 < Config.nlPorts upMgr.fuse.variant ∧ upMgr.nl.roleOpt ≠ 0 ∧ (portOf upMgr 7).up = false ∧ fnNotReady upMgr Fun.FABRIC = false) ∧
    ((portOf upPort 0).up = true ∧ (portOf upPort 0).out = [] ∧ 1 ≤ (portOf upPort 0).credits.getD 3 0 ∧
      (portOf upPort 0).lastBeat + 100000 ≤ upPort.time.dev ∧ (portOf upPort 0).lastRx + 1000000 ≤ upPort.time.dev ∧
      (portOf upPort 0).credits.length = 4 ∧ (portOf upPort 0).replays < 8 ∧ (portOf upMgr 0).up = false) ∧
    (natBits upPort.nl.members 1 1 = 1 ∧ 1 ≠ devNum upPort ∧ (1, 0) ∈ upPort.nl.active) ∧
    (∃ x, upPort.nl.inbox.find? (fun x => x.1 == 0 && x.2.dst != devNum upPort) = some x ∧ x.2.hop < 63 ∧
      tfind (if x.2.epoch = upPort.nl.epoch.toNat % 2 then upPort.nl.active else upPort.nl.idle) x.2.dst = some 0 ∧
      pktFlits { x.2 with hop := x.2.hop + 1 } ≤ (portOf upPort 0).credits.getD x.2.vc 0) ∧
    (∃ x, upPort.nl.inbox.find? (fun x => x.2.dst == devNum upPort && x.2.vc == 0) = some x ∧ reqOf x.2.body = some (2, 2 ^ 20, 1, true) ∧
      upPort.nl.remoteFenced = false ∧ 2 ^ 20 + 1 ≤ Config.memBytes upPort.fuse.variant ∧ snoopLines upPort (2 ^ 20) 1 true = []) ∧
    (∃ x q, upPort.nl.inbox.find? (fun x => x.2.dst == devNum upPort && x.2.vc == 1) = some x ∧ x.2.body = .response 3 0 [9] ∧
      upPort.nl.reqs.find? (fun q => q.tag == 3 && q.dev == x.2.src) = some q) := by
  refine ⟨?_, ?_, ?_, ⟨_, rfl, ?_⟩, ⟨_, rfl, ?_⟩, ⟨_, _, rfl, ?_, rfl⟩⟩ <;> decide +kernel

/-- The manager with an enumeration of three devices open, with an epoch switch under way, and with a vote under way. -/
def upEnum : State := { upPort with nl := { upPort.nl with enumJob := some 0 }, rg := { jobs := [(0, { st := .running, code := Cmd.FAB_ENUMERATE, total := 3 })] } }
def upSwitch : State := { upPort with nl := { upPort.nl with switching := some { flows := [(1, 0), (1, 1)], job := none, awaiting := [0, 1] } } }
def upVote : State := { upPort with nl := { upPort.nl with probing := some 0, votes := [0, 1] } }

theorem witness_DomainsFormAndVote :
    (upPort.nl.roleOpt ≠ 0 ∧ upPort.nl.enumJob = none ∧ upPort.nl.enumSeen ≠ some 4) ∧
    (upEnum.nl.enumJob = some 0 ∧ (∀ a ∈ upEnum.nl.answered, a.path ≠ [0]) ∧ upEnum.nl.answered.length + 1 < (jobOf upEnum 0).total ∧ upEnum.nl.rejoin = false) ∧
    (up.nl.member = false ∧ upPort.nl.member = true ∧ upPort.nl.switching = none ∧
      ∃ r ∈ upPort.nl.active, natBits upPort.nl.members r.1 1 = 1 ∧ natBits upPort.nl.lost r.1 1 = 0) ∧
    (tfind upPort.nl.active 1 = some 0 ∧ (portOf upPort 0).up = true ∧ (portOf upPort 0).out = [] ∧ 1 ≤ (portOf upPort 0).credits.getD 3 0) ∧
    (∃ w, upSwitch.nl.switching = some w ∧ (1, 0) ∈ w.flows ∧ (∃ f ∈ w.flows, f ≠ (1, 0)) ∧ (1, 2) ∉ w.flows ∧ upSwitch.nl.acting = 1 ∧ 1 ∈ w.awaiting) ∧
    (natBits 2 1 1 = 1 ∧ (1, 0) ∈ upPort.nl.active ∧ 1 ≠ devNum upPort ∧ natBits upPort.nl.members 1 1 = 1) ∧
    (upVote.nl.probing = some 0 ∧ 0 + 1000000 ≤ upVote.time.dev ∧ upVote.nl.configured < 2 * upVote.nl.votes.length ∧ 5 ∉ upVote.nl.votes) ∧
    (Reaches upPort Reg.NL_MC_CTRL ∧ bit (0x101 : Word) 8 = true ∧ upPort.nl.acting = 1 ∧ upPort.nl.mcTarget = none ∧ natBits upPort.nl.members (bits (0x101 : Word) 0 6) 1 = 1) := by
  refine ⟨?_, ?_, ?_, ?_, ⟨_, rfl, ?_⟩, ?_, ?_, reaches_of ?_, ?_⟩ <;> decide +kernel

/-! ### Pinion instructions: a beat with lanes 0 and 1 active stands at a word in host memory -/

/-- A word of format A, M, I or B, from its opcode and fields (Table PN-8). -/
def wordA (op dst s0 s1 s2 ty mod : Nat) : Nat := op * 2 ^ 56 + dst * 2 ^ 44 + s0 * 2 ^ 36 + s1 * 2 ^ 28 + s2 * 2 ^ 20 + ty * 2 ^ 16 + mod
def wordM (op dst s0 width flags off : Nat) : Nat := op * 2 ^ 56 + dst * 2 ^ 44 + s0 * 2 ^ 36 + width * 2 ^ 32 + flags * 2 ^ 24 + off
def wordB (op cond target : Nat) : Nat := op * 2 ^ 56 + cond * 2 ^ 50 + target

/-- The values of registers in lanes 0 and 1. -/
def regTab (rs : List (Nat × Nat × Nat)) : Tbl Word := rs.flatMap (fun r => [(32 * r.1, BitVec.ofNat 32 r.2.1), (32 * r.1 + 1, BitVec.ofNat 32 r.2.2)])

/-- The beat: register pair R4 holds 0x20000 and 0x20008, R6 a pair of 5 and 6, R8 and R9 small numbers. -/
def wBeat : Beat := { active := 3, regs := regTab [(4, 0x20000, 0x20008), (5, 0, 0), (6, 5, 6), (7, 0, 0), (8, 3, 4), (9, 2 ^ 30, 2 ^ 31)] }

/-- A working part with that beat in workgroup 1 and the word at its place. -/
def upIns (word : Nat) (b : Beat := wBeat) : State := { up with
  mem := { host := bytesAt 0x10000 (toLe word 8) }, pn := { up.pn with wgs := [(1, wWg 0x10000 b)] } }

/-- The beat issues `op`, and what it issues meets `p`. -/
def fetchB (s : State) (op : Nat) (p : State → Here → Bool) : Bool :=
  match fetchIns s 1 0 op with
  | .here s1 h => p s1 h
  | .no _ => false

theorem fetch_of {s : State} {op : Nat} {p : State → Here → Bool} (hp : fetchB s op p = true) :
    ∃ s1 h, fetchIns s 1 0 op = .here s1 h ∧ p s1 h = true := by
  unfold fetchB at hp
  split at hp
  · exact ⟨_, _, ‹_›, hp⟩
  · cases hp

/-- The lanes' accesses are all decided, and what they leave meets `p`. -/
def goB (x : LaneMem) (p : State → List Nat → Bool) : Bool :=
  match x with
  | .go s _ bad => p s bad
  | .wait _ => false

/-- Every opcode of a list issues from its word, with the registers it names below VREGS. -/
def issueAll (ops : List Nat) : Bool :=
  ops.all (fun op => fetchB (upIns (wordA op 8 6 8 4 0 0)) op (fun _ h => decide (h.i.dst < h.w.vregs) && decide (h.i.s0 < h.w.vregs) &&
    decide (h.i.s1 < h.w.vregs) && decide (h.i.s2 < h.w.vregs) && decide (h.g = 3)))

theorem issueAll_of {ops : List Nat} (hi : issueAll ops = true) (op : Nat) (ho : op ∈ ops) :
    ∃ s s1 h, fetchIns s 1 0 op = .here s1 h ∧ h.i.dst < h.w.vregs ∧ h.i.s0 < h.w.vregs ∧ h.i.s1 < h.w.vregs ∧ h.i.s2 < h.w.vregs ∧ h.g = 3 := by
  obtain ⟨s1, h, e, p⟩ := fetch_of (List.all_eq_true.mp hi op ho)
  simp at p
  exact ⟨_, s1, h, e, p.1.1.1.1, p.1.1.1.2, p.1.1.2, p.1.2, p.2⟩

theorem witness_FloatArithmeticWritesDst :
    ∀ op ∈ [0x00, 0x01, 0x02, 0x03, 0x04, 0x16, 0x17, 0x18, 0x19, 0x1A, 0x1B, 0x1C],
    ∃ s s1 h, fetchIns s 1 0 op = .here s1 h ∧ h.i.dst < h.w.vregs ∧ h.i.s0 < h.w.vregs ∧ h.i.s1 < h.w.vregs ∧ h.i.s2 < h.w.vregs ∧ h.g = 3 :=
  issueAll_of (by decide +kernel)

theorem witness_ApproximationsWriteDst :
    ∀ op ∈ [0x10, 0x11, 0x12, 0x13, 0x14, 0x15],
    ∃ s s1 h, fetchIns s 1 0 op = .here s1 h ∧ h.i.dst < h.w.vregs ∧ h.i.s0 < h.w.vregs ∧ h.i.s1 < h.w.vregs ∧ h.i.s2 < h.w.vregs ∧ h.g = 3 :=
  issueAll_of (by decide +kernel)

theorem witness_IntegerAndLogicWriteDst :
    ∀ op ∈ [0x20, 0x21, 0x22, 0x23, 0x24, 0x25, 0x26, 0x27, 0x28, 0x29, 0x2A, 0x2D, 0x2E, 0x2F, 0x30, 0x31, 0x32, 0x33, 0x34, 0x35, 0x36, 0x37],
    ∃ s s1 h, fetchIns s 1 0 op = .here s1 h ∧ h.i.dst < h.w.vregs ∧ h.i.s0 < h.w.vregs ∧ h.i.s1 < h.w.vregs ∧ h.i.s2 < h.w.vregs ∧ h.g = 3 :=
  issueAll_of (by decide +kernel)

theorem witness_MovesAndConversionsRun :
    (∀ op ∈ [0x40, 0x41, 0x42, 0x43, 0x44, 0x45, 0x46, 0x47, 0x76],
      ∃ s s1 h, fetchIns s 1 0 op = .here s1 h ∧ h.i.dst < h.w.vregs ∧ h.i.s0 < h.w.vregs ∧ h.i.s1 < h.w.vregs ∧ h.i.s2 < h.w.vregs ∧ h.g = 3) ∧
    (∃ s1 h, fetchIns (upIns (wordA 0x40 8 6 0 0 1 0x400)) 1 0 0x40 = .here s1 h ∧ (fmtOk h.i.ty && fmtOk (natBits h.i.mod 9 4)) = true) ∧
    (∃ s1 h, fetchIns (upIns (wordA 0x40 8 6 0 0 15 0)) 1 0 0x40 = .here s1 h ∧ (!fmtOk h.i.ty) = true) ∧
    (∃ s1 h, fetchIns (upIns (wordA 0x45 8 0 0 1 2 0)) 1 0 0x45 = .here s1 h ∧ decide (h.i.ty ≤ 2) = true) ∧
    (∃ s1 h, fetchIns (upIns (wordA 0x45 8 0 0 1 3 0)) 1 0 0x45 = .here s1 h ∧ decide (2 < h.i.ty) = true) :=
  ⟨issueAll_of (by decide +kernel), fetch_of (by decide +kernel), fetch_of (by decide +kernel), fetch_of (by decide +kernel), fetch_of (by decide +kernel)⟩

theorem witness_PredicatesAreDecided :
    (∀ op ∈ [0x05, 0x2B, 0x2C, 0x49, 0x48, 0x1D],
      ∃ s s1 h, fetchIns s 1 0 op = .here s1 h ∧ h.i.dst < h.w.vregs ∧ h.i.s0 < h.w.vregs ∧ h.i.s1 < h.w.vregs ∧ h.i.s2 < h.w.vregs ∧ h.g = 3) ∧
    (∃ s1 h, fetchIns (upIns (wordA 0x05 1 6 8 0 0 0)) 1 0 0x05 = .here s1 h ∧ condOk h.i.ty = true) ∧
    (∃ s1 h, fetchIns (upIns (wordA 0x48 1 6 0 0 1 0)) 1 0 0x48 = .here s1 h ∧ (h.i.ty == 1) = true) ∧
    (∃ s1 h, fetchIns (upIns (wordA 0x48 8 1 0 0 0 0)) 1 0 0x48 = .here s1 h ∧ (h.i.ty == 0) = true) ∧
    (∃ s1 h, fetchIns (upIns (wordA 0x1D 6 6 8 0 0 0)) 1 0 0x1D = .here s1 h ∧ (condOk h.i.ty && h.i.dst % 2 == 0) = true) :=
  ⟨issueAll_of (by decide +kernel), fetch_of (by decide +kernel), fetch_of (by decide +kernel), fetch_of (by decide +kernel), fetch_of (by decide +kernel)⟩

theorem witness_LoadsReadMemory :
    (∃ s1 h, fetchIns (upIns (wordM 0x50 6 4 3 0 0)) 1 0 0x50 = .here s1 h ∧ (h.runPairOk &&
      goB (laneMem s1 (loadWho h.w) ((lanesOf h.g).map (fun l => (l, { va := h.va l, len := widthBytes h.i.width, kind := 0 })))) (fun _ bad => bad == [])) = true) ∧
    (∃ s1 h, fetchIns (upIns (wordM 0x54 6 8 2 0 0)) 1 0 0x54 = .here s1 h ∧ (h.runRegOk && decide (h.w.const ≠ 0) &&
      goB (laneMem s1 (loadWho h.w) ((lanesOf h.g).map (fun l => (l, { va := h.constVa l, len := widthBytes h.i.width, kind := 0 })))) (fun _ bad => bad == [])) = true) ∧
    (∃ s1 h, fetchIns { upIns (wordM 0x54 6 8 2 0 0) with pn := { up.pn with wgs := [(1, { wWg 0x10000 wBeat with const := 0 })] } } 1 0 0x54 = .here s1 h ∧
      (h.runRegOk && h.w.const == 0) = true) :=
  ⟨fetch_of (by decide +kernel), fetch_of (by decide +kernel), fetch_of (by decide +kernel)⟩

theorem witness_LocalAndPlateAccessesRun :
    ∀ op ∈ [0x52, 0x53, 0x58, 0x59], ∃ s1 h, fetchIns (upIns (wordM op 6 8 2 0 0)) 1 0 op = .here s1 h ∧ h.runRegOk = true := by
  intro op ho
  simp at ho
  rcases ho with rfl | rfl | rfl | rfl <;> exact fetch_of (by decide +kernel)

theorem witness_StoreWritesMemory :
    ∃ s1 h, fetchIns (upIns (wordM 0x51 6 4 3 0 0)) 1 0 0x51 = .here s1 h ∧ (h.runPairOk &&
      goB (laneMem s1 (storeWho h.w) (h.live.map (fun l => (l, { va := h.va l, len := widthBytes h.i.width, kind := 1 })))) (fun _ bad => bad == [])) = true :=
  fetch_of (by decide +kernel)

theorem witness_AtomicsReadModifyWrite :
    (∃ s1 h, fetchIns (upIns (wordM 0x55 6 4 2 0 0)) 1 0 0x55 = .here s1 h ∧ (h.atomOk 2 &&
      match laneMem s1 (storeWho h.w) ((h.live.filter (fun l => h.va l % widthBytes h.i.width == 0)).map
        (fun l => (l, { va := h.va l, len := widthBytes h.i.width, kind := 1 }))) with
      | .go s2 m bad => bad == [] && (h.live.filter (fun l => h.va l % widthBytes h.i.width == 0)).all (fun l => (remoteOf s2 m (h.va l)).isNone)
      | .wait _ => false) = true) ∧
    (∃ s1 h, fetchIns (upIns (wordM 0x56 6 8 2 0 0) { wBeat with regs := regTab [(6, 5, 6), (7, 0, 0), (8, 4, 508)] }) 1 0 0x56 = .here s1 h ∧ (h.atomOk 1 &&
      h.live.all (fun l => decide (h.addr32 l % widthBytes h.i.width = 0) && decide (h.addr32 l + widthBytes h.i.width ≤ 512 * h.w.loc))) = true) :=
  ⟨fetch_of (by decide +kernel), fetch_of (by decide +kernel)⟩

/-- A beat that submits on ring 1 from the descriptors at 0x20000 and 0x20040. -/
def upRsub : State := upIns (wordM 0x5C 8 4 0 0 1) { wBeat with regs := regTab [(4, 0x20000, 0x20040), (5, 0, 0)] }

theorem witness_RsubSubmits :
    ∃ s1 h, fetchIns upRsub 1 0 0x5C = .here s1 h ∧ (decide (h.i.dst < h.w.vregs) && h.i.s0 % 2 == 0 && decide (h.i.s0 + 2 ≤ h.w.vregs) &&
      match ringOf s1 (h.i.offset % 1024) with
      | none => false
      | some x => x.ctx == h.w.ctx && x.mode != 0 && h.live.all (fun l => h.b.pair h.i.s0 l % 64 == 0) &&
        (let ents := (rsubPlan x h.live).1.filterMap (fun e => e.2.map (fun i => (e.1, i)))
         let wr := ents.map (fun e => (e.1, ({ va := entryVa x e.2, len := 64, kind := 1 } : Acc)))
         goB (laneMem s1 (storeWho h.w) wr) (fun _ _ => true) &&
         goB (laneMem s1 (loadWho h.w) (ents.map (fun e => (e.1, ({ va := h.b.pair h.i.s0 e.1, len := 64, kind := 0 } : Acc)))))
           (fun s2 bad => bad == [] && goB (laneMem s2 (storeWho h.w) wr) (fun _ bad => bad == [])))) = true :=
  fetch_of (by decide +kernel)

/-- A beat whose lanes name events 3 and 4. -/
def evBeat : Beat := { active := 3, regs := regTab [(6, 5, 6), (7, 0, 0), (8, 3, 4)] }

theorem witness_EventAndAllocatorInstructionsRun :
    (∀ op ∈ [0x5D, 0x5E, 0x5F], ∃ s1 h, fetchIns (upIns (wordM op 6 8 0 0 1) evBeat) 1 0 op = .here s1 h ∧
      (h.i.dst % 2 == 0 && decide (h.i.dst + 2 ≤ h.w.vregs) && decide (h.i.s0 < h.w.vregs) && !h.sysHeld s1 && !h.b.waiting &&
        (lanesOf h.g).all (fun l => evOwned s1 h.w.ctx (bits (h.b.reg h.i.s0 l) 0 16)) && lanesOf h.g == [0, 1] &&
        evalWait (evOf s1 3) (h.b.pair h.i.dst 0) .pending == .pending && evalWait (evOf s1 4) (h.b.pair h.i.dst 1) .pending == .met) = true) ∧
    (∀ op ∈ [0x60, 0x61], ∀ f : Bool, ∃ s1 h, fetchIns (if f then { upIns (wordM op 6 4 0 0 0) with ctxs := [(1, { wCtx with mode := 0 })] } else upIns (wordM op 6 4 0 0 0)) 1 0 op = .here s1 h ∧
      (decide (h.i.dst < h.w.vregs) && h.i.s0 % 2 == 0 && decide (h.i.s0 + 2 ≤ h.w.vregs) && !h.b.waiting &&
        ((ctxOf s1 h.w.ctx).mode == 0) == f && h.g != 0) = true) := by
  refine ⟨?_, ?_⟩
  · intro op ho
    simp at ho
    rcases ho with rfl | rfl | rfl <;> exact fetch_of (by decide +kernel)
  · intro op ho f
    simp at ho
    rcases ho with rfl | rfl <;> cases f <;> exact fetch_of (by decide +kernel)

theorem witness_ControlFlowRuns :
    (∀ op ∈ [0x70, 0x71, 0x72, 0x73, 0x74, 0x75, 0x77, 0x57], ∃ s1 h, fetchIns (upIns (wordB op 0 3)) 1 0 op = .here s1 h ∧ (h.g == 3 && h.w.kind == 0) = true) ∧
    (∃ s1 h, fetchIns { upIns (wordB 0x75 0 0) with pn := { up.pn with wgs := [(1, { wWg 0x10000 wBeat with kind := 2 })] } } 1 0 0x75 = .here s1 h ∧ (h.w.kind == 2) = true) ∧
    (∃ s1 h, fetchIns (upIns (wordB 0x72 0 0) { wBeat with stack := [2] }) 1 0 0x72 = .here s1 h ∧ (h.b.stack == [2] && h.g != 0) = true) ∧
    (∃ s1 h, fetchIns (upIns (wordB 0x70 2 (2 ^ 32 - 2))) 1 0 0x70 = .here s1 h ∧ (h.i.cond == 2 && h.g == h.b.active) = true) ∧
    (∃ s1 h, fetchIns (upIns (wordM 0x57 0 0 0 2 0)) 1 0 0x57 = .here s1 h ∧ (s1.nl.reqs == []) = true) := by
  refine ⟨?_, fetch_of (by decide +kernel), fetch_of (by decide +kernel), fetch_of (by decide +kernel), fetch_of (by decide +kernel)⟩
  intro op ho
  simp at ho
  rcases ho with rfl | rfl | rfl | rfl | rfl | rfl | rfl | rfl <;> exact fetch_of (by decide +kernel)

theorem witness_FetchIssuesTheWordAtThePc :
    (wgOf (upIns (wordA 0x20 8 6 8 0 0 0)) 1 = some (wWg 0x10000 wBeat) ∧ (wWg 0x10000 wBeat).beats[0]? = some wBeat ∧
      (wWg 0x10000 wBeat).phase = .resident ∧ wBeat.active ≠ 0 ∧ wBeat.atBar = false ∧ 8 * wBeat.pc < (wWg 0x10000 wBeat).codeBytes ∧
      (∃ s2 m, prepare (upIns (wordA 0x20 8 6 8 0 0 0)) (loadWho (wWg 0x10000 wBeat)) [{ va := 0x10000 + 8 * 0, len := 8, kind := 0 }] = .ok s2 m)) ∧
    opAssigned (insOf (BitVec.ofNat 64 (wordA 0x60 0 0 0 0 0 0))).op = true ∧ opAssigned (insOf (BitVec.ofNat 64 (wordA 0x3F 0 0 0 0 0 0))).op = false ∧
    (wWg 0x10000 { wBeat with pc := 8 }).codeBytes ≤ 8 * 8 ∧
    (∃ s1 h, fetchIns (upIns (wordA 0x20 32 6 8 0 0 0)) 1 0 0x20 = .here s1 h ∧ decide (h.w.vregs ≤ h.i.dst) = true) :=
  ⟨⟨by decide +kernel, by decide +kernel, by decide +kernel, by decide +kernel, by decide +kernel, by decide +kernel, prepGood_exists (by decide +kernel)⟩,
    by decide +kernel, by decide +kernel, by decide +kernel, fetch_of (by decide +kernel)⟩

/-! ### The Great Wheel and the Barrel -/

/-- Witnesses of what an option or a pair holds. -/
theorem opt_of {α : Type} {x : Option α} {p : α → Bool} (h : x.any p = true) : ∃ a, x = some a ∧ p a = true := by
  cases x with
  | none => cases h
  | some a => exact ⟨a, rfl, h⟩

theorem pair_of {α : Type} {x : α × Bool} {b : Bool} (h : x.2 = b) : ∃ u, x = (u, b) := ⟨x.1, by rw [← h]⟩

/-- A record of `n` bytes from fields by offset and width. -/
def recOf (n : Nat) (fields : List (Nat × Nat × Nat)) : List Byte :=
  fields.foldl (fun b f => b.take f.1 ++ toLe f.2.2 f.2.1 ++ b.drop (f.1 + f.2.1)) (List.replicate n 0)

/-- An operation record of K 32 and N 16 whose output scales are read from its parameters, and its model with one block. -/
def wRec : List Byte := recOf 128 [(0, 4, 3 * 16 + 3 * 256 + 2 ^ 21), (4, 4, 32), (8, 4, 16), (0xE, 2, 1), (0x18, 4, 0xFF800000), (0x1C, 4, 0x7F800000)]
def wModel : Model := { ctx := 1, image := 0x100000, pbase := 0x40000, ev := 3, blocks := 1, ops := 1, list := wRec, resident := 1 }

/-- An operation of a WHEEL_OP on that model, one row of activations. -/
def wOp (ph : GwPhase) : GwOp := { desc := some 7, ctx := 1, ring := 0, model := 2, opIndex := 0, oprec := wRec, m := 1, aAddr := 0x50000, outAddr := 0x60000, phase := ph, groups := 16, need := 1 }

/-- A working part with an operation; it stands selected or runs where its phase says so. -/
def upOp (o : GwOp) : State := { withDesc up (wDesc 0 Op.WHEEL_OP []) with
  time := { up.time with last := [(1, up.time.dev)] }
  ba := { models := [(2, wModel)], nextModel := 3 }
  gw := { ops := [(0, o)], nextOp := 1, clock := 1, run := if o.phase = .running then some 0 else none, sel := if o.phase = .selected then some 0 else none } }

/-- An image of 64 by 32 pixels in two tiles of 32 by 32, a network entry, and a pass over them. -/
def wImg : List Byte := recOf 64 [(0, 4, 0x0300), (8, 2, 64), (0xA, 2, 32), (0xC, 1, 31), (0xD, 1, 31), (0x12, 2, 2)]
def wNet : List Byte := recOf 32 [(0, 4, 2), (4, 2, 1)]
def wPass (ph : RPhase) : RPass := { ctx := 1, ring := 0, lead := 0, hsr := 0, tile := 0, mask := 0xFFF, bw := 1, heap := 0, spill := 0, imgs := [wImg], nets := [wNet], phase := ph, gx := 2, gy := 1, tiles := 2, final := true, rastUnits := [0] }

/-- A working part with that pass and its model. -/
def upPass (p : RPass) : State := { up with ba := { models := [(2, wModel)], nextModel := 3 }, ra := { passes := [(7, p)] } }

theorem witness_WheelOperationsArise :
    (∃ d, startedDesc (withDesc up (wDesc 0 Op.WHEEL_OP [(0x10, 4, 2), (0x18, 8, 1)])) 7 Op.WHEEL_OP = some d ∧ (d.ctx == 1) = true) ∧
    (∀ p ∈ up.gw.ops, p.2.desc ≠ some 7) ∧
    (passOf (upPass (wPass .run)) 7 = some (wPass .run) ∧ (wPass .run).nets ≠ [] ∧ (∀ o ∈ (upPass (wPass .run)).gw.ops, o.2.desc ≠ none) ∧
      (wPass .run).rastUnits.contains (wPass .run).netAt.1 = true) ∧
    (gwOp (upOp (wOp .params)) 0 = some (wOp .params) ∧ modelOf (upOp (wOp .params)) 2 = some wModel ∧ rScaleMode wRec = 1 ∧ rActEn wRec = false ∧
      rKind wRec = 0 ∧ convOk wRec none = none ∧
      ∃ s m, prepare (upOp (wOp .params)) { stream := 3, ctx := 1, eng := 0, ring := some 0 } [{ va := 0x40000, len := 4 * rN wRec, kind := 0 }] = .ok s m) :=
  ⟨opt_of (by decide +kernel), by decide +kernel, by decide +kernel, by decide +kernel, by decide +kernel, by decide +kernel, by decide +kernel, by decide +kernel,
    by decide +kernel, prepGood_exists (by decide +kernel)⟩

/-- A slice of that operation. -/
def wSlice : Slice := { mt := 0, sg := 0, p := 0, j := 0, elems := [], scales := [] }

theorem witness_WheelOperationsRun :
    ((upOp (wOp .eligible)).gw.sel = none ∧ atSelection (wakeTemplates (upOp (wOp .eligible))) = true ∧ rfld (wakeTemplates (upOp (wOp .eligible))) Reg.GW_SPARE_USE 15 5 ≠ 0 ∧
      ∃ x, dwrr (wakeTemplates (upOp (wOp .eligible))) (2 ^ 64) = some x ∧ (x.2.1 == 0) = true) ∧
    (∃ x, loadCand (upOp (wOp .selected)) = some x ∧ (x.1 == 0 && sliceIn (upOp (wOp .selected)) x.2.1 x.2.2 &&
      goB (laneMem (upOp (wOp .selected)) (gwWho x.2.1 3) (laneAccs (((scaleReads (upOp (wOp .selected)) x.2.1 x.2.2).map (fun x => pageCuts x.1 x.2 0)).flatten)))
        (fun _ bad => bad == [])) = true) ∧
    ((upOp (wOp .running)).gw.run = some 0 ∧ gwOp (upOp { wOp .running with gap := 1, drained := true }) 0 = some { wOp .running with gap := 1, drained := true } ∧
      gwOp (upOp { wOp .running with pos := { sub := 1 } }) 0 = some { wOp .running with pos := { sub := 1 } }) ∧
    ((∃ u, feedReady (upOp { wOp .running with shadow := some wSlice }) 0 (wOp .running) (wOp .running).pos = (u, true)) ∧
      (∃ u, outReady (upOp { wOp .running with shadow := some wSlice }) (wOp .running) (wOp .running).pos = (u, true)) ∧
      loadReady { wOp .running with shadow := some wSlice } = true ∧
      (∃ u, feedReady { upOp (wOp .running) with tu := {} } 0 (wOp .running) (wOp .running).pos = (u, false))) ∧
    (opEnds (upOp (wOp .ended)) (wOp .ended) = true ∧ (wOp .ended).ran = 0 ∧ AtEngine (upOp (wOp .ended)) 7 Op.WHEEL_OP (wDesc 0 Op.WHEEL_OP []) ∧
      opEnds (upPass (wPass .run)) { wOp .ended with desc := none, pass := 7 } = true ∧ passOf (upPass (wPass .run)) 7 = some (wPass .run) ∧
      spoiledCols { wOp .ended with ran := 1 } = [] ∧ overlapRuns (upOp (wOp .ended)) { wOp .ended with ran := 1 } = []) :=
  ⟨⟨by decide +kernel, by decide +kernel, by decide +kernel, opt_of (by decide +kernel)⟩, opt_of (by decide +kernel), by decide +kernel,
    ⟨pair_of (by decide +kernel), pair_of (by decide +kernel), by decide +kernel, pair_of (by decide +kernel)⟩,
    by decide +kernel, by decide +kernel, atEngine_of (by decide +kernel), by decide +kernel, by decide +kernel, by decide +kernel, by decide +kernel⟩

/-- A working part whose Great Wheel is tested, with a faulty logical group. -/
def upFaulty : State := { up with regs := (Reg.GW_CONFIG, BitVec.ofNat 32 (2 ^ 16 + 1)) :: up.regs, gw := { faulty := [5, 3] } }

theorem witness_WheelIsTestedAndRepaired :
    (upFaulty.gw.run = none ∧ testDue upFaulty = true ∧ fnNotReady upFaulty Fun.GREAT_WHEEL = false ∧ activeGroups upFaulty ≠ 0) ∧
    (∃ p rest, gwSpares up = p :: rest) ∧
    (lowFaulty upFaulty = some 3 ∧ 3 < 16) ∧
    (Reaches up Reg.GW_REPAIR_CTRL ∧ bit (1 : Word) 0 = true ∧ gwIdle up = true ∧ gwIdle upFaulty = false) ∧
    isDue up 5 1000000 = true := by
  refine ⟨?_, ?_, ?_, ⟨reaches_of ?_, ?_⟩, ?_⟩
  · decide +kernel
  · cases h : gwSpares up with
    | cons p rest => exact ⟨p, rest, rfl⟩
    | nil => exact absurd h (by decide +kernel)
  all_goals decide +kernel

/-- The admission of model 2, not yet resident, and a second model of the context that is least recent. -/
def wAbsent : Model := { wModel with resident := 0 }
def upAdm (a : Adm) : State := { up with ctxs := [(1, { wCtx with quota := 1 })], ba := { models := [(2, wAbsent), (3, { wModel with list := [] })], nextModel := 4, queue := [a], frames := [(0, { model := 4 })] } }

theorem witness_BarrelAdmitsAndFills :
    (AtEngine { withDesc up (wDesc 5 Op.MODEL_LOAD [(0x10, 4, 2)]) with ba := { models := [(2, wAbsent)] } } 7 Op.MODEL_LOAD (wDesc 5 Op.MODEL_LOAD [(0x10, 4, 2)]) ∧
      leAt (wDesc 5 Op.MODEL_LOAD [(0x10, 4, 2)]).bytes 0x18 8 = 0 ∧ isResident wAbsent = false ∧ isResident wModel = true) ∧
    (modelOf (upAdm { model := 2 }) 2 = some wAbsent ∧ admFence (upAdm { model := 2 }) 1 = none ∧
      wAbsent.blocks ≤ ((ctxOf (upAdm { model := 2 }) 1).quota - ctxFrames (upAdm { model := 2 }) 1) +
        ((victims (upAdm { model := 2 }) 1 2).filter (fun p => !held (upAdm { model := 2 }) p.1)).foldl (fun x p => x + p.2.resident) 0) ∧
    (held { up with ba := { models := [(2, wModel)], freeAtHoldEnd := [2] } } 2 = false ∧ modelOf { up with ba := { models := [(2, wModel)], freeAtHoldEnd := [2] } } 2 ≠ none) ∧
    (modelOf (releaseHeld { upAdm { model := 2, waiting := true } with ctxs := [(1, wCtx)] }) 2 = some wAbsent ∧
      ctxFrames (releaseHeld { upAdm { model := 2, waiting := true } with ctxs := [(1, wCtx)] }) 1 + wAbsent.blocks ≤ wCtx.quota) ∧
    ((∃ s m, prepare (upAdm { model := 2, filling := true }) { stream := 4, ctx := 1, eng := 0 } [{ va := 0x100000, len := 131072, kind := 0 }] = .ok s m) ∧
      (∃ f, lowFrame (upAdm { model := 2, filling := true }) = some f ∧ (f == 1) = true)) ∧
    (∃ t, (upAdm { model := 2, failed := some 1 }).ba.queue = [t] ∧ t.failed = some 1) ∧
    (gwOp (upOp (wOp .running)) 0 = some (wOp .running) ∧ (frameOf up 5).retired = false) ∧
    (passOf { upPass (wPass .share) with ba := { models := [(2, wAbsent)] } } 7 = some (wPass .share) ∧ passModels { upPass (wPass .share) with ba := { models := [(2, wAbsent)] } } (wPass .share) = [2] ∧
      fenceStatus (upPass (wPass .share)) 1 16 = none) :=
  ⟨⟨atEngine_of (by decide +kernel), by decide +kernel, by decide +kernel, by decide +kernel⟩, by decide +kernel, by decide +kernel, by decide +kernel,
    ⟨prepGood_exists (by decide +kernel), opt_of (by decide +kernel)⟩, ⟨_, rfl, rfl⟩, by decide +kernel, by decide +kernel, by decide +kernel, by decide +kernel⟩

/-! ### The Plate, the Binner, render passes and dispatches -/

/-- The conditions of a chain of reads that has been made, as one truth value. -/
def chainB (x : Chain) (p : State → List (List Byte) → Bool) : Bool :=
  match x with
  | .ok u bs => p u bs
  | _ => false

theorem chain_of {x : Chain} {p : State → List (List Byte) → Bool} (h : chainB x p = true) : ∃ u bs, x = .ok u bs ∧ p u bs = true := by
  unfold chainB at h
  split at h
  · exact ⟨_, _, rfl, h⟩
  · cases h

/-- A working part with granule 0 in its context's partition. -/
def upPlate (x : Gran) : State := { up with pl := { grans := [(0, x)] } }

/-- An external image, of which no tile is needed any more once its unit has ended. -/
def wExt : List Byte := recOf 64 [(0, 4, 0x80000300), (8, 2, 64), (0xA, 2, 32), (0xC, 1, 31), (0xD, 1, 31), (0x12, 2, 2), (0x16, 2, 3)]

theorem witness_PlateServesItsPartitions :
    ((match plateSlot (upPlate { owner := 2 }) 1 15 with | .ok p => p == 15 | .error _ => false) = true ∧
      (match plateSlot up 1 16 with | .ok _ => false | .error e => e == St.PLATE_RANGE) = true ∧
      (match plateSlot { up with ctxs := [(1, { wCtx with granules := [none] })] } 1 15 with | .ok _ => false | .error e => e == St.PLATE_UNBACKED) = true ∧
      (match plateSlot up 1 0 with | .ok _ => false | .error e => e == St.PLATE_FOREIGN) = true) ∧
    ((∃ x, partJob { up with rg := { jobs := [(0, { st := .running, code := Cmd.PLATE_PARTITION, obj := 1 })] } } 1 = some x ∧ (x.2.arg == 0) = true) ∧
      claimed up 1 0 = false ∧ 0 < (ctxOf up 1).granules.length) ∧
    ((ctxOf (upPlate { owner := 2, retired := true }) 1).granules[0]? = some (some 0) ∧ (granOf (upPlate { owner := 2, retired := true }) 0).retired = true ∧
      claimed (upPlate { owner := 2, retired := true }) 1 0 = false) ∧
    (granOf (upPlate { owner := 2 }) (15 / 16)).retired = false ∧
    (passOf (upPass (wPass .claim)) 7 = some (wPass .claim) ∧ fenceStatus (upPass (wPass .claim)) 1 16 = none ∧ (Img.range wImg).2 < 16 * (ctxOf (upPass (wPass .claim)) 1).granules.length ∧
      ringsOk [wImg] 1 (imgsWritten (passOps (upPass (wPass .claim)) 1 [wNet])) (imgsNbr [wImg] (passOps (upPass (wPass .claim)) 1 [wNet])) = true) ∧
    (let p : RPass := { wPass .run with imgs := [wExt], doneUnits := [0, 1] }
     firstFrom (fun k => Img.external (p.imgs.getD k []) && decide (tget 0 p.relRows k < p.gy) && rowFree p (imgsNbr p.imgs (passOps (upPass p) 1 p.nets)) k (tget 0 p.relRows k)) 0 p.imgs.length = some 0) :=
  ⟨by decide +kernel, ⟨opt_of (by decide +kernel), by decide +kernel, by decide +kernel⟩, by decide +kernel, by decide +kernel, by decide +kernel, by decide +kernel⟩

/-- Records in host memory: a draw, its state, a vertex, a fragment and a compute program, a heap's state block, images, a network entry. -/
def wDraw : List Byte := recOf 64 [(4, 4, 3), (8, 4, 1), (0x18, 8, 0x22000), (0x2C, 1, 1)]
def wState : List Byte := recOf 64 [(0x18, 8, 0x23000)]
def wProg (kind wgx : Nat) : List Byte := recOf 64 [(0, 4, 0x31504E50), (6, 1, 4), (7, 1, kind), (8, 4, 64), (0xC, 2, wgx), (0xE, 2, wgx), (0x10, 2, wgx)]
def wBlock : List Byte := recOf 64 [(0x10, 2, 4), (0x12, 2, 3), (0x18, 4, 0x80000000)]
def wMem : Tbl Byte :=
  bytesAt 0x20000 wDraw ++ bytesAt 0x21000 wState ++ bytesAt 0x22000 (wProg 1 0) ++ bytesAt 0x23000 (wProg 2 0) ++ bytesAt 0x24000 wImg ++
  bytesAt 0x25000 wNet ++ bytesAt 0x26000 (wProg 0 4) ++ bytesAt 0x30000 wBlock

/-- A BIN_PASS of that draw: one tile of 32 by 32 pixels, a heap of 17 pages. -/
def binDesc : Desc := wDesc 1 Op.BIN_PASS [(0x10, 2, 4), (0x14, 2, 32), (0x16, 2, 32), (0x18, 8, 0x20000), (0x20, 4, 1), (0x24, 2, 3), (0x28, 8, 0x21000), (0x30, 8, 0x30000), (0x38, 4, 17)]
def upBinDesc : State := { withDesc up binDesc with mem := { host := wMem } }

/-- The pass open, its triangle not yet batched. -/
def wBin : BinPass := { ctx := 1, ring := 0, tile := 0, segEvent := 4, relEvent := 3, frameW := 32, frameH := 32, stateTable := 0x21000, heap := 0x30000, heapBytes := 17 * 4096, draws := [wDraw], states := [(0, wState)], segBase := 0, relBase := 0 }
def upBin (p : BinPass) : State := { upBinDesc with ra := { bins := [(7, p)] } }
def binVtx (x y : Nat) : Vtx := { pos := [BitVec.ofNat 32 x, BitVec.ofNat 32 y, 0, 0x3F800000], vary := [0, 0, 0, 0] }

theorem witness_BinnerBinsPasses :
    (AtEngine upBinDesc 7 Op.BIN_PASS binDesc ∧ binOf upBinDesc 7 = none ∧ upBinDesc.ra.bins.length < 8 ∧ binBodyOk binDesc.bytes = true ∧ heapMin 1 ≤ 4096 * 17 ∧
      evOwned upBinDesc 1 4 = true ∧ evOwned upBinDesc 1 3 = true ∧
      (∃ s m, prepare upBinDesc (binWho binDesc) [{ va := 0x20000, len := 64, kind := 0 }, { va := 0x30000, len := 16, kind := 0 }] = .ok s m) ∧
      drawOk wDraw = true ∧ stateOk wState = true ∧ progOk (wProg 1 0) 1 8 = true ∧ progOk (wProg 2 0) 2 (fragRegs wState 1) = true) ∧
    ((∃ x, binNext (upBin wBin) = some x ∧ (x == (7, wBin)) = true) ∧ engineFence (upBin wBin) 1 = none ∧
      nextPrim wBin.draws 0 0 0 2 = (0, 0, 0) ∧ drIndexed wDraw = false ∧
      (∃ s m, prepare (upBin wBin) { stream := 5, ctx := 1, eng := 1, ring := some 0 } [{ va := 0x22000, len := 64, kind := 0 }] = .ok s m) ∧
      nextPrim wBin.draws 0 0 1 2 = (1, 0, 0) ∧
      (let p := { wBin with prim := 1 }
       ∃ s m, prepare (upBin p) { stream := 6, ctx := 1, eng := 1, ring := some 0 } ((closeWrites p true).map (fun x => { va := p.heap + x.1, len := x.2.length, kind := 1 })) = .ok s m) ∧
      (let p := { wBin with prim := 1, bPrims := [(0, [0, 1, 2])], bVerts := [0, 1, 2] }
       let a := addPrim p (segMapOf (upBin p) 1 p.heap) [binVtx 0 0, binVtx 0 0x3F000000, binVtx 0x3F000000 0] 0 [0, 1, 2]
       a.1.p.chunkBytes + a.1.p.recBytes ≤ p.heapBytes - dynBase p.tiles ∧
       ∃ s m, prepare (upBin p) { stream := 6, ctx := 1, eng := 1, ring := some 0 } (a.1.writes.map (fun x => { va := p.heap + x.1, len := x.2.length, kind := 1 })) = .ok s m)) ∧
    (fenceStatus (upBin { wBin with parked := true }) 1 1 = none ∧ (awaitEv (upBin { wBin with parked := true }) 2 7 0 1 3 1).2 = .pending ∧
      (awaitEv (upBin { wBin with parked := true }) 2 7 0 1 4 1).2 = .met) :=
  ⟨⟨atEngine_of (by decide +kernel), by decide +kernel, by decide +kernel, by decide +kernel, by decide +kernel, by decide +kernel, by decide +kernel,
      prepGood_exists (by decide +kernel), by decide +kernel, by decide +kernel, by decide +kernel, by decide +kernel⟩,
    ⟨opt_of (by decide +kernel), by decide +kernel, by decide +kernel, by decide +kernel, prepGood_exists (by decide +kernel), by decide +kernel,
      prepGood_exists (by decide +kernel), by decide +kernel, prepGood_exists (by decide +kernel)⟩, by decide +kernel⟩

/-- A RENDER_PASS of one image and one network entry, on tile engine 0. -/
def rpDesc : Desc := wDesc 16 Op.RENDER_PASS [(0x10, 4, 1 + 2 ^ 16), (0x14, 4, 2 ^ 15), (0x18, 8, 0x24000), (0x28, 8, 0x25000), (0x30, 8, 0x30000), (0x38, 8, 0x70000)]
def upRp : State := { withDesc up rpDesc with mem := { host := wMem }, ba := { models := [(2, wModel)] } }
def upUnit (p : RPass) (u : TUnit) : State := { upRp with ra := { passes := [(7, p)], units := [(0, u)] } }

theorem witness_RenderPassesRun :
    (AtEngine upRp 7 Op.RENDER_PASS rpDesc ∧ passOf upRp 7 = none ∧ passBodyOk rpDesc.bytes 0 = true ∧
      (∃ u bs, readChain upRp (teWho 1 0 0) [] [(0x24000, 64), (0, 0), (0x25000, 32)] = .ok u bs ∧
        (cutRecs 64 (bs.getD 0 []) == [wImg] && cutRecs 32 (bs.getD 2 []) == [wNet] && attachTableOk [wImg] (imgsWritten (passOps u 1 [wNet])) []) = true) ∧
      neOk wNet = true ∧ Img.ok wImg 0 = true ∧ gridOk [wImg] = true ∧ 1 ≤ Img.gx wImg) ∧
    (tfind (upPass (wPass .run)).ra.units 0 = none ∧ fnNotReady (upPass (wPass .run)) Fun.TILE_ENGINES = false ∧ engineFence (upPass (wPass .run)) 16 = none ∧
      (wPass .run).nextUnit < unitCount (wPass .run) ∧ natBits (wPass .run).mask 0 1 = 1 ∧ unitReady (upPass (wPass .run)) (wPass .run) = true) ∧
    (tfind (upUnit (wPass .run) { pass := 7, unit := 0, stage := .shade }).ra.units 0 = some { pass := 7, unit := 0, stage := .shade } ∧
      (unitTiles { wPass .run with bw := 2 } 0).length = 2 ∧ (unitTiles (wPass .run) 0).length = 1 ∧
      (let p := { wPass .run with final := false, spill := 0x70000 }
       let g : Eng := { e := 0, u := { pass := 7, unit := 0, stage := .store }, id := 7, p := p, i := 0 }
       spillWrites (upUnit p g.u) g ≠ [] ∧
       ∃ v m, prepare (upUnit p g.u) g.who ((spillWrites (upUnit p g.u) g).map (fun x => { va := x.1, len := x.2.length, kind := 1 })) = .ok v m)) ∧
    (unitCount (wPass .run) ≤ ({ wPass .run with doneUnits := [0, 1] } : RPass).doneUnits.length ∧
      (let p := { wPass .open with heap := 0x30000 }
       ∃ u bs, readChain (upUnit p { pass := 8, unit := 0 }) (passWho p) [] [(p.heap, 256)] = .ok u bs ∧
        (let q := takeBlock p (bs.headD [])
         (awaitEv u 3 7 0 1 q.segEvent (segTarget q.segBase q.seg)).2 == .met && q.final) = true) ∧
      (let p := { wPass .drain with heap := 0x20000 }
       ∃ u bs, readChain (upUnit p { pass := 8, unit := 0 }) (passWho p) [] [(p.heap, 256)] = .ok u bs ∧ (bs.length == 1) = true)) ∧
    (passOf (upUnit (wPass .close) { pass := 8, unit := 0 }) 7 = some (wPass .close) ∧ passIssues (upUnit (wPass .close) { pass := 8, unit := 0 }) 7 = false ∧ (wPass .close).heap = 0) :=
  ⟨⟨atEngine_of (by decide +kernel), by decide +kernel, by decide +kernel, chain_of (by decide +kernel), by decide +kernel, by decide +kernel, by decide +kernel, by decide +kernel⟩,
    by decide +kernel, ⟨by decide +kernel, by decide +kernel, by decide +kernel, by decide +kernel, prepGood_exists (by decide +kernel)⟩,
    ⟨by decide +kernel, chain_of (by decide +kernel), chain_of (by decide +kernel)⟩, by decide +kernel⟩

/-- A DISPATCH of two by one by one workgroups of 4 by 4 by 4 invocations, and the dispatch under way. -/
def dpDesc : Desc := wDesc 2 Op.DISPATCH [(0x10, 8, 0x26000), (0x20, 4, 2), (0x24, 4, 0x10001)]
def upDp : State := { withDesc up dpDesc with mem := { host := wMem } }
def wDisp : Disp := { ctx := 1, ring := 0, vregs := 32, loc := 0, code := 0x26040, codeBytes := 64, wgx := 4, wgy := 4, wgz := 4, const := 0, gx := 2, gy := 1, gz := 1, affMode := 0, affStep := 0, affBase := 0, noSteal := false, fg := false, trains := 0xFFF, compl := 0 }

/-- A workgroup that waits in the queue of train 0. -/
def upQueued : State := { up with pn := { wgs := [(1, { wWg 0x10000 wBeat with phase := .queued })], nextWg := 2, idleSince := [(9, 1)] } }

theorem witness_DispatchesRun :
    (AtEngine upDp 7 Op.DISPATCH dpDesc ∧ tfind upDp.pn.disps 7 = none ∧ dpDesc.indBad = false ∧ dispOk upDp dpDesc = true ∧
      (∃ v m, prepare upDp { stream := 43, ctx := 1, eng := 2, ring := some 0 } [{ va := 0x26000, len := 64, kind := 0 }] = .ok v m) ∧ progOk (wProg 0 4) 0 0 = true) ∧
    (wDisp.next < wDisp.gx * wDisp.gy * wDisp.gz ∧ fnFenced up Fun.PINIONS = false ∧ nextTrain up wDisp.trains 11 = some 11 ∧ queued up 11 < 256) ∧
    (pinionsUp upQueued 0 = true ∧ pinAdmits upQueued 0 0 = true ∧ (∃ x, ownCand upQueued 0 0 = some x ∧ (x.1 == 1) = true) ∧
      pinionsUp upQueued 1 = true ∧ pinAdmits upQueued 1 0 = true ∧ stealDue upQueued 1 0 = true ∧ ∃ x, stealCand upQueued 1 0 = some x ∧ (x.1 == 1) = true) ∧
    (∀ b ∈ (wWg 0x10000 { wBeat with active := 0, ended := 3 }).beats, b.active = 0) ∧
    ({ wDisp with ended := 2 } : Disp).ended = wDisp.gx * wDisp.gy * wDisp.gz :=
  ⟨⟨atEngine_of (by decide +kernel), by decide +kernel, by decide +kernel, by decide +kernel, prepGood_exists (by decide +kernel), by decide +kernel⟩, by decide +kernel,
    ⟨by decide +kernel, by decide +kernel, opt_of (by decide +kernel), by decide +kernel, by decide +kernel, by decide +kernel, opt_of (by decide +kernel)⟩,
    by decide +kernel, by decide +kernel⟩

/-- A working part whose train 11 has no active Pinion and no spare left. -/
def upTrain : State := { up with pn := { pinions := (List.range 9).map (fun p => (99 + p, { retired := true })) } }

theorem witness_PinionsAreTestedAndRetired :
    ((pinionOf up 11 8).retired = false ∧ (pinionOf up 0 0).dbl = false) ∧
    (drainingPin up = none ∧ isDue up 3 (checkInterval up) = true ∧ nextWrap (fun n => pinActive up (n / 9) (n % 9)) up.pn.testNext 108 = some 0) ∧
    (drainingPin { up with pn := { pinions := [(4, { draining := true })] } } = some (0, 4) ∧ resident { up with pn := { pinions := [(4, { draining := true })] } } 0 4 = []) ∧
    (spareReady { up with pn := { pinions := [(3, { retired := true })] } } 0 = true ∧ (pinionOf { up with pn := { pinions := [(3, { retired := true })] } } 0 3).retired = true) ∧
    (spareReady upTrain 11 = false ∧ trainActive upTrain 11 = 0 ∧ trainFenced upTrain 27 = false) := by decide +kernel

/-! ### The system cache, Deflate, the Crystal and the media ports -/

/-- A working part with one line of each kind: a dirty line of host memory 0 and a clean line of device memory 1 in
the main array, and the directory's entry of host line 2, of which trains 0 and 3 hold copies. -/
def hostLine : Line := { addr := 0, hc := true, host := true, dirty := true, data := List.replicate 128 0 }
def devLine : Line := { addr := 1, data := List.replicate 128 0 }
def upCache (x : Cache) : State := { up with regs := [(Reg.CA_CLASS_EN, 3)] ++ up.regs, ca := { x with lines := [(5, hostLine), (16, devLine)] } }
def dirOf (sent notice : Nat) : Dir := { addr := 2, host := true, trains := 9, invSent := sent, notice := notice }

/-- The conditions of a found line or entry. -/
def victFull : Tbl Line := (List.range 256).map (fun i => (i, { devLine with addr := 16 * i, used := i }))

theorem witness_CacheServesAndKeeps :
    (classOn (upCache {}) true = true ∧ (upCache {}).hl.cacheEn = true ∧ findMain (upCache {}) 0 true = some (5, hostLine) ∧ findDir (upCache {}) 0 true = none ∧
      findMain (upCache {}) (2 ^ 20) false = none ∧ findVict (upCache {}) (2 ^ 20) false = none ∧
      ∃ x, placeLine (upCache {}) (2 ^ 20) (fetchLine (upCache {}) (2 ^ 20) false false) = some x ∧ (x.1 % 16 == 0) = true) ∧
    (freeVict (upCache { victim := victFull }) 0 = none ∧ ∃ p ∈ victSlice (upCache { victim := victFull }) 0, p.2.evicting = false) ∧
    (tfind (upCache { victim := [(3, { hostLine with evicting := true })] }).ca.victim (0 * 256 + 3 % 256) = some { hostLine with evicting := true }) ∧
    (findDir (upCache { dir := [(1, dirOf 0 0)] }) (256 / 128) true = some (1, dirOf 0 0)) ∧
    (natBits (dirOf 0 0).trains 3 1 = 1 ∧ natBits (dirOf 0 0).invSent 3 1 = 0 ∧ natBits (dirOf 9 0).invSent 3 1 = 1 ∧ natBits (dirOf 9 0).notice 3 1 = 0 ∧ (dirOf 9 0).trains ≠ 0) ∧
    (Reaches up Reg.CA_CLASS_EN ∧ Reaches up Reg.CA_WAYS ∧ Reaches up Reg.CA_MAINT_CTRL) ∧
    (bits (0xFFFF : Word) 16 16 = 0 ∧ rbit (upCache {}) Reg.CA_CLASS_EN 1 = true) ∧
    (up.ca.maint = none ∧ rfld { up with regs := (Reg.CA_MAINT_CTRL, 4) :: up.regs } Reg.CA_MAINT_CTRL 2 2 = 1 ∧ (ctxOf up 1).st ≠ .free ∧ (ctxOf up 1).st ≠ .destroying ∧ (ctxOf up 2).st = .free) ∧
    (∃ m, (upCache { maint := some { op := 3, target := 1, classes := 3, addr := 0, size := 256, ctx := 0 } }).ca.maint = some m ∧ m.target ≠ 0) ∧
    (15 < 16 ∧ 0 < caSets up ∧ tfind (upCache {}).ca.lines ((0 * caSets (upCache {}) + 0) * 16 + 5) = some hostLine) :=
  ⟨⟨by decide +kernel, by decide +kernel, by decide +kernel, by decide +kernel, by decide +kernel, by decide +kernel, opt_of (by decide +kernel)⟩, by decide +kernel,
    by decide +kernel, by decide +kernel, by decide +kernel, ⟨reaches_of (by decide +kernel), reaches_of (by decide +kernel), reaches_of (by decide +kernel)⟩,
    by decide +kernel, by decide +kernel, ⟨_, rfl, by decide +kernel⟩, by decide +kernel⟩

/-- A Deflate descriptor with flags `f`: 8 bytes in at 0x20000, 64 out at 0x21000. -/
def dfDesc (op f : Nat) : Desc := wDesc 3 op (if op = Op.FLUSH then [(0x10, 4, f), (0x20, 8, 0x21000), (0x28, 4, 64)] else [(0x10, 4, f), (0x14, 4, 8), (0x18, 8, 0x20000), (0x20, 8, 0x21000), (0x28, 4, 64)])
def upDf (op f : Nat) (x : Df) : State := { withDesc up (dfDesc op f) with df := x }
def openLane (op : Nat) : Lane := { isOpen := true, ctx := 1, tag := 5, opcode := op }
def wJob (op : Nat) : DfJob := { desc := 7, ctx := 1, ring := 0, opcode := op, framing := 0, dyn := false, first := true, last := true, tag := 5, inBytes := 8, inAddr := 0x20000, outAddr := 0x21000, outBytes := 64, listCount := 0, listAddr := 0, compl := 0, age := 1 }

/-- The output is laid, and what it gives meets `p`. -/
def laidB (x : Laid) (p : List (Nat × List Byte) → Nat → Bool) : Bool :=
  match x with
  | .ok ps st => p ps st
  | _ => false

theorem laid_of {x : Laid} {p : List (Nat × List Byte) → Nat → Bool} (h : laidB x p = true) : ∃ ps st, x = .ok ps st ∧ p ps st = true := by
  unfold laidB at h
  split at h
  · exact ⟨_, _, rfl, h⟩
  · cases h

/-- A raw DECOMPRESS of an empty stored block, on lane 7. -/
def upWork : State :=
  { upDf Op.DECOMPRESS (2 ^ 28 + 2 ^ 27 + 5) { lanes := [(7, { job := some 7, ctx := 1, tag := 5, opcode := Op.DECOMPRESS })], jobs := [(7, { wJob Op.DECOMPRESS with lane := some 7 })] } with
    mem := { host := bytesAt 0x20000 [1, 0, 0, 0xFF, 0xFF, 0, 0, 0] } }

theorem witness_DeflateJobsRun :
    (AtEngine (upDf Op.COMPRESS (2 ^ 28 + 5) {}) 7 Op.COMPRESS (dfDesc Op.COMPRESS (2 ^ 28 + 5)) ∧ dfBodyOk (dfDesc Op.COMPRESS (2 ^ 28 + 5)) false = true ∧
      streamLane (upDf Op.COMPRESS (2 ^ 28 + 5) {}) 1 5 = none ∧ openOf (upDf Op.COMPRESS (2 ^ 28 + 5) {}) 1 < ctxStreams (upDf Op.COMPRESS (2 ^ 28 + 5) {}) ∧
      natBits (2 ^ 28 + 5) 28 1 = 1 ∧ natBits (2 ^ 28 + 5) 27 1 = 0) ∧
    (AtEngine (upDf Op.FLUSH 5 { lanes := [(6, openLane Op.COMPRESS)] }) 7 Op.FLUSH (dfDesc Op.FLUSH 5) ∧ dfBodyOk (dfDesc Op.FLUSH 5) true = true ∧
      streamLane (upDf Op.FLUSH 5 { lanes := [(6, openLane Op.COMPRESS)] }) 1 5 = some 6) ∧
    (AtEngine (upDf Op.DECOMPRESS 5 { lanes := [(6, openLane Op.DECOMPRESS)] }) 7 Op.DECOMPRESS (dfDesc Op.DECOMPRESS 5) ∧ dfBodyOk (dfDesc Op.DECOMPRESS 5) false = true ∧
      streamLane (upDf Op.DECOMPRESS 5 { lanes := [(6, openLane Op.DECOMPRESS)] }) 1 5 = some 6) ∧
    ((∃ x, oldestJob (upDf Op.COMPRESS 0 { jobs := [(7, { wJob Op.COMPRESS with opening := true })] }) (·.opening) = some x ∧ (x.1 == 7) = true) ∧
      ∃ x, oldestJob (upDf Op.COMPRESS 0 { jobs := [(7, wJob Op.COMPRESS)] }) (fun j => (laneFor (upDf Op.COMPRESS 0 { jobs := [(7, wJob Op.COMPRESS)] }) j).isSome) = some x ∧
        (laneFor (upDf Op.COMPRESS 0 { jobs := [(7, wJob Op.COMPRESS)] }) x.2 == some 0) = true) ∧
    (tfind upWork.df.jobs 7 = some { wJob Op.DECOMPRESS with lane := some 7 } ∧ fenceStatus upWork 1 3 = none ∧
      AtEngine upWork 7 Op.DECOMPRESS (dfDesc Op.DECOMPRESS (2 ^ 28 + 2 ^ 27 + 5)) ∧
      (∃ u m, prepare upWork { stream := 51, ctx := 1, eng := 3, ring := some 0 } [{ va := 0x20000, len := 8, kind := 0 }] = .ok u m) ∧
      ∃ ps st, layOut upWork { stream := 51, ctx := 1, eng := 3, ring := some 0 } 0 0 0
        ((decompressWork (laneOf upWork 7) (wJob Op.DECOMPRESS) [1, 0, 0, 0xFF, 0xFF, 0, 0, 0]).out.drop 64)
        [(0x21000, (decompressWork (laneOf upWork 7) (wJob Op.DECOMPRESS) [1, 0, 0, 0xFF, 0xFF, 0, 0, 0]).out.take 64)] = .ok ps st ∧
        (st == 0 && (piecesWait upWork { stream := 51, ctx := 1, eng := 3, ring := some 0 } (pagePieces (ps.filter (fun p => p.2 != [])))).isNone) = true) ∧
    ((laneOf upWork 7).retired = false ∧ (laneOf upWork 7).job = some 7) :=
  ⟨⟨atEngine_of (by decide +kernel), by decide +kernel, by decide +kernel, by decide +kernel, by decide +kernel, by decide +kernel⟩,
    ⟨atEngine_of (by decide +kernel), by decide +kernel, by decide +kernel⟩, ⟨atEngine_of (by decide +kernel), by decide +kernel, by decide +kernel⟩,
    ⟨opt_of (by decide +kernel), opt_of (by decide +kernel)⟩,
    ⟨by decide +kernel, by decide +kernel, atEngine_of (by decide +kernel), prepGood_exists (by decide +kernel), laid_of (by decide +kernel)⟩, by decide +kernel⟩

/-- An opaque layer over the first 32 by 32 pixels of output 0. -/
def wLayer : Layer := { bytes := recOf 128 [(0, 4, 0x80000300), (4, 2, 0xFFFF), (0x24, 2, 32), (0x26, 2, 32)], ctx := 1 }

/-- A working part whose output 0 is owned by context 1 and enabled at 64 by 32 pixels and 60 Hz, slot 63 owned too. -/
def upOut (x : CrOut) (g : Gen) : State := { up with
  regs := [(Reg.CR_OUT_CFG 0, BitVec.ofNat 32 (2 ^ 31 + 2 ^ 30 + 2 ^ 22)), (Reg.CR_OUT_SIZE 0, BitVec.ofNat 32 (64 + 32 * 2 ^ 16)), (Reg.CR_SLOT 63, BitVec.ofNat 32 (2 ^ 31 + 2 ^ 16)),
    (Reg.TM_GEN_CTRL 0, BitVec.ofNat 32 (2 ^ 31)), (Reg.TM_GEN_NUM 0, 60), (Reg.TM_GEN_DEN 0, 1), (Reg.MP_TXREC 0, BitVec.ofNat 32 (2 ^ 31))] ++ up.regs
  cr := { outs := [(0, x)] }, mp := { gens := [(0, g)] } }
def lyDesc : Desc := wDesc 4 Op.LAYER_UPDATE [(0x10, 4, 1), (0x18, 8, 0x27000)]
def upLayer : State := { upOut {} {} with esc := (withDesc up lyDesc).esc, mem := { host := bytesAt 0x27000 (recOf 128 [(0, 4, 63)]) } }
def cmDesc : Desc := wDesc 4 Op.COMMIT []
def upCommit (x : CrOut) (g : Gen) : State := { upOut x g with esc := (withDesc up cmDesc).esc }

theorem witness_CrystalShowsItsLayers :
    (Reaches up (Reg.CR_SLOT 63) ∧ (slotOf up 63).active = none ∧ (slotOf up 63).shadow = none) ∧
    (AtEngine upLayer 7 Op.LAYER_UPDATE lyDesc ∧ vaOk 64 0x27000 = true ∧
      (∃ u bs, readChain upLayer { stream := 52, ctx := 1, eng := 4, ring := some 0 }
        [fun bs => ((cutRecs 128 (bs.getD 0 [])).filter (wantsEntry upLayer 1)).map (fun b => (lyAddr b, 64))] [(0x27000, 128)] = .ok u bs ∧
        (cutRecs 128 (bs.getD 0 []) == [recOf 128 [(0, 4, 63)]] && lyFault u 1 (recOf 128 [(0, 4, 63)]) [] == none) = true)) ∧
    (AtEngine (upCommit {} {}) 7 Op.COMMIT cmDesc ∧ 0 < Config.crOutputs up.fuse.variant ∧ outOwned (upCommit {} {}) 1 0 = true ∧ outEn (upCommit {} {}) 0 = true ∧ latchTime (upCommit {} {}) 0 ≤ up.time.cal ∧
      up.time.cal < latchTime (upCommit {} { due := 2 * up.time.cal }) 0) ∧
    (outEn (upCommit { armed := [{ desc := 7, first := 0 }] } { next := 1 }) 0 = true ∧ genEn (upCommit { armed := [{ desc := 7, first := 0 }] } { next := 1 }) 0 = true ∧
      latchTime (upCommit { armed := [{ desc := 7, first := 0 }] } { next := 1 }) 0 ≤ up.time.cal ∧
      setOk (outW (upCommit {} {}) 0) (outH (upCommit {} {}) 0) (layersOn (latchSlots (upCommit {} {}) 0) 0) = true ∧ fenceStatus (upCommit {} {}) 1 4 = none) ∧
    ((outOf (upCommit { due := [{ desc := 7, status := 0, frame := 0, boundary := 1, uf := 0, layers := 0 }] } {}) 0).due =
        [{ desc := 7, status := 0, frame := 0, boundary := 1, uf := 0, layers := 0 }] ∧
      AtEngine (upCommit { due := [{ desc := 7, status := 0, frame := 0, boundary := 1, uf := 0, layers := 0 }] } {}) 7 Op.COMMIT cmDesc ∧ leAt cmDesc.bytes 0x18 8 = 0) ∧
    ((outOf (upOut { running := true, shown := [wLayer] } {}) 0).running = true ∧ 0 < blocksWide (upOut {} {}) 0 * ceilDiv (outH (upOut {} {}) 0) 32 ∧
      (blockLayers (upOut { running := true, shown := [wLayer] } {}) 0 0).2 = [wLayer]) ∧
    (bit (txWord (upOut { running := true } {}) 0 0) 31 = true ∧ 0 < framePkts (upOut { running := true } {}) 0 ∧ genNum (upOut { running := true } {}) 0 ≠ 0) ∧
    (genEn (upOut {} { due := 3600000000000 }) 0 = true ∧ (genOf (upOut {} { due := 3600000000000 }) 0).due ≤ up.time.cal ∧ outEn (upOut {} {}) 0 = true) ∧
    (Reaches up (Reg.CR_OUT_CFG 0) ∧ outEn up 0 = false ∧ genEn up 0 = false ∧
      (let s := { up with regs := [(Reg.TM_GEN_CTRL 0, BitVec.ofNat 32 (2 ^ 31)), (Reg.TM_GEN_NUM 0, 60), (Reg.TM_GEN_DEN 0, 1)] ++ up.regs }
       Reaches s (Reg.CR_OUT_CFG 0) ∧ outEn s 0 = false ∧ genEn s 0 = true ∧ rateOk (genNum s 0) (genDen s 0) 120 = true ∧
       txOver (putReg s (Reg.CR_OUT_CFG 0) (BitVec.ofNat 32 (2 ^ 31))) (bits (BitVec.ofNat 32 (2 ^ 31) : Word) 10 2) = false)) := by
  refine ⟨⟨reaches_of ?_, ?_⟩, ⟨atEngine_of ?_, ?_, chain_of ?_⟩, ⟨atEngine_of ?_, ?_⟩, ?_, ⟨?_, atEngine_of ?_, ?_⟩, ?_, ?_, ?_, ⟨reaches_of ?_, ?_, ?_, reaches_of ?_, ?_⟩⟩ <;> decide +kernel

/-- An external RGB image of bytes, 64 by 32 pixels, and an INGEST into memory from stream 0 of media port 1. -/
def igImg : List Byte := recOf 64 [(0, 4, 0x80000703), (4, 2, 3), (8, 2, 64), (0xA, 2, 32), (0xC, 1, 31), (0xD, 1, 31)]
def igDesc : Desc := wDesc 6 Op.INGEST [(0x10, 4, 2 ^ 30 + 4), (0x18, 8, 0x28000), (0x20, 8, 0x40000)]
def wIng : Ingest := { desc := 7, ctx := 1, ring := 0, rx := 0, dest := 1, wide := false, cfa4 := false, cfa := 0, strict := false, relEn := false, rowEvent := 4, relEvent := 0, img := igImg, memAddr := 0x40000, rowBase := 0, relBase := 0, compl := 0 }

/-- Four pixels of 10 bits for row 31, sent to the stream's group. -/
def wPkt : MediaPkt := { fcsBad := false, vlan := none, group := 0xE0000001, src := 1, dport := 5004, ts := 90, marker := false, srds := [{ row := 31, col := 60, data := List.replicate 15 0x55 }], raw := [] }
def upMp (ing : Option Ingest) : State := { withDesc up igDesc with
  regs := [(Reg.MP_RXREC 64, BitVec.ofNat 32 (2 ^ 31 + 10 * 2 ^ 16)), (Reg.MP_RXREC 65, BitVec.ofNat 32 (64 + 32 * 2 ^ 16)), (Reg.MP_RXREC 66, 0xE0000001),
    (Reg.MP_RXREC 68, BitVec.ofNat 32 (5004 * 2 ^ 16)), (Reg.MP_P_CFG 1, BitVec.ofNat 32 (2 ^ 31)), (Reg.MP_P_STATUS 1, 3)] ++ up.regs
  mem := { host := bytesAt 0x28000 igImg }, mp := { ports := [(1, { ingest := ing })] } }

/-- The runs are placed, or they wait. -/
def placedB (x : Placed) : Bool :=
  match x with
  | .done _ => true
  | _ => false
def waitsB (x : Placed) : Bool :=
  match x with
  | .wait _ => true
  | _ => false

theorem placed_of {x : Placed} (h : placedB x = true) : ∃ u, x = .done u := by
  cases x with
  | done u => exact ⟨u, rfl⟩
  | wait u => cases h
  | stop u c => cases h
theorem waits_of {x : Placed} (h : waitsB x = true) : ∃ u, x = .wait u := by
  cases x with
  | wait u => exact ⟨u, rfl⟩
  | done u => cases h
  | stop u c => cases h

theorem witness_MediaPortsIngest :
    (Reaches up (Reg.MP_RXREC 0) ∧ Reaches (upMp none) (Reg.MP_RXREC 255) ∧ rbit (upMp none) (Reg.MP_RXREC 64 / 64 * 64) 31 = true) ∧
    (Machine.linkUp (upMp none) 1 = true ∧ streamFor (upMp none) 1 wPkt = some 0 ∧ streamFor up 1 wPkt = none ∧ (mpOf (upMp none) 1).ingest = none ∧
      (mpOf (upMp (some { wIng with frame := some 80 })) 1).ingest = some { wIng with frame := some 80 } ∧ 80 ≠ wPkt.ts) ∧
    (AtEngine (upMp none) 7 Op.INGEST igDesc ∧ bit (rxWord (upMp none) 1 0 0) 31 = true ∧ vaOk 64 0x28000 = true ∧
      (∃ u m, prepare (upMp none) { stream := 57, ctx := 1, eng := 6, ring := some 0 } [{ va := 0x28000, len := 64, kind := 0 }] = .ok u m) ∧
      ingestImageOk (upMp none) 1 false false false 1 64 32 igImg = true) ∧
    ((∃ u, placeRuns { upMp (some { wIng with waiting := [wPkt] }) with tu := {} } 1 { wIng with waiting := [wPkt] } (runsOf (upMp none) 1 wIng wPkt) = .wait u) ∧
      runsOf (upMp none) 1 wIng wPkt ≠ [] ∧ (∃ u, placeRuns (upMp (some { wIng with waiting := [wPkt] })) 1 { wIng with waiting := [wPkt] } (runsOf (upMp none) 1 wIng wPkt) = .done u) ∧
      fenceStatus (upMp none) 1 6 = none) ∧
    ((List.range (igFmt wIng).frameH).filter (fun y => !rowWhole { wIng with got := (List.range 32).map (fun y => (y, 2 ^ 64 - 1)) } y) = [] ∧
      (∃ u, placeRuns (upMp (some { wIng with ended := true })) 1 { wIng with ended := true, got := (List.range 32).map (fun y => (y, 2 ^ 64 - 1)) } [] = .done u) ∧
      AtEngine (upMp (some { wIng with dropped := true })) 7 Op.INGEST igDesc) := by
  refine ⟨⟨reaches_of ?_, reaches_of ?_, ?_⟩, ?_, ⟨atEngine_of ?_, ?_, ?_, prepGood_exists ?_, ?_⟩, ⟨waits_of ?_, ?_, placed_of ?_, ?_⟩, ⟨?_, placed_of ?_, atEngine_of ?_⟩⟩ <;> decide +kernel

/-- Studio time in a state of Table MT-6, taken from domain 127 on port 3. -/
def upTm (st : Nat) (m : Media) : State := { up with
  regs := [(Reg.TM_CFG, BitVec.ofNat 32 (2 ^ 31 + 3 * 2 ^ 24 + 127 * 2 ^ 16 + 5)), (Reg.MP_P_STATUS 3, 1), (Reg.TM_STATUS, BitVec.ofNat 32 st)] ++ up.regs, mp := m }

theorem witness_StudioTimeIsKept :
    (rbit (upTm 1 {}) Reg.TM_CFG 31 = true ∧ rfld (upTm 1 {}) Reg.TM_CFG 24 2 = 3 ∧ rfld (upTm 1 {}) Reg.TM_CFG 16 8 = 127 ∧ rbit (upTm 1 {}) (Reg.MP_P_STATUS 3) 0 = true ∧
      tmState (upTm 1 { near := 15 }) = 1 ∧ 16 ≤ (upTm 1 { near := 15 }).mp.near + 1 ∧ (upTm 1 { near := 14 }).mp.near + 1 < 16 ∧ ((-999 : Int)).natAbs < 1000 ∧ 1000 ≤ ((-1000 : Int)).natAbs ∧
      tmState (upTm 2 { far := 3 }) = 2 ∧ 4 ≤ (upTm 2 { far := 3 }).mp.far + 1 ∧ 10000 < ((10001 : Int)).natAbs ∧ ((10000 : Int)).natAbs ≤ 10000) ∧
    (tmState (upTm 3 { heldAt := up.time.dev - 5000000000 }) = 3 ∧ (upTm 3 { heldAt := up.time.dev - 5000000000 }).mp.heldAt + rfld (upTm 3 {}) Reg.TM_CFG 0 16 * 1000000000 ≤ up.time.dev ∧
      tmState (upTm 2 {}) = 2 ∧ isDue (upTm 2 {}) 6 1000000000 = true ∧ tmState up ≠ 2) ∧
    (Reaches up (Reg.TM_GEN_CTRL 7) ∧ (rbit (upOut {} {}) (Reg.CR_OUT_CFG 0) 31 = true ∧ Reaches (upOut {} {}) (Reg.TM_GEN_CTRL 0)) ∧ rateOk (genNum up 7) (genDen up 7) 240 = false ∧
      (let s := { up with regs := [(Reg.TM_GEN_NUM 7, 240), (Reg.TM_GEN_DEN 7, 1)] ++ up.regs }
       Reaches s (Reg.TM_GEN_CTRL 7) ∧ rateOk (genNum s 7) (genDen s 7) 240 = true ∧ genEn s 7 = false)) := by
  refine ⟨?_, ?_, ⟨reaches_of ?_, ⟨?_, reaches_of ?_⟩, ?_, reaches_of ?_, ?_⟩⟩ <;> decide +kernel

/-! ### Single steps on fixed values; the expected values are worked out by hand from the rule each names -/

/-- A command goes on to a next state of which `p` holds. -/
def after (c : Instr) (s : State) (p : State → Bool) : Bool :=
  match exec c s with
  | .next t => p t
  | _ => false

/-- Register `r` of lane `l` of the test beat. -/
def regAt (s : State) (r l : Nat) : Word := ((wgOf s 1).bind (fun w => w.beats[0]?)).elim 0 (fun b => b.reg r l)

/-- The test beat with source registers R6, R8 and R4 (a pair with R5) in lanes 0 and 1. -/
def beat3 (x y z : Nat × Nat) : Beat := { active := 3, regs := regTab [(4, z), (5, 0, 0), (6, x), (8, y)] }

/-- R37: addition is modulo 2^32; lane 1 is not in the active mask and keeps its value. -/
theorem test_iadd_wraps : after (.iadd 1 0) (upIns (wordA 0x20 6 6 8 0 0 0) { beat3 (0xFFFFFFFF, 5) (3, 3) (0, 0) with active := 1 })
    (fun t => regAt t 6 0 == 2 && regAt t 6 1 == 5) = true := by decide +kernel

/-- R37: ISUBSAT clamps at the most negative number. -/
theorem test_isubsat_clamps : after (.isubsat 1 0) (upIns (wordA 0x26 8 6 8 0 0 0) (beat3 (0x80000000, 0) (1, 1) (0, 0)))
    (fun t => regAt t 8 0 == 0x80000000 && regAt t 8 1 == 0xFFFFFFFF) = true := by decide +kernel

/-- R34: 1 + 2 = 3 in FP32, and a tie rounds to even: 2^24 + 1 stays 2^24. -/
theorem test_fadd_rounds : after (.fadd 1 0) (upIns (wordA 0x00 8 6 8 0 0 0) (beat3 (0x3F800000, 0x4B800000) (0x40000000, 0x3F800000) (0, 0)))
    (fun t => regAt t 8 0 == 0x40400000 && regAt t 8 1 == 0x4B800000) = true := by decide +kernel

/-- R34: FFMA rounds once: (1 + 2^-23) (1 - 2^-23) - 1 is -2^-46. -/
theorem test_ffma_rounds_once : after (.ffma 1 0) (upIns (wordA 0x02 8 6 8 4 0 0) (beat3 (0x3F800001, 0) (0x3F7FFFFE, 0) (0xBF800000, 0)))
    (fun t => regAt t 8 0 == 0xA8800000) = true := by decide +kernel

/-- R158: SAR copies the sign, SHR does not. -/
theorem test_sar_shr : (after (.sar 1 0) (upIns (wordA 0x32 8 6 8 0 0 0) (beat3 (0x80000000, 0) (31, 0) (0, 0))) (fun t => regAt t 8 0 == 0xFFFFFFFF) &&
    after (.shr 1 0) (upIns (wordA 0x31 8 6 8 0 0 0) (beat3 (0x80000000, 0) (31, 0) (0, 0))) (fun t => regAt t 8 0 == 1)) = true := by decide +kernel

/-- R5, R158: ST of four bytes at each lane's address, lowest byte first. -/
theorem test_st_little_endian : after (.st 1 0) (upIns (wordM 0x51 6 4 2 0 0) (beat3 (0x04030201, 0x08070605) (0, 0) (0x20000, 0x20004)))
    (fun t => memRd t.mem.host 0x20000 8 == [1, 2, 3, 4, 5, 6, 7, 8]) = true := by decide +kernel

/-- R161: ATOMS ADD returns the old value and leaves the sum; both lanes name one word, lane 0 first. -/
theorem test_atoms_order : after (.atoms 1 0) (upIns (wordM 0x56 6 8 2 0 0) (beat3 (5, 6) (4, 4) (0, 0)))
    (fun t => regAt t 6 0 == 0 && regAt t 6 1 == 5 && ((wgOf t 1).elim [] (fun w => memRd w.mem 4 4)) == [11, 0, 0, 0]) = true := by decide +kernel

/-- R149, R157: a branch's displacement counts from the next instruction; -1 stands still. -/
theorem test_bra_to_itself : after (.bra 1 0) (upIns (wordB 0x70 0 0xFFFFFFFF)) (fun t => ((wgOf t 1).bind (fun w => w.beats[0]?)).elim false (fun b => b.pc == 0)) = true := by
  decide +kernel

/-- R3, R9: no register lies at 0x01400000; the access reads zero and is shown. -/
theorem test_unmapped_is_shown : after (.unmappedAccess false 0x01400000 0) { up with hl := { up.hl with readData := 7 } }
    (fun t => t.hl.readData == 0 && rbit t Reg.GLOBAL_STATUS 2 && getReg t Reg.GLOBAL_FAULT_OFFSET == 0x01400000) = true := by decide +kernel

/-- R173, R174: GO makes an idle mailbox PENDING; a GO while it is pending is dropped. -/
theorem test_go : after (.go 3) up (fun t => (mboxOf t 3).st == .pending && after (.go 3) t (fun u => (mboxOf u 3).drop && (mboxOf u 3).st == .pending)) = true := by
  decide +kernel

/-- Table MB-3: the answer to STATUS holds SUCCESS in its first halfword. -/
theorem test_status_answers : after (.status 2) (askOf up 2 Cmd.STATUS []) (fun t => (mboxOf t 2).st == .done && bits ((mboxOf t 2).resp.getD 0 0) 0 16 == 0) = true := by
  decide +kernel

/-- R223: a record of a count below the event's own changes nothing; one above it replaces it. -/
theorem test_event_counts_rise :
    (after (.evRecordLo 6) { up with regs := (Reg.EV_SEL, 4) :: up.regs } (fun t => (evOf t 4).count == 7) &&
      after (.evRecordLo 8) { up with regs := (Reg.EV_SEL, 4) :: up.regs } (fun t => (evOf t 4).count == 8)) = true := by decide +kernel

/-- R205: a DOORBELL that runs ahead of the ring's entries is refused. -/
theorem test_doorbell_range :
    (after (.doorbell 0 5) up (fun t => (ringOf t 0).elim false (fun x => x.tail == 5)) &&
      after (.doorbell 0 0x80000000) up (fun t => (ringOf t 0).elim false (fun x => x.tail == 0) && rbit t Reg.ESC_ERR 1)) = true := by decide +kernel

/-- R216: NOP completes. -/
theorem test_nop_completes : after (.nop 7) (withDesc up (wDesc 2 Op.NOP [])) (fun t => (tfind t.esc.descs 7).isNone) = true := by decide +kernel

/-- R291: a final stored block of no bytes decompresses to nothing. -/
theorem test_decompress_stored : (decompressWork (laneOf upWork 7) (wJob Op.DECOMPRESS) [1, 0, 0, 0xFF, 0xFF, 0, 0, 0]).out = [] := by decide +kernel

/-- R327: a frame boundary moves its generator on by one. -/
theorem test_frame_boundary : after (.frameBoundary 0) (upOut {} { next := 216000, due := 3600000000000 }) (fun t => (genOf t 0).next == 216001) = true := by decide +kernel

/-- The model's idle step (assumption log 2). -/
theorem test_idle_step : (match step up with | .next t => t.time.dev == 3600000000001 | _ => false) = true := by decide +kernel

/-- No row of the table has bits: no word spells a command, and none is put in the queue. -/
theorem test_no_word : decodeTableWord 64 0 = none ∧ (up.withFetchWord 64 0).pending = [] := by decide +kernel

/-! ### Well-formedness: an operand just out of its range is refused, at every command that has it -/

/-- Every command of a list is refused as ill-formed. -/
def allRefused (l : List Instr) : Bool := l.all (fun i => !i.wellFormed)

theorem test_refused_off : allRefused [.absentUnitAccess false (2 ^ 26) 0, .unmappedAccess false (2 ^ 26) 0, .badWidthWrite (2 ^ 26) 1 0, .registerWrite (2 ^ 26) 0, .rcRegisterRead (2 ^ 26),
    .plateAccess 0 0 16384 false [], .streamRecordWrite (2 ^ 26) 0] = true := by decide
theorem test_refused_bytes_zero : allRefused [.badWidthWrite 0 0 0] = true := by decide
theorem test_refused_bytes : allRefused [.badWidthWrite 0 9 0] = true := by decide
theorem test_refused_off_misaligned : allRefused [.registerWrite 6 0, .rcRegisterRead 6, .streamRecordWrite 6 0] = true := by decide
theorem test_refused_ring : allRefused [.doorbell 1024 0, .reserve 1024, .indirectRead 1024, .descriptorStart 1024, .continuationPush 1024] = true := by decide
theorem test_refused_eng : allRefused [.descriptorFetch 28] = true := by decide
theorem test_refused_fault : allRefused [.wavefront 4 0] = true := by decide
theorem test_refused_group : allRefused [.wavefront 0 16] = true := by decide
theorem test_refused_phys : allRefused [.spareTestFailure 19, .plateEccError 3072 0 false false 0] = true := by decide
theorem test_refused_mb_part1 : allRefused [.modelRegister 16, .modelLoad 16, .modelPin 16, .modelUnpin 16, .modelEvict 16, .modelUnload 16, .modelStatus 16, .barrelQuota 16, .platePartition 16,
    .go 16, .ack 16, .mailboxTake 16, .getInfo 16, .ctxCreate 16, .ctxDestroy 16, .ctxQuery 16, .ctxUnfence 16, .ctxWeight 16, .eventAlloc 16,
    .eventFree 16, .hangPolicy 16, .ringCreate 16, .ringDestroy 16, .ringQuery 16] = true := by decide
theorem test_refused_mb_part2 : allRefused [.resvSet 16, .resvRelease 16, .resvQuery 16, .acctBind 16, .acctRead 16, .acctPeriod 16, .fabEnumerate 16, .fabRouteWrite 16, .fabEpochSwitch 16,
    .fabStatus 16, .fabRejoin 16, .chronoExport 16, .chronoClear 16, .chronoInfo 16, .chronoLimit 16, .scrub 16, .selfTest 16, .status 16,
    .fenceContext 16, .fenceAll 16, .readCounters 16, .chronoRead 16, .resetFunction 16, .resetDevice 16] = true := by decide
theorem test_refused_frame : allRefused [.barrelEccError 1024 0 false false 0] = true := by decide
theorem test_refused_word : allRefused [.barrelEccError 0 16384 false false 0, .plateEccError 0 2048 false false 0] = true := by decide
theorem test_refused_ctx : allRefused [.granuleRelease 256, .plateAccess 256 0 0 false [], .granuleReplacement 256, .destroyDrainEnd 256, .destroyPartitionZeroed 256, .allocatorRequest 256,
    .translationMiss 0 256 0 false false, .faultRecordWrite 256, .contextDrainEnd 256, .chronographRecord 0 false 256 0 0 0] = true := by decide
theorem test_refused_slot : allRefused [.plateAccess 0 3072 0 false [], .evictionAcknowledge 0 256, .crSlotWrite 64 0] = true := by decide
theorem test_refused_data : allRefused [.plateAccess 0 0 0 false (List.replicate 16385 0), .cacheAccess 0 false false false (List.replicate 129 0),
    .cxlMemAccess 0 false false (List.replicate 65 0)] = true := by decide +kernel
theorem test_refused_te : allRefused [.unitHandout 12, .tileProcess 12] = true := by decide
theorem test_refused_train : allRefused [.workgroupAdmission 12 0, .workgroupSteal 12 0, .pinionEccError 12 0 false false, .pinionRetire 12, .l1EvictionNotice 0 false 12,
    .invalidationAcknowledge 0 false 12 false] = true := by decide
theorem test_refused_pos : allRefused [.workgroupAdmission 0 9, .workgroupSteal 0 9, .pinionEccError 0 9 false false] = true := by decide
theorem test_refused_job : allRefused [.jobDone 32, .release 32] = true := by decide
theorem test_refused_words : allRefused [.managementCommandArrival (List.replicate 17 0), .mcResponse (List.replicate 17 0)] = true := by decide
theorem test_refused_cls : allRefused [.shortfallWindow 5 0 0 0] = true := by decide
theorem test_refused_stream : allRefused [.translationMiss 64 0 0 false false, .translationCompletion 64 0 0 false 0 0 false false false false, .pageRequestResponse 64 0 0 0] = true := by decide
theorem test_refused_va : allRefused [.translationMiss 0 0 (2 ^ 64) false false] = true := by decide
theorem test_refused_pasid : allRefused [.translationCompletion 0 (2 ^ 20) 0 false 0 0 false false false false, .pageRequestResponse 0 (2 ^ 20) 0 0, .invalidateRequest false (2 ^ 20) 0 0] = true := by decide
theorem test_refused_page : allRefused [.translationCompletion 0 0 (2 ^ 52) false 0 0 false false false false, .pageRequestResponse 0 0 (2 ^ 52) 0] = true := by decide
theorem test_refused_hpa : allRefused [.translationCompletion 0 0 0 false (2 ^ 57) 0 false false false false, .cxlMemAccess (2 ^ 57) false false []] = true := by decide
theorem test_refused_log2 : allRefused [.translationCompletion 0 0 0 false 0 64 false false false false] = true := by decide
theorem test_refused_code : allRefused [.pageRequestResponse 0 0 0 16, .chronographRecord 256 false 0 0 0 0] = true := by decide
theorem test_refused_base : allRefused [.invalidateRequest false 0 (2 ^ 64) 0] = true := by decide
theorem test_refused_addr : allRefused [.cacheAccess (2 ^ 57) false false false [], .hostSnoop (2 ^ 57) false, .l1EvictionNotice (2 ^ 57) false 0,
    .invalidationAcknowledge (2 ^ 57) false 0 false, .memoryEccError (96 * 2 ^ 30) false] = true := by decide
theorem test_refused_slice : allRefused [.victimEviction 16, .evictionAcknowledge 16 0, .cacheEccError 16 0 0 0] = true := by decide
theorem test_refused_set : allRefused [.cacheEccError 0 1024 0 0] = true := by decide
theorem test_refused_way : allRefused [.cacheEccError 0 0 16 0] = true := by decide
theorem test_refused_kind : allRefused [.cacheEccError 0 0 0 4, .ptpMessage 0 0 2 false 0 0, .bar4Access 5 0 0 []] = true := by decide
theorem test_refused_lane : allRefused [.laneEccError 8 false false, .laneFail 16] = true := by decide
theorem test_refused_output : allRefused [.latch 4, .commitComplete 4, .blockUnderflow 4 0, .crOutCfgWrite 4 0, .packetTransmit 4] = true := by decide
theorem test_refused_port : allRefused [.mediaPacketReceive 4 wPkt, .ingestRelease 4, .ingestFrameEnd 4, .frameDrop 4, .ptpMessage 4 0 0 false 0 0,
    .flitReceive 8 false { vc := 0, src := 0, dst := 1, body := .read 1 0 8 }, .fabricPortDown 8 false, .packetForward 8, .creditReturn 8 0 0,
    .enum 8 0 false 0 0, .heartbeat 8, .heartbeatTimeout 8, .lossNotice 8 0, .probe 8 0, .mediaLinkDown 4, .mediaLinkUp 4, .fabricPortUp 8 1 0 0,
    .enumAnswer 8 0 0 [] []] = true := by decide
theorem test_refused_domain : allRefused [.ptpMessage 0 256 0 false 0 0] = true := by decide
theorem test_refused_gen : allRefused [.frameBoundary 8, .generatorCtrlWrite 8 0] = true := by decide
theorem test_refused_dec : allRefused [.hdmDecoderCommit 2 0 0] = true := by decide
theorem test_refused_line : allRefused [.backInvalidation (2 ^ 30), .backInvalidationResponse (2 ^ 30)] = true := by decide
theorem test_refused_vec : allRefused [.msiXMessage 8, .vectorUnmask 8] = true := by decide
theorem test_refused_vc : allRefused [.creditReturn 0 4 0, .drainMarkerEcho 0 4, .drainMarker 0 4] = true := by decide
theorem test_refused_dev : allRefused [.enum 0 0 false 64 0, .switchDoneReport 64, .probeAnswer 64 0] = true := by decide
theorem test_refused_peerPort : allRefused [.enum 0 0 false 0 8, .fabricPortUp 0 1 0 8] = true := by decide
theorem test_refused_dst : allRefused [.drainMarkerEcho 64 0] = true := by decide
theorem test_refused_mask : allRefused [.lossNotice 0 (2 ^ 64)] = true := by decide
theorem test_refused_cand : allRefused [.probe 0 64, .probeAnswer 0 64] = true := by decide
theorem test_refused_rail : allRefused [.powerOn 6 0] = true := by decide
theorem test_refused_mv : allRefused [.powerOn 0 (2 ^ 16)] = true := by decide
theorem test_refused_core : allRefused [.powerMeasure 4096 0 0] = true := by decide
theorem test_refused_sram : allRefused [.powerMeasure 0 4096 0] = true := by decide
theorem test_refused_sensor : allRefused [.thermalTrip 52 0] = true := by decide
theorem test_refused_fn : allRefused [.functionFence 19 1, .functionDrainEnd 19, .chronographRecord 0 false 0 256 0 0, .functionRestored 19 false] = true := by decide
theorem test_refused_source_zero : allRefused [.functionFence 0 0] = true := by decide
theorem test_refused_source : allRefused [.functionFence 0 6] = true := by decide
theorem test_refused_cause : allRefused [.deviceCause 5] = true := by decide
theorem test_refused_seq_zero : allRefused [.rmDisagree 0] = true := by decide
theorem test_refused_seq : allRefused [.rmDisagree 4] = true := by decide
theorem test_refused_field : allRefused [.configurationWrite 9 0] = true := by decide
theorem test_refused_lanes : allRefused [.linkUp (2 ^ 16) 0 0] = true := by decide
theorem test_refused_width : allRefused [.linkUp 0 32 0] = true := by decide
theorem test_refused_speed : allRefused [.linkUp 0 0 8] = true := by decide
theorem test_refused_waves_zero : allRefused [.fabricPortUp 0 0 0 0] = true := by decide
theorem test_refused_waves : allRefused [.fabricPortUp 0 5 0 0] = true := by decide
theorem test_refused_peer : allRefused [.fabricPortUp 0 1 64 0] = true := by decide
theorem test_refused_role : allRefused [.enumAnswer 0 4 0 [] []] = true := by decide
theorem test_refused_keep : allRefused [.enumAnswer 0 0 65 [] []] = true := by decide
theorem test_refused_src : allRefused [.drainMarker 64 0] = true := by decide

theorem test_bounds_accepted : ([.go 15, .ringQuery 0, .doorbell 1023 0, .descriptorFetch 27, .registerWrite (2 ^ 26 - 4) 0, .badWidthWrite 3 8 0, .wavefront 3 15,
    .plateEccError 3071 2047 false false 0, .functionFence 18 5, .rmDisagree 3, .fabricPortUp 7 4 63 7, .mcResponse (List.replicate 16 0)] : List Instr).all Instr.wellFormed = true := by decide

end Sys2Proof.Tests
end

/-! PROOFS. The pacing fractions of the power cap and of the thermal state (R373, R375, R377): how each cause steps
its own fraction, that the larger is shown with the causes that hold it, and O7. -/

namespace Sys2Proof.Machine

/-! ### A Chronograph record leaves the package's state alone -/

@[simp] theorem storeRec_pk (s : State) (r : Rec) : (storeRec s r).pk = s.pk := by
  simp only [storeRec, apply_ite State.pk, setFlag_pk, ite_self]

@[simp] theorem acceptRec_pk (s : State) (r : Rec) : (acceptRec s r).pk = s.pk := by
  simp only [acceptRec, apply_ite State.pk, storeRec_pk, setFlag_pk, countReg_pk, ite_self]

@[simp] theorem chrono_pk (s : State) (code : Nat) (ctx : Option Nat) (fn arg0 arg1 : Nat) :
    (chrono s code ctx fn arg0 arg1).pk = s.pk := by
  simp only [chrono, apply_ite State.pk, acceptRec_pk, countReg_pk, ite_self]

/-! ### The fraction in force and its causes (R377) -/

/-- R377: GLOBAL_PWR_STATUS shows the larger of the two fractions, and as its causes those that call for it. -/
def PaceShown (t : State) : Prop :=
  let p := Nat.max t.pk.capPace t.pk.thermPace
  rfld t Reg.GLOBAL_PWR_STATUS 4 4 = p ∧ (rbit t Reg.GLOBAL_PWR_STATUS 1 = true ↔ 0 < p ∧ t.pk.capPace = p) ∧
  (rbit t Reg.GLOBAL_PWR_STATUS 2 = true ↔ 0 < p ∧ t.pk.thermPace = p) ∧ t.pk.capPace ≤ 15 ∧ t.pk.thermPace ≤ 15

@[simp] theorem showPace_pk (s : State) : (showPace s).pk = s.pk := rfl

theorem rfld_showPace (s : State) :
    rfld (showPace s) Reg.GLOBAL_PWR_STATUS 4 4 = Nat.max s.pk.capPace s.pk.thermPace % 2 ^ 4 := by
  rw [showPace, rfld_setFlag_other _ _ _ _ _ _ _ (by decide), rfld_setFlag_other _ _ _ _ _ _ _ (by decide),
    rfld_setFld_same _ _ _ _ _ (by decide)]

theorem rbit_showPace_cap (s : State) : rbit (showPace s) Reg.GLOBAL_PWR_STATUS 1 =
    (decide (0 < Nat.max s.pk.capPace s.pk.thermPace) && s.pk.capPace == Nat.max s.pk.capPace s.pk.thermPace) := by
  rw [showPace, rbit_setFlag _ _ _ _ _ _ (by decide), if_neg (by decide), rbit_setFlag _ _ _ _ _ _ (by decide),
    if_pos ⟨rfl, rfl⟩, setFld_pk]

theorem rbit_showPace_therm (s : State) : rbit (showPace s) Reg.GLOBAL_PWR_STATUS 2 =
    (decide (0 < Nat.max s.pk.capPace s.pk.thermPace) && s.pk.thermPace == Nat.max s.pk.capPace s.pk.thermPace) := by
  rw [showPace, rbit_setFlag _ _ _ _ _ _ (by decide), if_pos ⟨rfl, rfl⟩, setFlag_pk, setFld_pk]

/-- Fractions of at most fifteen sixteenths fit the field, so the larger one is shown as it is. -/
theorem paceShown_showPace {s : State} (hc : s.pk.capPace ≤ 15) (ht : s.pk.thermPace ≤ 15) : PaceShown (showPace s) := by
  have hmax : Nat.max s.pk.capPace s.pk.thermPace < 2 ^ 4 := Nat.lt_succ_of_le (Nat.max_le.2 ⟨hc, ht⟩)
  refine ⟨?_, ?_, ?_, hc, ht⟩
  · rw [rfld_showPace, Nat.mod_eq_of_lt hmax, showPace_pk]
  · simp only [rbit_showPace_cap, showPace_pk, Bool.and_eq_true, decide_eq_true_eq, beq_iff_eq]
  · simp only [rbit_showPace_therm, showPace_pk, Bool.and_eq_true, decide_eq_true_eq, beq_iff_eq]

/-! ### How each cause steps its own fraction -/

/-- R373: the fraction the cap calls for after its step: none without a cap, one sixteenth more (to 15) while the
average lies above the cap, one less while it lies below 98 % of it. -/
def capPaceNext (s : State) : Nat :=
  let cap := 8 * capWatts s
  let now := rfld s Reg.GLOBAL_PWR_NOW 0 16
  if cap = 0 then 0
  else if cap < now then Nat.min 15 (s.pk.capPace + 1)
  else if now * 100 < cap * 98 then s.pk.capPace - 1
  else s.pk.capPace

/-- R375: the fraction the thermal state calls for after its step: one sixteenth more (to 15) where the die reaches
HOT or a stack 95 °C, one less where both lie more than 3 °C below. -/
def thermPaceNext (s : State) : Nat :=
  let hot : Int := rfld s Reg.GLOBAL_THERM_CFG 8 8
  if hot ≤ dieTemp s ∨ 95 ≤ stackTemp s then Nat.min 15 (s.pk.thermPace + 1)
  else if dieTemp s < hot - 3 ∧ stackTemp s < 92 then s.pk.thermPace - 1
  else s.pk.thermPace

theorem capPaceNext_le {s : State} (h : s.pk.capPace ≤ 15) : capPaceNext s ≤ 15 := by
  unfold capPaceNext
  dsimp only
  split_ifs
  · exact Nat.zero_le _
  · exact Nat.min_le_left _ _
  · exact Nat.le_trans (Nat.sub_le _ _) h
  · exact h

theorem thermPaceNext_le {s : State} (h : s.pk.thermPace ≤ 15) : thermPaceNext s ≤ 15 := by
  unfold thermPaceNext
  dsimp only
  split_ifs
  · exact Nat.min_le_left _ _
  · exact Nat.le_trans (Nat.sub_le _ _) h
  · exact h

/-- R373: a pacing step that is due moves the cap's fraction alone, and shows the result. -/
theorem execPacingStep_due {s : State} (h : isDue s 8 100000 = true) :
    ∃ u, execPacingStep s = .next (showPace u) ∧ u.pk = { s.pk with capPace := capPaceNext s } := by
  refine ⟨_, congrArg Host.Outcome.next (if_neg (by simp [h])), ?_⟩
  generalize hv : (if rfld (markDone s 8) Reg.GLOBAL_PWR_STATUS 4 4 = 0 then markDone s 8
    else addWide (markDone s 8) Reg.GLOBAL_PWR_PACED_LO 100) = v
  have hkeep : v.pk = s.pk ∧ capWatts v = capWatts s ∧ rfld v Reg.GLOBAL_PWR_NOW 0 16 = rfld s Reg.GLOBAL_PWR_NOW 0 16 := by
    subst hv
    split <;> exact ⟨rfl, rfl, rfl⟩
  obtain ⟨hpk, hcap, hnow⟩ := hkeep
  simp only [apply_ite State.pk, chrono_pk, setFlag_pk, ite_self, hpk, hcap, hnow, capPaceNext]
  by_cases h0 : 8 * capWatts s = 0
  · simp only [h0, if_true]
  · simp only [h0, Nat.pos_of_ne_zero h0, decide_true, Bool.true_and, decide_eq_true_eq]

@[simp] theorem dieTemp_markDone (s : State) (id : Nat) : dieTemp (markDone s id) = dieTemp s := rfl
@[simp] theorem stackTemp_markDone (s : State) (id : Nat) : stackTemp (markDone s id) = stackTemp s := rfl

/-- R375: a thermal evaluation that is due and trips nothing moves the thermal fraction alone, and shows the result. -/
theorem execThermalEvaluation_due {s : State} (h : isDue s 9 100000 = true) (hp : rbit s Reg.GLOBAL_PINS 1 = false)
    (htrip : s.bu.tripped = false) (hd : dieTemp s < 120) (hs : stackTemp s < 105) :
    ∃ u, execThermalEvaluation s = .next (showPace u) ∧ u.pk = { s.pk with thermPace := thermPaceNext s } := by
  refine ⟨_, congrArg Host.Outcome.next ((if_neg (by simp [h, hp])).trans ((if_neg (by simp [htrip])).trans
    ((if_neg (by simpa using hd)).trans (if_neg (by simpa using hs))))), ?_⟩
  simp only [apply_ite State.pk, setFlag_pk, setFld_pk, ite_self, putReg_pk, markDone_pk]
  simp only [thermPaceNext, dieTemp_markDone, stackTemp_markDone, rfld, getReg_putReg_other _ _ (show Reg.GLOBAL_THERM_CFG ≠ Reg.GLOBAL_TEMP by decide)]
  rfl

/-- Settles O7: each cause steps its own fraction and leaves the other's, so the larger falls only with the fraction
that stepped. -/
theorem theLargerFractionIsInForce : Obligations.TheLargerFractionIsInForce := by
  intro s hc ht htrip hpin hd hs shown
  refine ⟨fun hdue => ?_, fun hdue => ?_⟩
  · obtain ⟨u, hex, hu⟩ := execPacingStep_due hdue
    have hcap : u.pk.capPace = capPaceNext s := by rw [hu]
    have htherm : u.pk.thermPace = s.pk.thermPace := by rw [hu]
    refine ⟨showPace u, hex, paceShown_showPace (hcap ▸ capPaceNext_le hc) (htherm ▸ ht), htherm, fun hlt => ?_⟩
    rw [showPace_pk, htherm] at hlt
    exact lt_of_not_ge fun hle => hlt.not_ge (max_le_max_right _ hle)
  · obtain ⟨u, hex, hu⟩ := execThermalEvaluation_due hdue hpin htrip hd hs
    have hcap : u.pk.capPace = s.pk.capPace := by rw [hu]
    have htherm : u.pk.thermPace = thermPaceNext s := by rw [hu]
    refine ⟨showPace u, hex, paceShown_showPace (hcap ▸ hc) (htherm ▸ thermPaceNext_le ht), hcap, fun hlt => ?_⟩
    rw [showPace_pk, hcap] at hlt
    exact lt_of_not_ge fun hle => hlt.not_ge (max_le_max_left _ hle)

end Sys2Proof.Machine
